-- ==== Sys2Proof/Word.lean ====
section
/-!
DEFINITION. The words of the DW-410 (R5, 01_conventions "Register names"): the widths that the spec gives its
registers, as bit vectors. Nothing here computes beyond the plainest field access.
-/

namespace Sys2Proof

/-- A byte of memory (R5). -/
abbrev Byte := BitVec 8

/-- A scalar register s0-s63 or a CSR (R11). -/
abbrev Word := BitVec 64

/-- An address register a0-a15, an 80-bit virtual address (R11). -/
abbrev Addr := BitVec 80

/-- A predicate register p0-p15 (R11). -/
abbrev Pred := BitVec 256

/-- A vector register v0-v2047, 2,048 bits (R102). -/
abbrev VReg := BitVec 2048

/-- A chunk carry k0-k3: 64 AFF pairs of 64 bits, pair i at bits [64i+63:64i] (R171). -/
abbrev Carry := BitVec 4096

/-- A copy-descriptor register cd0-cd31, 128 bytes (R146). -/
abbrev CDesc := BitVec 1024

/-- A 384-bit bundle (R30). -/
abbrev Bundle := BitVec 384

end Sys2Proof
end

