-- ==== Sys2Proof/Syntax.lean ====
section
/-!
DEFINITION. The syntax of the DW-410: one constructor of `Instr` for each row of the table of operations and events. The
slot instructions carry their encoded fields (R36-R41), after the guard; the header rows carry their header fields. An
event of the machine or of the outside carries no field: what says where in the package it happens stands in `EvArgs`, which
the step puts into the state beside the event (Lean compiles no constructor with fields past the 244th).
-/

namespace Sys2Proof

/-- The guard of an S or V instruction: PG and PN (R36, R38, R42). -/
structure Guard where
  pg : BitVec 4
  pn : Bool
  deriving DecidableEq, Repr

/-- The unguarded form, PG = 0 with PN = 0 (R42). -/
def Guard.always : Guard := ⟨0, false⟩

/-- The count of a vector shift: element i of a register (MOD = 0) or an immediate (MOD = 1) (R128). -/
inductive ShiftCount where
  | vec (vb : BitVec 11)
  | imm (n : BitVec 6)
  deriving DecidableEq, Repr

/-- An element index or rotation: immediate VB[8:0] (MOD = 0) or scalar register VB[5:0] (MOD = 1) (R132, R138). -/
inductive ElemIndex where
  | imm (n : BitVec 9)
  | reg (b : BitVec 6)
  deriving DecidableEq, Repr

/-- A row or column index of a tile: immediate or scalar register (R169, R195, R197). -/
inductive SliceIndex where
  | imm (n : BitVec 7)
  | reg (b : BitVec 6)
  deriving DecidableEq, Repr

/-- The value an APPLY maps: a vector register or the offsets of a carry (R197). -/
inductive ApplySrc where
  | vec (va : BitVec 11)
  | carry (k : BitVec 2)
  deriving DecidableEq, Repr

/-- A stored word that an ECC event concerns: vector register word, scratchpad offset, accumulator-store offset, scalar register of
a strand's bank, operand memory offset, physical address (R101, R163, R189, R199, R306). -/
inductive ErrLoc where
  | vector (core reg : Nat)
  | scratch (core off : Nat)
  | accum (core off : Nat)
  | bank (core pos reg : Nat)
  | operand (cl off : Nat)
  | phys (pa : Nat)
  deriving DecidableEq, Repr

/-- Who inserts a record: SPAWN by a strand of a context, NOTIFY of a function, the device itself (a requeue), or a league
launch (R286, R289, R296, R338, R356). -/
inductive InsertBy where
  | spawn
  | notify (w : Nat)
  | requeue
  deriving DecidableEq, Repr

/-- A memory request that arrives from a peer or the host (R331, R345, R349): a read, a write, or an atomic with its operation
(numbered as the opcodes from AADD on) and its compare value. -/
structure PeerReq where
  pa : Nat
  size : Nat
  write : Bool
  data : BitVec 2048
  op : Option Nat := none
  cmp : Word := 0
  deriving DecidableEq, Repr

/-- A register that a write updates field by field (R14, R233, R288, R225, R336, R341, R346, R356). -/
inductive HostReg where
  | mbarg (w i : Nat)
  | notifyCtx (w : Nat)
  | notifyH (w : Nat)
  | nstat (w : Nat)
  | wevent (w : Nat)
  | ramp
  | estat
  | localId
  | peerCfg (x : Nat)
  | lgstat (w n : Nat)
  | fqstat (die : Nat)
  | fqresolveBad (die : Nat)
  | schedstat (die : Nat)
  | cacheLim (die ctx : Nat)
  | cacheEccMode (die : Nat)
  | readOnly
  deriving DecidableEq, Repr

/-- The operands of an event: each event reads those its docstring in `Instr` names, and the rest are 0.
`n` is the number of the thing inside its owner (a group, frame, slot, bank, entry, league, peer, sequence number, mode);
`aux` a second number (a stamp, a generation). -/
structure EvArgs where
  core : Nat := 0
  pos : Nat := 0
  id : Nat := 0
  die : Nat := 0
  cl : Nat := 0
  n : Nat := 0
  w : Nat := 0
  ctx : Nat := 0
  pa : Nat := 0
  aux : Nat := 0
  va : Addr := 0
  v : Word := 0
  flag : Bool := false
  bytes : List Byte := []
  req : PeerReq := ⟨0, 0, false, 0, none, 0⟩
  loc : ErrLoc := .phys 0
  reg : HostReg := .readOnly
  how : InsertBy := .requeue
  dram : Int := 0
  logic : Int := 0
  share : List (Nat × Nat) := []
  deriving DecidableEq, Repr

/-- The instructions and events of the DW-410: one constructor per row of the table of operations and events. -/
inductive Instr where
  /-- POP (R31, R32, R273: the POP bits of the header, bit n for latch qn) -/
  | pop (mask : BitVec 16)
  /-- GAP (R34: n idle clk after the bundle) -/
  | gap (n : BitVec 4)
  /-- CRIT (R33, R100: marks that take effect, bit 3 S0, bit 2 S1, bit 1 V0, bit 0 V1) -/
  | crit (mask : BitVec 4)
  /-- NOP (R35) -/
  | nop
  /-- ADD (R62) -/
  | add (g : Guard) (d : BitVec 6) (a : BitVec 6) (b : BitVec 6)
  /-- ADDI (R64) -/
  | addi (g : Guard) (d : BitVec 6) (a : BitVec 6) (imm : BitVec 17)
  /-- SUB (R62) -/
  | sub (g : Guard) (d : BitVec 6) (a : BitVec 6) (b : BitVec 6)
  /-- MUL (R62) -/
  | mul (g : Guard) (d : BitVec 6) (a : BitVec 6) (b : BitVec 6)
  /-- MULH (R62) -/
  | mulh (g : Guard) (d : BitVec 6) (a : BitVec 6) (b : BitVec 6)
  /-- MULHU (R62) -/
  | mulhu (g : Guard) (d : BitVec 6) (a : BitVec 6) (b : BitVec 6)
  /-- DIV (R62) -/
  | div (g : Guard) (d : BitVec 6) (a : BitVec 6) (b : BitVec 6)
  /-- DIVU (R62) -/
  | divu (g : Guard) (d : BitVec 6) (a : BitVec 6) (b : BitVec 6)
  /-- REM (R62) -/
  | rem (g : Guard) (d : BitVec 6) (a : BitVec 6) (b : BitVec 6)
  /-- REMU (R62) -/
  | remu (g : Guard) (d : BitVec 6) (a : BitVec 6) (b : BitVec 6)
  /-- AND (R62) -/
  | and (g : Guard) (d : BitVec 6) (a : BitVec 6) (b : BitVec 6)
  /-- OR (R62) -/
  | or (g : Guard) (d : BitVec 6) (a : BitVec 6) (b : BitVec 6)
  /-- XOR (R62) -/
  | xor (g : Guard) (d : BitVec 6) (a : BitVec 6) (b : BitVec 6)
  /-- ANDI (R64) -/
  | andi (g : Guard) (d : BitVec 6) (a : BitVec 6) (imm : BitVec 17)
  /-- ORI (R64) -/
  | ori (g : Guard) (d : BitVec 6) (a : BitVec 6) (imm : BitVec 17)
  /-- XORI (R64) -/
  | xori (g : Guard) (d : BitVec 6) (a : BitVec 6) (imm : BitVec 17)
  /-- SHL (R62) -/
  | shl (g : Guard) (d : BitVec 6) (a : BitVec 6) (b : BitVec 6)
  /-- SHR (R62) -/
  | shr (g : Guard) (d : BitVec 6) (a : BitVec 6) (b : BitVec 6)
  /-- SAR (R62) -/
  | sar (g : Guard) (d : BitVec 6) (a : BitVec 6) (b : BitVec 6)
  /-- SHLI (R64) -/
  | shli (g : Guard) (d : BitVec 6) (a : BitVec 6) (cnt : BitVec 6)
  /-- SHRI (R64) -/
  | shri (g : Guard) (d : BitVec 6) (a : BitVec 6) (cnt : BitVec 6)
  /-- SARI (R64) -/
  | sari (g : Guard) (d : BitVec 6) (a : BitVec 6) (cnt : BitVec 6)
  /-- MIN (R62) -/
  | min (g : Guard) (d : BitVec 6) (a : BitVec 6) (b : BitVec 6)
  /-- MAX (R62) -/
  | max (g : Guard) (d : BitVec 6) (a : BitVec 6) (b : BitVec 6)
  /-- MINU (R62) -/
  | minu (g : Guard) (d : BitVec 6) (a : BitVec 6) (b : BitVec 6)
  /-- MAXU (R62) -/
  | maxu (g : Guard) (d : BitVec 6) (a : BitVec 6) (b : BitVec 6)
  /-- CLZ (R65) -/
  | clz (g : Guard) (d : BitVec 6) (a : BitVec 6)
  /-- POPC (R65) -/
  | popc (g : Guard) (d : BitVec 6) (a : BitVec 6)
  /-- MOVI (R66) -/
  | movi (g : Guard) (d : BitVec 6) (imm : BitVec 17)
  /-- MOVK (R66) -/
  | movk (g : Guard) (d : BitVec 6) (imm : BitVec 16) (hw : BitVec 2)
  /-- SEL (R67) -/
  | sel (g : Guard) (d : BitVec 6) (pc : BitVec 4) (a : BitVec 6) (b : BitVec 6)
  /-- CEQ (R69) -/
  | ceq (g : Guard) (pd : BitVec 4) (a : BitVec 6) (b : BitVec 6)
  /-- CNE (R69) -/
  | cne (g : Guard) (pd : BitVec 4) (a : BitVec 6) (b : BitVec 6)
  /-- CLT (R69) -/
  | clt (g : Guard) (pd : BitVec 4) (a : BitVec 6) (b : BitVec 6)
  /-- CLE (R69) -/
  | cle (g : Guard) (pd : BitVec 4) (a : BitVec 6) (b : BitVec 6)
  /-- CLTU (R69) -/
  | cltu (g : Guard) (pd : BitVec 4) (a : BitVec 6) (b : BitVec 6)
  /-- CLEU (R69) -/
  | cleu (g : Guard) (pd : BitVec 4) (a : BitVec 6) (b : BitVec 6)
  /-- CEQI (R69) -/
  | ceqi (g : Guard) (pd : BitVec 4) (a : BitVec 6) (imm : BitVec 17)
  /-- CLTI (R69) -/
  | clti (g : Guard) (pd : BitVec 4) (a : BitVec 6) (imm : BitVec 17)
  /-- PAND (R70) -/
  | pand (g : Guard) (pd : BitVec 4) (pa : BitVec 4) (pb : BitVec 4)
  /-- POR (R70) -/
  | por (g : Guard) (pd : BitVec 4) (pa : BitVec 4) (pb : BitVec 4)
  /-- PXOR (R70) -/
  | pxor (g : Guard) (pd : BitVec 4) (pa : BitVec 4) (pb : BitVec 4)
  /-- PNOT (R70) -/
  | pnot (g : Guard) (pd : BitVec 4) (pa : BitVec 4)
  /-- PSET (R70; n at most 256) -/
  | pset (g : Guard) (pd : BitVec 4) (n : BitVec 9)
  /-- PANY (R70) -/
  | pany (g : Guard) (pd : BitVec 4) (pa : BitVec 4)
  /-- EXT (R68; len is the length minus 1) -/
  | ext (g : Guard) (d : BitVec 6) (a : BitVec 6) (fpos : BitVec 6) (len : BitVec 6)
  /-- EXT_S (R68; len is the length minus 1) -/
  | extS (g : Guard) (d : BitVec 6) (a : BitVec 6) (fpos : BitVec 6) (len : BitVec 6)
  /-- INS (R68; len is the length minus 1) -/
  | ins (g : Guard) (d : BitVec 6) (a : BitVec 6) (fpos : BitVec 6) (len : BitVec 6)
  /-- ADDA (R71) -/
  | adda (g : Guard) (ad : BitVec 4) (aa : BitVec 4) (b : BitVec 6)
  /-- ADDAI (R71) -/
  | addai (g : Guard) (ad : BitVec 4) (aa : BitVec 4) (imm : BitVec 17)
  /-- MOVA (R71) -/
  | mova (g : Guard) (ad : BitVec 4) (a : BitVec 6)
  /-- MOVAH (R71) -/
  | movah (g : Guard) (ad : BitVec 4) (a : BitVec 6)
  /-- RDA (R71) -/
  | rda (g : Guard) (d : BitVec 6) (aa : BitVec 4)
  /-- RDAH (R71) -/
  | rdah (g : Guard) (d : BitVec 6) (aa : BitVec 4)
  /-- CEQA (R71) -/
  | ceqa (g : Guard) (pd : BitVec 4) (aa : BitVec 4) (ab : BitVec 4)
  /-- SUBA (R71) -/
  | suba (g : Guard) (d : BitVec 6) (aa : BitVec 4) (ab : BitVec 4)
  /-- QRD (R72) -/
  | qrd (g : Guard) (d : BitVec 6) (n : BitVec 4) (w : BitVec 5)
  /-- BR (R74) -/
  | br (g : Guard) (off : BitVec 35)
  /-- JMP (R75) -/
  | jmp (g : Guard) (a : BitVec 6)
  /-- CALL (R76) -/
  | call (g : Guard) (off : BitVec 35)
  /-- CALLI (R76) -/
  | calli (g : Guard) (a : BitVec 6)
  /-- RET (R77) -/
  | ret (g : Guard)
  /-- LOOP (R83) -/
  | loop (g : Guard) (off : BitVec 35)
  /-- SPEC (R85) -/
  | spec (g : Guard) (imm : BitVec 17)
  /-- SPOK (R87) -/
  | spok (g : Guard) (pa : BitVec 4)
  /-- WAITS (R144) -/
  | waits (g : Guard) (n : BitVec 8) (t : BitVec 8)
  /-- SIGS (R144) -/
  | sigs (g : Guard) (n : BitVec 8) (i : BitVec 8)
  /-- SEMSET (R144) -/
  | semset (g : Guard) (a : BitVec 6) (n : BitVec 8)
  /-- SEMRD (R144) -/
  | semrd (g : Guard) (d : BitVec 6) (n : BitVec 8)
  /-- RETIRE (R296) -/
  | retire (g : Guard)
  /-- RETIRE_FAIL (R296) -/
  | retireFail (g : Guard) (cause : BitVec 8)
  /-- RETIRE_REQUEUE (R296) -/
  | retireRequeue (g : Guard)
  /-- REST (R209) -/
  | rest (g : Guard)
  /-- YIELD (R89) -/
  | yield (g : Guard)
  /-- TRAP (R28) -/
  | trap (g : Guard) (imm : BitVec 17)
  /-- UIRET (R98) -/
  | uiret (g : Guard)
  /-- PHASE (R295) -/
  | phase (g : Guard) (a : BitVec 6)
  /-- LD_B (R239) -/
  | ldB (g : Guard) (d : BitVec 6) (aa : BitVec 4) (imm : BitVec 17)
  /-- LD_BU (R239) -/
  | ldBu (g : Guard) (d : BitVec 6) (aa : BitVec 4) (imm : BitVec 17)
  /-- LD_H (R239) -/
  | ldH (g : Guard) (d : BitVec 6) (aa : BitVec 4) (imm : BitVec 17)
  /-- LD_HU (R239) -/
  | ldHu (g : Guard) (d : BitVec 6) (aa : BitVec 4) (imm : BitVec 17)
  /-- LD_W (R239) -/
  | ldW (g : Guard) (d : BitVec 6) (aa : BitVec 4) (imm : BitVec 17)
  /-- LD_WU (R239) -/
  | ldWu (g : Guard) (d : BitVec 6) (aa : BitVec 4) (imm : BitVec 17)
  /-- LD_D (R239) -/
  | ldD (g : Guard) (d : BitVec 6) (aa : BitVec 4) (imm : BitVec 17)
  /-- ST_B (R239) -/
  | stB (g : Guard) (aa : BitVec 4) (b : BitVec 6) (imm : BitVec 17)
  /-- ST_H (R239) -/
  | stH (g : Guard) (aa : BitVec 4) (b : BitVec 6) (imm : BitVec 17)
  /-- ST_W (R239) -/
  | stW (g : Guard) (aa : BitVec 4) (b : BitVec 6) (imm : BitVec 17)
  /-- ST_D (R239) -/
  | stD (g : Guard) (aa : BitVec 4) (b : BitVec 6) (imm : BitVec 17)
  /-- LDA_D (R242) -/
  | ldaD (g : Guard) (d : BitVec 6) (aa : BitVec 4) (scope : BitVec 3) (off : BitVec 11)
  /-- STL_D (R242) -/
  | stlD (g : Guard) (aa : BitVec 4) (b : BitVec 6) (scope : BitVec 3) (off : BitVec 11)
  /-- LDSC_D (R250) -/
  | ldscD (g : Guard) (d : BitVec 6) (aa : BitVec 4) (off : BitVec 11)
  /-- STSC_D (R250) -/
  | stscD (g : Guard) (aa : BitVec 4) (b : BitVec 6) (off : BitVec 11)
  /-- PREF (R240) -/
  | pref (g : Guard) (aa : BitVec 4) (imm : BitVec 17)
  /-- LDS_W (R140) -/
  | ldsW (g : Guard) (d : BitVec 6) (a : BitVec 6) (imm : BitVec 17)
  /-- LDS_D (R140) -/
  | ldsD (g : Guard) (d : BitVec 6) (a : BitVec 6) (imm : BitVec 17)
  /-- STS_W (R140) -/
  | stsW (g : Guard) (a : BitVec 6) (b : BitVec 6) (imm : BitVec 17)
  /-- STS_D (R140) -/
  | stsD (g : Guard) (a : BitVec 6) (b : BitVec 6) (imm : BitVec 17)
  /-- AADD (R243) -/
  | aadd (g : Guard) (d : BitVec 6) (aa : BitVec 4) (b : BitVec 6) (ord : BitVec 3) (scope : BitVec 3) (off : BitVec 11)
  /-- AAND (R243) -/
  | aand (g : Guard) (d : BitVec 6) (aa : BitVec 4) (b : BitVec 6) (ord : BitVec 3) (scope : BitVec 3) (off : BitVec 11)
  /-- AOR (R243) -/
  | aor (g : Guard) (d : BitVec 6) (aa : BitVec 4) (b : BitVec 6) (ord : BitVec 3) (scope : BitVec 3) (off : BitVec 11)
  /-- AXOR (R243) -/
  | axor (g : Guard) (d : BitVec 6) (aa : BitVec 4) (b : BitVec 6) (ord : BitVec 3) (scope : BitVec 3) (off : BitVec 11)
  /-- AMIN (R243) -/
  | amin (g : Guard) (d : BitVec 6) (aa : BitVec 4) (b : BitVec 6) (ord : BitVec 3) (scope : BitVec 3) (off : BitVec 11)
  /-- AMAX (R243) -/
  | amax (g : Guard) (d : BitVec 6) (aa : BitVec 4) (b : BitVec 6) (ord : BitVec 3) (scope : BitVec 3) (off : BitVec 11)
  /-- AXCHG (R243) -/
  | axchg (g : Guard) (d : BitVec 6) (aa : BitVec 4) (b : BitVec 6) (ord : BitVec 3) (scope : BitVec 3) (off : BitVec 11)
  /-- ACAS (R243) -/
  | acas (g : Guard) (d : BitVec 6) (aa : BitVec 4) (b : BitVec 6) (ord : BitVec 3) (scope : BitVec 3) (off : BitVec 11)
  /-- FENCE (R244) -/
  | fence (g : Guard) (ord : BitVec 3) (scope : BitVec 3)
  /-- LSMARK (R245) -/
  | lsmark (g : Guard)
  /-- EFENCE (R252) -/
  | efence (g : Guard)
  /-- QBIND (R272) -/
  | qbind (g : Guard) (n : BitVec 4) (aa : BitVec 4)
  /-- QUNB (R272) -/
  | qunb (g : Guard) (n : BitVec 4)
  /-- ENQ (R269) -/
  | enq (g : Guard) (aa : BitVec 4) (b : BitVec 6)
  /-- DEQ (R269) -/
  | deq (g : Guard) (d : BitVec 6) (aa : BitVec 4)
  /-- ENQT (R269) -/
  | enqt (g : Guard) (aa : BitVec 4) (b : BitVec 6)
  /-- DEQT (R269) -/
  | deqt (g : Guard) (d : BitVec 6) (aa : BitVec 4) (b : BitVec 6)
  /-- QINIT (R268; esz is esize/8 - 1) -/
  | qinit (g : Guard) (aa : BitVec 4) (ab : BitVec 4) (logCap : BitVec 5) (esz : BitVec 6) (md : BitVec 1)
  /-- JOIN (R282) -/
  | join (g : Guard) (aa : BitVec 4)
  /-- LEAVE (R282) -/
  | leave (g : Guard) (aa : BitVec 4)
  /-- GBAR (R282) -/
  | gbar (g : Guard) (aa : BitVec 4)
  /-- GCOUNT (R282) -/
  | gcount (g : Guard) (d : BitVec 6) (aa : BitVec 4)
  /-- SPAWN (R289) -/
  | spawn (g : Guard) (aa : BitVec 4)
  /-- JDEC (R289) -/
  | jdec (g : Guard) (aa : BitVec 4)
  /-- CDSET (R155) -/
  | cdset (g : Guard) (n : BitVec 5) (a : BitVec 6) (off : BitVec 7) (sz : BitVec 2)
  /-- CDADR (R155) -/
  | cdadr (g : Guard) (n : BitVec 5) (aa : BitVec 4) (off : BitVec 7)
  /-- CDRD (R155) -/
  | cdrd (g : Guard) (d : BitVec 6) (n : BitVec 5) (off : BitVec 7) (sz : BitVec 2)
  /-- CDLD (R155) -/
  | cdld (g : Guard) (n : BitVec 5) (aa : BitVec 4) (imm : BitVec 17)
  /-- TCFG (R166) -/
  | tcfg (g : Guard) (t : BitVec 4) (a : BitVec 6)
  /-- TRD (R167) -/
  | trd (g : Guard) (d : BitVec 6) (t : BitVec 4)
  /-- CSRR (R26) -/
  | csrr (g : Guard) (d : BitVec 6) (idx : BitVec 12)
  /-- CSRW (R27) -/
  | csrw (g : Guard) (a : BitVec 6) (idx : BitVec 12)
  /-- ERET (R29) -/
  | eret (g : Guard)
  /-- SWAP (R94) -/
  | swap (g : Guard) (n : BitVec 2)
  /-- TLBINV_PAGE (R231) -/
  | tlbinvPage (g : Guard) (aa : BitVec 4) (b : BitVec 6) (pkg : BitVec 1)
  /-- TLBINV_CTX (R231) -/
  | tlbinvCtx (g : Guard) (b : BitVec 6) (pkg : BitVec 1)
  /-- TLBINV_ALL (R231) -/
  | tlbinvAll (g : Guard) (pkg : BitVec 1)
  /-- JBEGIN (R203) -/
  | jbegin (g : Guard) (d : BitVec 6)
  /-- JWRITE (R203) -/
  | jwrite (g : Guard) (a : BitVec 6) (b : BitVec 6)
  /-- JCOMMIT (R203) -/
  | jcommit (g : Guard)
  /-- JABORT (R203) -/
  | jabort (g : Guard)
  /-- JVERIFY_CRC (R204, fn 0) -/
  | jverifyCrc (g : Guard) (d : BitVec 6) (a : BitVec 6) (b : BitVec 6)
  /-- JVERIFY_WEAR (R204, fn 1) -/
  | jverifyWear (g : Guard) (d : BitVec 6) (a : BitVec 6)
  /-- JVERIFY_STATUS (R204, fn 2) -/
  | jverifyStatus (g : Guard) (d : BitVec 6)
  /-- WAKE (R210) -/
  | wake (g : Guard) (a : BitVec 6)
  /-- SCRUBR_RANGE (R307, mode 0) -/
  | scrubrRange (g : Guard) (d : BitVec 6) (aa : BitVec 4) (b : BitVec 6) (n : BitVec 8)
  /-- SCRUBR_SECDED (R307, mode 1) -/
  | scrubrSecded (g : Guard) (d : BitVec 6) (n : BitVec 8)
  /-- SCRUBR_DECTED (R307, mode 2) -/
  | scrubrDected (g : Guard) (d : BitVec 6) (n : BitVec 8)
  /-- LGWAIT (R358) -/
  | lgwait (g : Guard) (d : BitVec 6)
  /-- VNOP (R35) -/
  | vnop
  /-- VADD (R126) -/
  | vadd (g : Guard) (ty : BitVec 4) (m : BitVec 3) (vd : BitVec 11) (va : BitVec 11) (vb : BitVec 11)
  /-- VSUB (R126) -/
  | vsub (g : Guard) (ty : BitVec 4) (m : BitVec 3) (vd : BitVec 11) (va : BitVec 11) (vb : BitVec 11)
  /-- VMUL (R126) -/
  | vmul (g : Guard) (ty : BitVec 4) (m : BitVec 3) (vd : BitVec 11) (va : BitVec 11) (vb : BitVec 11)
  /-- VMUL_HI (R126) -/
  | vmulHi (g : Guard) (ty : BitVec 4) (vd : BitVec 11) (va : BitVec 11) (vb : BitVec 11)
  /-- VFMA (R126) -/
  | vfma (g : Guard) (ty : BitVec 4) (m : BitVec 3) (vd : BitVec 11) (va : BitVec 11) (vb : BitVec 11) (vc : BitVec 11)
  /-- VFMS (R126) -/
  | vfms (g : Guard) (ty : BitVec 4) (m : BitVec 3) (vd : BitVec 11) (va : BitVec 11) (vb : BitVec 11) (vc : BitVec 11)
  /-- VMIN (R126; MOD is checked as R123 gives and then ignored) -/
  | vmin (g : Guard) (ty : BitVec 4) (m : BitVec 3) (vd : BitVec 11) (va : BitVec 11) (vb : BitVec 11)
  /-- VMAX (R126; MOD is checked as R123 gives and then ignored) -/
  | vmax (g : Guard) (ty : BitVec 4) (m : BitVec 3) (vd : BitVec 11) (va : BitVec 11) (vb : BitVec 11)
  /-- VABS (R126) -/
  | vabs (g : Guard) (ty : BitVec 4) (vd : BitVec 11) (va : BitVec 11)
  /-- VNEG (R126) -/
  | vneg (g : Guard) (ty : BitVec 4) (vd : BitVec 11) (va : BitVec 11)
  /-- VDIV (R127) -/
  | vdiv (g : Guard) (ty : BitVec 4) (m : BitVec 3) (vd : BitVec 11) (va : BitVec 11) (vb : BitVec 11)
  /-- VSQRT (R127) -/
  | vsqrt (g : Guard) (ty : BitVec 4) (m : BitVec 3) (vd : BitVec 11) (va : BitVec 11)
  /-- VRCP (R127) -/
  | vrcp (g : Guard) (ty : BitVec 4) (m : BitVec 3) (vd : BitVec 11) (va : BitVec 11)
  /-- VRSQ (R127) -/
  | vrsq (g : Guard) (ty : BitVec 4) (m : BitVec 3) (vd : BitVec 11) (va : BitVec 11)
  /-- VEXP2 (R127) -/
  | vexp2 (g : Guard) (ty : BitVec 4) (m : BitVec 3) (vd : BitVec 11) (va : BitVec 11)
  /-- VLOG2 (R127) -/
  | vlog2 (g : Guard) (ty : BitVec 4) (m : BitVec 3) (vd : BitVec 11) (va : BitVec 11)
  /-- VADDS (R126) -/
  | vadds (g : Guard) (ty : BitVec 4) (vd : BitVec 11) (va : BitVec 11) (vb : BitVec 11)
  /-- VSUBS (R126) -/
  | vsubs (g : Guard) (ty : BitVec 4) (vd : BitVec 11) (va : BitVec 11) (vb : BitVec 11)
  /-- VAND (R128) -/
  | vand (g : Guard) (ty : BitVec 4) (vd : BitVec 11) (va : BitVec 11) (vb : BitVec 11)
  /-- VOR (R128) -/
  | vor (g : Guard) (ty : BitVec 4) (vd : BitVec 11) (va : BitVec 11) (vb : BitVec 11)
  /-- VXOR (R128) -/
  | vxor (g : Guard) (ty : BitVec 4) (vd : BitVec 11) (va : BitVec 11) (vb : BitVec 11)
  /-- VNOT (R128) -/
  | vnot (g : Guard) (ty : BitVec 4) (vd : BitVec 11) (va : BitVec 11)
  /-- VSHL (R128) -/
  | vshl (g : Guard) (ty : BitVec 4) (vd : BitVec 11) (va : BitVec 11) (cnt : ShiftCount)
  /-- VSHR (R128) -/
  | vshr (g : Guard) (ty : BitVec 4) (vd : BitVec 11) (va : BitVec 11) (cnt : ShiftCount)
  /-- VSAR (R128) -/
  | vsar (g : Guard) (ty : BitVec 4) (vd : BitVec 11) (va : BitVec 11) (cnt : ShiftCount)
  /-- VCEQ (R129) -/
  | vceq (g : Guard) (ty : BitVec 4) (pd : BitVec 4) (va : BitVec 11) (vb : BitVec 11)
  /-- VCLT (R129) -/
  | vclt (g : Guard) (ty : BitVec 4) (pd : BitVec 4) (va : BitVec 11) (vb : BitVec 11)
  /-- VCLE (R129) -/
  | vcle (g : Guard) (ty : BitVec 4) (pd : BitVec 4) (va : BitVec 11) (vb : BitVec 11)
  /-- VCNE (R129) -/
  | vcne (g : Guard) (ty : BitVec 4) (pd : BitVec 4) (va : BitVec 11) (vb : BitVec 11)
  /-- VSEL (R130) -/
  | vsel (g : Guard) (ty : BitVec 4) (vd : BitVec 11) (pc : BitVec 4) (va : BitVec 11) (vb : BitVec 11)
  /-- VMOV (R130) -/
  | vmov (g : Guard) (ty : BitVec 4) (vd : BitVec 11) (va : BitVec 11)
  /-- VBCAST (R130) -/
  | vbcast (g : Guard) (ty : BitVec 4) (vd : BitVec 11) (a : BitVec 6)
  /-- VIOTA (R130) -/
  | viota (g : Guard) (ty : BitVec 4) (m : BitVec 3) (vd : BitVec 11) (a : BitVec 6)
  /-- VREDADD (R131) -/
  | vredadd (g : Guard) (ty : BitVec 4) (m : BitVec 3) (vd : BitVec 11) (va : BitVec 11)
  /-- VREDMAX (R131) -/
  | vredmax (g : Guard) (ty : BitVec 4) (vd : BitVec 11) (va : BitVec 11)
  /-- VREDMIN (R131) -/
  | vredmin (g : Guard) (ty : BitVec 4) (vd : BitVec 11) (va : BitVec 11)
  /-- VPERM (R132) -/
  | vperm (g : Guard) (ty : BitVec 4) (vd : BitVec 11) (va : BitVec 11) (vb : BitVec 11)
  /-- VSHUF (R132) -/
  | vshuf (g : Guard) (ty : BitVec 4) (vd : BitVec 11) (va : BitVec 11) (vb : BitVec 11) (vc : BitVec 11)
  /-- VROT (R132) -/
  | vrot (g : Guard) (ty : BitVec 4) (vd : BitVec 11) (va : BitVec 11) (j : ElemIndex)
  /-- VCVT (R133, R134) -/
  | vcvt (g : Guard) (ty : BitVec 4) (m : BitVec 3) (vd : BitVec 11) (va : BitVec 11) (src : BitVec 4) (part : BitVec 3) (gapx : BitVec 4)
  /-- VLD (R135) -/
  | vld (g : Guard) (ty : BitVec 4) (vd : BitVec 11) (a : BitVec 6) (off : BitVec 22)
  /-- VST (R135) -/
  | vst (g : Guard) (ty : BitVec 4) (vd : BitVec 11) (a : BitVec 6) (off : BitVec 22)
  /-- VGATH (R135) -/
  | vgath (g : Guard) (ty : BitVec 4) (vd : BitVec 11) (a : BitVec 6) (off : BitVec 22)
  /-- VSCAT (R135) -/
  | vscat (g : Guard) (ty : BitVec 4) (vd : BitVec 11) (a : BitVec 6) (off : BitVec 22)
  /-- VLDS (R135) -/
  | vlds (g : Guard) (ty : BitVec 4) (vd : BitVec 11) (a : BitVec 6) (off : BitVec 22)
  /-- VSTS (R135) -/
  | vsts (g : Guard) (ty : BitVec 4) (vd : BitVec 11) (a : BitVec 6) (off : BitVec 22)
  /-- VMVS (R138) -/
  | vmvs (g : Guard) (ty : BitVec 4) (d : BitVec 6) (va : BitVec 11) (j : ElemIndex)
  /-- VINS (R138) -/
  | vins (g : Guard) (ty : BitVec 4) (vd : BitVec 11) (a : BitVec 6) (j : ElemIndex)
  /-- VENQ (R270) -/
  | venq (g : Guard) (aa : BitVec 4) (vb : BitVec 11)
  /-- VQRD (R274) -/
  | vqrd (g : Guard) (vd : BitVec 11) (n : BitVec 4)
  /-- TRW (R169) -/
  | trw (g : Guard) (ty : BitVec 4) (t : BitVec 4) (v : BitVec 11) (j : SliceIndex)
  /-- TRR (R169) -/
  | trr (g : Guard) (ty : BitVec 4) (t : BitVec 4) (v : BitVec 11) (j : SliceIndex)
  /-- TCW (R169) -/
  | tcw (g : Guard) (ty : BitVec 4) (t : BitVec 4) (v : BitVec 11) (j : SliceIndex)
  /-- TCR (R169) -/
  | tcr (g : Guard) (ty : BitVec 4) (t : BitVec 4) (v : BitVec 11) (j : SliceIndex)
  /-- TZERO (R170) -/
  | tzero (g : Guard) (t : BitVec 4)
  /-- TMOV (R170) -/
  | tmov (g : Guard) (t : BitVec 4) (ts : BitVec 4)
  /-- AFFSET (R195) -/
  | affset (g : Guard) (t : BitVec 4) (va : BitVec 11) (vb : BitVec 11) (j : SliceIndex)
  /-- SCAN (R196) -/
  | scan (g : Guard) (t : BitVec 4) (k : BitVec 2)
  /-- APPLY (R197) -/
  | apply (g : Guard) (vd : BitVec 11) (t : BitVec 4) (j : SliceIndex) (src : ApplySrc)
  /-- KLD (R171) -/
  | kld (g : Guard) (k : BitVec 2) (va : BitVec 11)
  /-- KST (R171) -/
  | kst (g : Guard) (vd : BitVec 11) (k : BitVec 2)
  /-- MNOP (R35) -/
  | mnop
  /-- MMA (R187) -/
  | mma (t : BitVec 4) (oa : BitVec 6) (ob : BitVec 6) (fmt : BitVec 4) (acc : BitVec 2) (ws : BitVec 8) (wt : BitVec 4) (ss : BitVec 8)
  /-- MREP (R191; n is the repeat count minus 1) -/
  | mrep (n : BitVec 6) (sa : Bool) (sb : Bool) (st : Bool)
  /-- LEASE (R184) -/
  | lease (ss : BitVec 8)
  /-- UNLEASE (R184) -/
  | unlease
  /-- OCLAIM (R179) -/
  | oclaim (oa : BitVec 6)
  /-- ORELEASE (R181) -/
  | orelease (oa : BitVec 6)
  /-- OFILL (R182) -/
  | ofill (ob : BitVec 6) (oa : BitVec 6) (ws : BitVec 8) (wt : BitVec 4) (ss : BitVec 8)
  /-- XNOP (R35) -/
  | xnop
  /-- XEXP (R161) -/
  | xexp (vd : BitVec 11) (va : BitVec 11) (bf : BitVec 1)
  /-- XTRN (R161; 0 .w, 1 .b, 2 .h) -/
  | xtrn (vd : BitVec 11) (va : BitVec 11) (w : BitVec 2)
  /-- XCVT (R161) -/
  | xcvt (vd : BitVec 11) (va : BitVec 11) (pair : BitVec 3) (part : BitVec 1)
  /-- XHAD (R161) -/
  | xhad (vd : BitVec 11) (va : BitVec 11) (h : BitVec 1)
  /-- XQNT (R161) -/
  | xqnt (vd : BitVec 11) (va : BitVec 11) (f : BitVec 1) (gapx : BitVec 3)
  /-- XDQN (R161) -/
  | xdqn (vd : BitVec 11) (va : BitVec 11) (f : BitVec 1)
  /-- CNOP (R35) -/
  | cnop
  /-- COPY (R156) -/
  | copy (cd : BitVec 5) (ws : BitVec 8) (wt : BitVec 4) (ss : BitVec 8) (si : BitVec 4) (cm : BitVec 2)
  /-- COPYN (R156) -/
  | copyn (cd : BitVec 5) (ws : BitVec 8) (wt : BitVec 4) (ss : BitVec 8) (si : BitVec 4) (cm : BitVec 2)
  /-- COPYD (R159) -/
  | copyd (cd : BitVec 5) (wt : BitVec 4) (ss : BitVec 8) (si : BitVec 4) (cm : BitVec 2)
  /-- BUNDLE_FETCH (R44: the core decodes the code unit at pc and yields the next bundle to issue; operands: core) -/
  | bundleFetch
  /-- EXPOSED_RESULT_LANDS (R16, R20: results due at the end of this clk land; operands: core, pos) -/
  | exposedResultLands
  /-- INTERLOCKED_DELIVERY (R18: the value of access id is delivered to the bank; operands: core, pos, id) -/
  | interlockedDelivery
  /-- STRAND_SWITCH (R90: the core chooses the next ready strand, in a bubble clk; operands: core) -/
  | strandSwitch
  /-- TRAP_ENTRY (R22: entry of the trap recorded for the strand; operands: core, pos) -/
  | trapEntry
  /-- SCRUPLE_REPLAY (R99: a timing detector fires on the bundle last issued; operands: core) -/
  | scrupleReplay
  /-- USER_INTERRUPT_ENTRY (R97: the queued interrupt of the issuing strand is delivered; operands: core) -/
  | userInterruptEntry
  /-- WINDOW_SHIFT (R76, R77: the owed window shift after the third delay bundle; operands: core, pos) -/
  | windowShift
  /-- WINDOW_SPILL (R80: the spill engine writes the two oldest frames; operands: core, pos) -/
  | windowSpill
  /-- WINDOW_FILL (R80: the spill engine reads the frames of the caller; operands: core, pos) -/
  | windowFill
  /-- BANK_EXCHANGE (R94: the exchange in progress ends; operands: core) -/
  | bankExchange
  /-- URGENT_PREEMPTION (R94: the scheduler starts an exchange of a position; operands: core, pos) -/
  | urgentPreemption
  /-- VECTOR_GROUP_BACKGROUND_SAVE (R95: a dirty vector group is saved in idle port clk; operands: core, n) -/
  | vectorGroupBackgroundSave
  /-- VECTOR_GROUP_EXCHANGE (R95: a vector group passes to the bank that names it; operands: core, pos, n) -/
  | vectorGroupExchange
  /-- FRAME_EXCHANGE (R172: a tile frame passes to another context; operands: core, n, ctx) -/
  | frameExchange
  /-- FRAME_BACKGROUND_SAVE (R172: a dirty frame of an absent owner is saved; operands: core, n) -/
  | frameBackgroundSave
  /-- ECC_REWRITE (R101: a corrected word is rewritten; operands: core, loc) -/
  | eccRewrite
  /-- ACCESS_PERFORM (R235: access id of the bank performs; operands: core, pos, id) -/
  | accessPerform
  /-- SC_WHEEL_PERFORM (R249: an SC event of the core performs at its wheel position; operands: core) -/
  | scWheelPerform
  /-- QUEUE_PERFORM (R266: queue operation id of the bank reaches its controller; operands: core, pos, id) -/
  | queuePerform
  /-- CONTROLLER_REPORT (R266: the report of operation id reaches the core; operands: core, pos, id) -/
  | controllerReport
  /-- LATCH_REFILL (R273: refill id reaches its controller; operands: core, pos, id) -/
  | latchRefill
  /-- RESERVATION_TABLE_WAIT_END (R275: the oldest refill waiting for a table entry performs; operands: die) -/
  | reservationTableWaitEnd
  /-- GROUP_PERFORM (R282: group operation id reaches its controller; operands: core, pos, id) -/
  | groupPerform
  /-- JOIN_DECREMENT (R287: one decrement of the join counter of the record at pa; operands: die, pa) -/
  | joinDecrement
  /-- DICT_RELOAD (R48, R290: the dictionary image under the new DBASE and DLEN becomes resident; operands: core, pos) -/
  | dictReload
  /-- ATS_INVALIDATE (R231: an invalidation of the host; n = 0 page, 1 context, 2 all; operands: n, ctx, va) -/
  | atsInvalidate
  /-- JOURNAL_ATTEMPT (R201: the attempt in progress ends; operands: cl) -/
  | journalAttempt
  /-- COMMIT_POINT (R202: the commit unit has passed its check; operands: cl) -/
  | commitPoint
  /-- JOURNAL_APPLY (R203: one committed record is applied to its home unit; operands: cl) -/
  | journalApply
  /-- SWEEP_COMPLETE (R308: sweep n of the die ends; operands: die, n) -/
  | sweepComplete
  /-- SCRUB_STEP (R306: a scrubber corrects and rewrites one location; operands: die, loc, flag: an error was corrected) -/
  | scrubStep
  /-- SLOT_ZEROING_DONE (R179; operands: cl, n) -/
  | slotZeroingDone
  /-- M_QUEUE_START (R183: the head entry of the M queue starts; operands: core) -/
  | mQueueStart
  /-- ORELEASE_EFFECT (R181; operands: core) -/
  | oreleaseEffect
  /-- UNLEASE_EFFECT (R184; operands: core) -/
  | unleaseEffect
  /-- MMA_ROW_STREAM (R186: the started command id streams its next row; operands: core, id) -/
  | mmaRowStream
  /-- MMA_COMPLETE (R186: the started command id completes; operands: core, id) -/
  | mmaComplete
  /-- OFILL_COMPLETE (R182; operands: core, id) -/
  | ofillComplete
  /-- LEASE_GRANT (R184; operands: cl, core) -/
  | leaseGrant
  /-- LEASE_PASS (R185; operands: cl) -/
  | leasePass
  /-- QUANTUM_EXPIRE (R185; operands: cl) -/
  | quantumExpire
  /-- COPY_START (R157: copy id starts; operands: core, pos, id) -/
  | copyStart
  /-- COPY_COMPLETE (R157: copy id completes; operands: core, pos, id) -/
  | copyComplete
  /-- COPY_FAULT (R158: copy id fails with its cause; operands: core, pos, id) -/
  | copyFault
  /-- TRANSLATION_WALK_END (R230: walk id ends; operands: die, id) -/
  | translationWalkEnd
  /-- FAULT_ENTRY_WRITE (R232: a strand parked without an entry gets one; operands: die) -/
  | faultEntryWrite
  /-- FQRESOLVE_RETRY (R234, ACTION 0; operands: die, n) -/
  | fqresolveRetry
  /-- FQRESOLVE_FAIL (R234, ACTION 1; operands: die, n) -/
  | fqresolveFail
  /-- FQRESOLVE_REJECT (R234, ACTION 2; operands: die, n) -/
  | fqresolveReject
  /-- FAULT_RELEASE (R234: the next releasable entry is released; operands: die) -/
  | faultRelease
  /-- CACHE_LINE_UE (R303: an uncorrectable error in a cached line; operands: die, pa) -/
  | cacheLineUe
  /-- RECORD_INSERT (R286: the record at pa is inserted; operands: va, pa, ctx, how) -/
  | recordInsert
  /-- RECORD_POP (R290: an empty position pops an eligible record; operands: core, pos) -/
  | recordPop
  /-- FURLONG_START (R292) -/
  | furlongStart
  /-- PHASE_OVERRUN (R294; operands: core, pos) -/
  | phaseOverrun
  /-- HELD_LOG_WRITE (R297; operands: die) -/
  | heldLogWrite
  /-- CLUSTER_OFF (R209; operands: cl) -/
  | clusterOff
  /-- CLUSTER_WAKE (R208; operands: cl) -/
  | clusterWake
  /-- SUPPLY_RAMP_DONE (R208; operands: cl) -/
  | supplyRampDone
  /-- SRAM_CLEAR_DONE (R208; operands: cl) -/
  | sramClearDone
  /-- JOURNAL_RECOVERY (R207; operands: cl) -/
  | journalRecovery
  /-- NV_SNAPSHOT (R211; operands: core, pos) -/
  | nvSnapshot
  /-- POWER_LOSS (R211) -/
  | powerLoss
  /-- PACKAGE_RESET (R324) -/
  | packageReset
  /-- DIE_AUTHENTICATE (R324: n = 0, 1 I/O dies, 2-5 compute dies; operands: n) -/
  | dieAuthenticate
  /-- GET_VERSION (R326; operands: w) -/
  | getVersion
  /-- GET_CAPABILITIES (R326; operands: w) -/
  | getCapabilities
  /-- NEGOTIATE_ALGORITHMS (R326; operands: w) -/
  | negotiateAlgorithms
  /-- GET_DIGESTS (R326; operands: w) -/
  | getDigests
  /-- GET_CERTIFICATE (R326; operands: w) -/
  | getCertificate
  /-- CHALLENGE (R326; operands: w, bytes) -/
  | challenge
  /-- GET_MEASUREMENTS (R326; operands: w, bytes) -/
  | getMeasurements
  /-- CONFIG_LOCKED (R327; operands: w) -/
  | configLocked
  /-- RUN (R327; operands: w) -/
  | run
  /-- TDISP_EXIT (R327, R333; operands: w, flag, bytes) -/
  | tdispExit
  /-- CTXASSIGN (R337: mailbox command 0x01 of function w; operands: w) -/
  | ctxassign
  /-- CTXLOAD (R337: mailbox command 0x02; operands: w) -/
  | ctxload
  /-- CTXKILL (R337: mailbox command 0x03; operands: w) -/
  | ctxkill
  /-- PAGEOUT (R335: mailbox command 0x04; operands: w) -/
  | pageout
  /-- PAGEIN (R335: mailbox command 0x05; operands: w) -/
  | pagein
  /-- WORLDFREE (R337: mailbox command 0x06; operands: w) -/
  | worldfree
  /-- RESYNC (R340: mailbox command 0x07; operands: w) -/
  | resync
  /-- LGLAUNCH (R356: mailbox command 0x08; operands: w) -/
  | lglaunch
  /-- NOTIFY (R338: a write of NOTIFY of function w; operands: w, v) -/
  | notify
  /-- FIREWALL_WRITE (R330: a write of FWBASE or FWLIM of entry i by world w; operands: w, die, n, flag, v) -/
  | firewallWrite
  /-- PCAP_WRITE (R342; operands: v) -/
  | pcapWrite
  /-- FLOOR_WRITE (R342; operands: w, v) -/
  | floorWrite
  /-- FREQREQ_WRITE (R343; operands: v) -/
  | freqreqWrite
  /-- ENERGY_LO_READ (R344; operands: w) -/
  | energyLoRead
  /-- ENERGY_HI_READ (R344; operands: w) -/
  | energyHiRead
  /-- UNFENCE (R354; operands: n) -/
  | unfence
  /-- REGISTER_WRITE (R14, R336, R341, R346: a write of a register without behaviour of its own; operands: reg, v) -/
  | registerWrite
  /-- DRAM_SENSOR_SAMPLE (R213: readings in 1/16 degree C; operands: cl, dram, logic) -/
  | dramSensorSample
  /-- BANK_REFRESH_START (R212; operands: cl, n) -/
  | bankRefreshStart
  /-- BANK_REFRESH_END (R212; operands: cl, n) -/
  | bankRefreshEnd
  /-- THERMAL_STEP (R214) -/
  | thermalStep
  /-- POWER_MANAGER_PERIOD (R343: average power and power attributed to worlds, in 1/8 W; operands: n, share) -/
  | powerManagerPeriod
  /-- REMOTE_RESPONSE (R348: the response to request id of peer n, `flag` an error, the data in `bytes`; operands: n, id, flag, bytes) -/
  | remoteResponse
  /-- INCOMING_PEER_REQUEST (R349; operands: n, req) -/
  | incomingPeerRequest
  /-- UNSUPPORTED_UALINK_MESSAGE (R345; operands: n) -/
  | unsupportedUalinkMessage
  /-- PEER_BUDGET_RELEASE (R350; operands: die, n) -/
  | peerBudgetRelease
  /-- PEER_TIMEOUT (R351; operands: n) -/
  | peerTimeout
  /-- LEAGUE_PREEMPT (R357; operands: n) -/
  | leaguePreempt
  /-- LEAGUE_START (R357; operands: n) -/
  | leagueStart
  /-- LEAGUE_START_MESSAGE (R357; operands: n, id, aux) -/
  | leagueStartMessage
  /-- LEAGUE_ARRIVE_MESSAGE (R358; operands: n, id, aux) -/
  | leagueArriveMessage
  /-- LEAGUE_ABORT_MESSAGE (R359; operands: n) -/
  | leagueAbortMessage
  /-- LEAGUE_GRACE_EXPIRE (R359; operands: n) -/
  | leagueGraceExpire
  /-- LEAGUE_RELAUNCH (R359; operands: n) -/
  | leagueRelaunch
  /-- HOST_REQUEST (R331; operands: w, req) -/
  | hostRequest
  /-- ENERGY_COUNTER_WRAP (R344) -/
  | energyCounterWrap
  /-- RAMP_ALLOWANCE_REACHED (R343; operands: cl) -/
  | rampAllowanceReached
  deriving DecidableEq, Repr

end Sys2Proof
end

