-- ==== Sys2Proof/Machine/Formats.lean ====
section
/-!
DEFINITION. The type and format codes of R102 and the classes of R123: element widths and counts.
-/

namespace Sys2Proof.Machine

/-- INT of R123: codes 0x0-0x5. -/
def tyInt (ty : BitVec 4) : Bool := ty.toNat ≤ 5

/-- FLT of R123: codes 0x8-0xA. -/
def tyFlt (ty : BitVec 4) : Bool := 8 ≤ ty.toNat && ty.toNat ≤ 10

/-- ANY of R123: codes 0x0-0xA. -/
def tyAny (ty : BitVec 4) : Bool := ty.toNat ≤ 10

/-- A DX code, 0xC or 0xD (R102). -/
def tyDx (ty : BitVec 4) : Bool := ty.toNat == 12 || ty.toNat == 13

/-- The 32-bit codes 0x4, 0x5, 0xA (R135). -/
def ty32 (ty : BitVec 4) : Bool := ty.toNat == 4 || ty.toNat == 5 || ty.toNat == 10

/-- The tile types 0x4, 0xA, 0xB (R169). -/
def tyTile (ty : BitVec 4) : Bool := ty.toNat == 4 || ty.toNat == 10 || ty.toNat == 11

/-- A signed integer code (R102). -/
def tySigned (ty : BitVec 4) : Bool := ty.toNat == 0 || ty.toNat == 2 || ty.toNat == 4

/-- Bits per element of a code (R102); a DX8 element counts 8 bits and a DX4 element 4. -/
def tyWidth (ty : BitVec 4) : Nat :=
  match ty.toNat with
  | 0 | 1 | 6 | 7 | 12 => 8
  | 2 | 3 | 8 | 9 => 16
  | 13 => 4
  | 11 => 64
  | _ => 32

/-- Elements per vector register (R102); for the DX codes, of the register pair. -/
def tyCount (ty : BitVec 4) : Nat := 2048 / tyWidth ty

/-- The common MOD rule of R123 for an INT or FLT instruction that rounds: 0, or 0b1xx for FLT. -/
def modRounds (ty : BitVec 4) (m : BitVec 3) : Bool :=
  m.toNat == 0 || (tyFlt ty && 4 ≤ m.toNat)

/-- A type of class INT or FLT. -/
def tyIntFlt (ty : BitVec 4) : Bool := tyInt ty || tyFlt ty

/-- The field rules of VCVT (R133, R134). -/
def cvtOk (g : Guard) (dest : BitVec 4) (m : BitVec 3) (vd va : BitVec 11) (src : BitVec 4) (part : BitVec 3)
    (gapx : BitVec 4) : Bool :=
  let ns := tyCount src
  let nd := tyCount dest
  (tyAny dest || tyDx dest) && (tyAny src || tyDx src) && src != dest && !(tyDx src && tyDx dest)
    && !(tyDx dest && tyInt src) && !(tyDx src && tyInt dest)
    && (m.toNat == 0 || 4 ≤ m.toNat)
    && (tyDx dest || gapx == 0)
    && (!tyDx dest || (tyFlt src && g.pg == 0 && !g.pn && vd.toNat % 2 == 0))
    && (!tyDx src || va.toNat % 2 == 0)
    && (if nd < ns then part.toNat < ns / nd else if ns < nd then part.toNat < nd / ns else part == 0)

/-- An immediate element index or rotation must be below n (R132, R138). -/
def elemIndexOk (ty : BitVec 4) (j : ElemIndex) : Bool :=
  match j with
  | .imm k => k.toNat < tyCount ty
  | .reg _ => true

/-- An immediate shift count must be below the element width (R128). -/
def shiftOk (ty : BitVec 4) (c : ShiftCount) : Bool :=
  match c with
  | .imm k => k.toNat < tyWidth ty
  | .vec _ => true

/-- ORD and SCOPE of an atomic (R243). -/
def atomicOk (ord scope : BitVec 3) : Bool :=
  ord.toNat ≤ 4 && scope.toNat ≤ 5 && (ord.toNat != 4 || scope.toNat == 4)

/-- ORD and SCOPE of FENCE (R244). -/
def fenceOk (ord scope : BitVec 3) : Bool :=
  1 ≤ ord.toNat && atomicOk ord scope

end Sys2Proof.Machine
end

