-- ==== Sys2Proof/Config.lean ====
section
/-!
DEFINITION. What the DW-410 fixes (R2, R3 and the figures of the home chapters) and the free values: constants with no
body, so that nothing in Lean can evaluate them or prove a value of them (assumption log, entries 5 and 6).
-/

namespace Sys2Proof.Config

/-- Bytes of a core's scratchpad (R139). -/
def scratchBytes : Nat := 786432

/-- Frames of an accumulator store (R162). -/
def frameBytes : Nat := 65536

/-- Bytes of an MRAM slab, 256 MiB (R198). -/
def slabBytes : Nat := 0x10000000

/-- Clk of one microsecond at 1.4 GHz (R2, R3, R212). -/
def ticksPerUs : Nat := 1400

/-- Length of a furlong in clk (R2, R292). -/
def furlong : Nat := 4194304

/-- The idle floor of the package in 1/8 W (R341). -/
def idleFloor : Nat := 360

/-- FREE VALUE: whether the n-th choice left open by the spec is taken. The perform times, walk times and engine data
times are nominal figures that "fix no result" (R224), so each is left to a choice. -/
opaque chooses : Nat → Bool

/-- FREE VALUE: the n-th number left open by the spec (a measured time, an arbitration). -/
opaque freeNat : Nat → Nat

/-- FREE VALUE: the n-th 64-bit value left open by the spec. -/
opaque freeWord : Nat → BitVec 64

/-- FREE VALUE: the 4,627 bytes of the ML-DSA-87 signature of a byte string under a key seed (R2, R325, R334). -/
opaque mldsaSig : List (BitVec 8) → List (BitVec 8) → BitVec 37016

/-- FREE VALUE: the ML-DSA-87 public key that a key seed gives (R325). -/
opaque mldsaPublic : List (BitVec 8) → List (BitVec 8)

/-- FREE VALUE: the KMAC256 tag of a page and trailer under the key of a world (R335). -/
opaque kmac : Nat → List (BitVec 8) → List (BitVec 8)

/-- FREE VALUE: the Kolquin root certificate (R325). -/
opaque kolquinRoot : List (BitVec 8)

/-- FREE VALUE: the unique device secret fused into Flohild (R325). -/
opaque deviceSecret : List (BitVec 8)

/-- FREE VALUE: the firmware measurement of die d (R324, R326); 0, 1 are the I/O dies, 2-5 the compute dies. -/
opaque measurement : Nat → List (BitVec 8)

/-- FREE VALUE: the digest that the Kolquin-signed manifest holds for die d (R324). -/
opaque manifest : Nat → List (BitVec 8)

/-- FREE VALUE: Flohild's configuration and lifecycle fuses (R326). -/
opaque flohildConfig : List (BitVec 8)

/-- FREE VALUE: whether die d answers the SPDM exchange of boot correctly (R324). -/
opaque spdmPasses : Nat → Bool

/-- FREE VALUE: where the ECC mode of a shared cache stands in its die's MMIO block, what its register reads as in each mode, and the mode
that a written value gives (R306): the spec names the register and gives neither offset nor fields. -/
opaque cacheModeOff : Nat
opaque cacheModeWord : Bool → BitVec 64
opaque cacheModeOf : BitVec 64 → Bool

/-- FREE VALUE: where in a die's MMIO block the registers of a world's BAR 0 (R336) stand for the stores of its strands (R338): the spec
lets a strand store to NOTIFY and gives no address. -/
opaque barOff : Nat

/-- FREE VALUE: bytes of LPDDR 6 that are populated, up to 1 TiB (R2, R221). -/
opaque lpddrBytes : Nat

/-- FREE VALUE: which of the 16 banks of its region a DRAM address lies in (R212). -/
opaque dramBank : Nat → Nat

/-- FREE VALUE: what a byte of device memory or of a peer reads as, by accelerator and address: the spec gives no
contents for another accelerator's memory (R348) or for host memory (R221). -/
opaque peerByte : Nat → Nat → BitVec 8

/-- FREE VALUE: the events whose time the spec leaves open (a perform, a delivery, a walk's end, data times of an engine, what
the host, a peer, a sensor or the supply does) that come about in clk n/2, in order; those of an odd n act later in the clk, among the writes
of copies. Each event checks its own condition and does nothing where it does not hold (log 1). -/
opaque events : Nat → List (Instr × EvArgs)

/-- FREE VALUE: whether the n-th write attempt of a journal engine reads back otherwise than it was programmed (R201). -/
opaque writeFails : Nat → Bool

/-- FREE VALUE: the stored words that become uncorrectable in clk n (R101, R163, R177, R303). -/
opaque upsets : Nat → List ErrLoc

/-- FREE VALUE: the readings of a cluster's sensors in clk n, in 1/16 degree C (R213). -/
opaque dramHeat : Nat → Nat → Int
opaque logicHeat : Nat → Nat → Int

/-- FREE VALUE: the energy in µJ that the package takes in clk n (R344); its power averaged over the last 1 ms, in 1/8 W, and
that of a cluster, as the power manager finds them in clk n (R343). -/
opaque energyStep : Nat → Nat
opaque power : Nat → Nat
opaque clusterPower : Nat → Nat → Nat

/-- FREE VALUE: fabric time in ns at clk n (R355). -/
opaque fabricNs : Nat → BitVec 64

end Sys2Proof.Config
end

