-- ==== Sys2Proof/Machine/Map.lean ====
section
/-!
DEFINITION. Sparse maps: a list of (key, value) pairs in one canonical form, with strictly rising keys and no entry equal to
what an unlisted key reads as (`dflt`). Every file of the machine with many like parts (memory, register files, cores) is
one, so that equal contents are equal data.
-/

namespace Sys2Proof.Machine

/-- A sparse map from numbers. -/
abbrev SMap (α : Type) := List (Nat × α)

/-- What key `k` holds. -/
def mapGet {α : Type} (dflt : Nat → α) : SMap α → Nat → α
  | [], k => dflt k
  | (i, v) :: m, k => if k = i then v else mapGet dflt m k

/-- Put an entry at the front; where it is what an unlisted key reads as, the key is left unlisted. -/
def mapCons {α : Type} [DecidableEq α] (dflt : Nat → α) (k : Nat) (v : α) (m : SMap α) : SMap α :=
  if v = dflt k then m.filter (fun e => decide (e.1 ≠ k)) else (k, v) :: m

/-- Write `v` at key `k`. -/
def mapSet {α : Type} [DecidableEq α] (dflt : Nat → α) : SMap α → Nat → α → SMap α
  | [], k, v => mapCons dflt k v []
  | (i, w) :: m, k, v =>
    if k = i then mapCons dflt k v m
    else if k < i then mapCons dflt k v ((i, w) :: m)
    else (i, w) :: mapSet dflt m k v

/-- The canonical form above a bound: keys are at least `lo` and strictly rising, no entry is the default. -/
def mapWfFrom {α : Type} [DecidableEq α] (dflt : Nat → α) : Nat → SMap α → Bool
  | _, [] => true
  | lo, (i, v) :: m => decide (lo ≤ i) && !decide (v = dflt i) && mapWfFrom dflt (i + 1) m

/-- The canonical form. -/
def mapWf {α : Type} [DecidableEq α] (dflt : Nat → α) (m : SMap α) : Bool := mapWfFrom dflt 0 m

/-- Write a list of values at consecutive keys. -/
def mapSetList {α : Type} [DecidableEq α] (dflt : Nat → α) : SMap α → Nat → List α → SMap α
  | m, _, [] => m
  | m, k, v :: vs => mapSetList dflt (mapSet dflt m k v) (k + 1) vs

/-- Read `n` consecutive keys. -/
def mapGetList {α : Type} (dflt : Nat → α) (m : SMap α) : Nat → Nat → List α
  | _, 0 => []
  | k, n + 1 => mapGet dflt m k :: mapGetList dflt m (k + 1) n

/-- Drop every entry whose key lies in [lo, lo + n). -/
def mapClear {α : Type} (m : SMap α) (lo n : Nat) : SMap α :=
  m.filter (fun e => !(decide (lo ≤ e.1) && decide (e.1 < lo + n)))

/-- Put an entry behind those whose number is not above its own. -/
def insertByOrder {α : Type} (e : Nat × α) : List (Nat × α) → List (Nat × α)
  | [] => [e]
  | h :: t => if e.1 < h.1 then e :: h :: t else h :: insertByOrder e t
def sortByOrder {α : Type} (l : List (Nat × α)) : List (Nat × α) := l.foldl (fun acc e => insertByOrder e acc) []

/-- A word from bytes, the lowest address first (R5). -/
def natOfBytes : List Byte → Nat
  | [] => 0
  | b :: bs => b.toNat + 256 * natOfBytes bs

/-- The `n` low bytes of a number, the lowest first (R5). -/
def bytesOfNat : Nat → Nat → List Byte
  | 0, _ => []
  | n + 1, v => BitVec.ofNat 8 v :: bytesOfNat n (v / 256)

/-- Bits [lo + n - 1 : lo] of a number. -/
def bitsOf (v lo n : Nat) : Nat := (v >>> lo) % 2 ^ n

/-- Bit i of a number. -/
def bitOf (v i : Nat) : Bool := v.testBit i

/-- Replace bits [lo + n - 1 : lo] of a 64-bit word. -/
def putField (w : Word) (lo n : Nat) (v : Nat) : Word :=
  let m : Word := BitVec.ofNat 64 ((2 ^ n - 1) <<< lo)
  (w &&& ~~~m) ||| (BitVec.ofNat 64 (v <<< lo) &&& m)

/-- Bits [lo + n - 1 : lo] of a 64-bit word, as a number. -/
def fieldOf (w : Word) (lo n : Nat) : Nat := bitsOf w.toNat lo n

/-- The low `n` bits of a number read as a signed number. -/
def signedOf (n v : Nat) : Int :=
  let w := v % 2 ^ n
  if 2 * w < 2 ^ n then (w : Int) else (w : Int) - 2 ^ n

/-- A signed number kept to its low `n` bits. -/
def wrapInt (n : Nat) (x : Int) : Nat := (x % (2 ^ n : Int)).toNat

end Sys2Proof.Machine
end

