-- ==== Sys2Proof/Machine/State.lean ====
section
/-!
DEFINITION. The state of a DW-410 package: everything the spec gives the machine, as plain data. Files with many like parts
are sparse maps (`SMap`) whose unlisted entries read as their reset value. Where the spec states no reset value, the value is
the one that log entry 2 names.
-/

namespace Sys2Proof.Machine

/-- Why the machine stops. -/
inductive Fault where
  /-- Raised by `step` when an event names a core, cluster, die, world or context that the package does not have (R1, R329).
  Safe: the package has no such part, so nothing it does is left out. -/
  | noSuchPart
  deriving DecidableEq, Repr

/-- An instruction without a meaning. -/
inductive Refusal where
  /-- Raised by an arm of `exec` whose instruction is not modelled. Safe: the machine stops. -/
  | notModelled (mnemonic : String)
  deriving DecidableEq, Repr

/-- A trap: cause (R25), EINFO, data address, slot, and whether it is a decode cause (R21, steps 1 to 3 before execution
causes). -/
structure Trap where
  code : Nat
  info : Word := 0
  addr : Addr := 0
  slot : Nat := 7
  decode : Bool := false
  deriving DecidableEq, Repr

/-- A register of a bank that can be pending (R18): scalars by physical number, or by window number while a user-interrupt
handler holds the shadow copy (R97). -/
inductive Reg where
  | s (i : Nat)
  | sh (n : Nat)
  | a (n : Nat)
  | p (n : Nat)
  | q (n : Nat)
  | cd (n : Nat)
  deriving DecidableEq, Repr

/-- What an exposed result writes when it lands (R16). A vector write changes the bits of `mask`; a CSR write the bits of
`mask`; `frame` writes accumulator-store bytes (R164); `scratch` scratchpad bytes (R137); `cdb` descriptor bytes; `openSpec` opens a speculative region at the end of its clk (R85). -/
inductive RegWrite where
  | none
  | s (i : Nat) (v : Word)
  | sh (n : Nat) (v : Word)
  | a (n : Nat) (v : Addr)
  | p (n : Nat) (v : Pred)
  | k (n : Nat) (v mask : Carry)
  | cdb (n off : Nat) (v : List Byte)
  | v (i : Nat) (v mask : VReg)
  | csr (i : Nat) (v mask : Word)
  | frame (off : Nat) (v : List (Option Byte))
  | scratch (off : Nat) (v : List (Option Byte))
  | openSpec (recover : Word)
  deriving DecidableEq, Repr

/-- An exposed result in flight: it is written at the end of clk `due`; its bundle was issued as number `order`; FLAGS bits
and STATUS.IDZ merge at the same clk (R15, R16, R63). -/
structure Landing where
  due : Nat
  order : Nat
  write : RegWrite
  flags : BitVec 8 := 0
  idz : Bool := false
  deriving DecidableEq, Repr

/-- A transfer owed to delay bundles (R22, R73): the target (none: not taken), the delay bundles left, and the window shift
owed with it (some false an advance, some true a retreat). -/
structure Owed where
  target : Option Word
  left : Nat
  shift : Option Bool
  deriving DecidableEq, Repr

/-- Operations that join the load or store queue of a strand (R237, R266, R282, R289, R358). -/
inductive AccKind where
  | load (signed : Bool)
  | store
  | atomic (op : Nat)
  | cdld (n : Nat)
  | fill
  | spill
  | fence
  | lsmark
  | efence
  | qinit
  | enq
  | deq
  | deqt
  | refill (n : Nat)
  | pop (n : Nat)
  | release (n : Nat)
  | join
  | leave
  | gbar
  | gcount
  | spawn
  | jdec
  | lgwait (n : Nat)
  deriving DecidableEq, Repr

/-- Where an access stands: in its queue, sent to a peer, waiting at a controller, performed with its value or report still
to reach the core, failed and parked for a fenced peer (R352). -/
inductive AccState where
  | queued
  | sent
  | waiting
  | performed
  | failed
  deriving DecidableEq, Repr

/-- One access. `order` is its bundle's issue number; `data` the value stored, the element, the atomic's operand; `aux` an
atomic's compare value, a scratchpad or descriptor offset, the half frame of a fill, the fields of QINIT; `fwd` the bytes that own stores
forward to a load at a peer; `val` the value read; `arrived` a value that came while the pipeline was frozen (R99); `given` that a replay has
delivered its logged value already (R310); `again` an access that failed and is to be sent again before the parked bundle issues (R352). -/
structure Acc where
  id : Nat
  kind : AccKind
  order : Nat
  va : Addr := 0
  pa : Nat := 0
  size : Nat := 0
  ord : Nat := 0
  scope : Nat := 4
  data : Nat := 0
  aux : Nat := 0
  dest : Option Reg := none
  slot : Nat := 1
  user : Bool := false
  mmio : Bool := false
  peer : Option Nat := none
  st : AccState := .queued
  told : Bool := false
  val : Nat := 0
  fwd : List (Option Byte) := []
  ue : Bool := false
  arrived : Bool := false
  given : Bool := false
  again : Bool := false
  err : Option Trap := none
  deriving DecidableEq, Repr

/-- A queue-head latch (R272, R273): the bound block, its element size, whether the latch holds an element, whether its
refill found no translation and is held, and EINFO of that failure (R229). -/
structure Latch where
  bound : Bool := false
  va : Addr := 0
  pa : Nat := 0
  esize : Nat := 0
  full : Bool := false
  elem : Nat := 0
  held : Bool := false
  info : Word := 0
  deriving DecidableEq, Repr

/-- An open speculative region (R85, R86). -/
structure Spec where
  recover : Word
  order : Nat
  s : SMap Word
  a : SMap Addr
  p : SMap Pred
  lcnt : Word
  held : List Acc := []
  count : Nat := 0
  failed : Bool := false
  deriving DecidableEq, Repr

/-- Bytes of a peer that a copy has asked for (R348): the request's token, their address and number, and the answer. -/
structure CopyPiece where
  tok : Nat
  va : Nat
  size : Nat
  bytes : Option (List Byte) := none
  deriving DecidableEq, Repr

/-- A write event of a copy that has not come about yet (R251): its number, its parts, each a place and bytes, and the tokens of the requests
that carry it to a peer. -/
structure OutPart where
  n : Nat
  parts : List (Int × List Byte)
  toks : Option (List Nat) := none
  deriving DecidableEq, Repr

/-- Where a copy stands (R157): queued, started, its last byte written and its completion effects held back. -/
inductive CopyState where
  | queued
  | started
  | written
  deriving DecidableEq, Repr

/-- A copy command (R156): the descriptor snapshot, its register number, wait and signal (physical semaphores, 0 null), the
completion mode, the window mapping in force, the scratchpad chunks whose value R253 fixes at issue (`own`), and what it has done so far:
chunks or blocks read and the uncorrectable spans among them (`data`, `marks`; `dread`, `dmarks` of the delta stream), what it has asked of
peers (`pieces`, `asked` tokens given out), what it has still to write (`out`), and what follows then: its completion or a failure. -/
structure Copy where
  id : Nat
  cdn : Nat
  desc : CDesc
  ws : Nat := 0
  wt : Nat := 0
  ss : Nat := 0
  si : Nat := 0
  cm : Nat := 0
  vbase : Nat := 0
  vlim : Nat := 0
  ctx : Nat := 0
  user : Bool := false
  order : Nat := 0
  efence : List Nat := []
  deferred : Bool := false
  own : List (Nat × Nat) := []
  st : CopyState := .queued
  data : List (Nat × List Byte) := []
  marks : List (Nat × Nat × Nat) := []
  dread : List (Nat × List Byte) := []
  dmarks : List (Nat × Nat × Nat) := []
  pieces : List CopyPiece := []
  asked : Nat := 0
  out : List OutPart := []
  fate : Option (Option Trap) := none
  readN : Nat := 0
  wroteN : Nat := 0
  units : Nat := 0
  begun : Nat := 0
  turn : Nat := 0
  written : Nat := 0
  readB : Nat := 0
  stat : Nat := 0
  crc : Option Nat := none
  flags : BitVec 8 := 0
  err : Option Trap := none
  deriving DecidableEq, Repr

/-- The fields of an MMA as encoded (R187, R191). -/
structure MmaFields where
  td : Nat
  oa : Nat
  ob : Nat
  fmt : Nat
  acc : Nat
  ws : Nat
  wt : Nat
  ss : Nat
  deriving DecidableEq, Repr

/-- What an M-queue entry does (R183). -/
inductive MOp where
  | mma (f : MmaFields)
  | mrep (cmds : List MmaFields)
  | ofill (ob oa : Nat)
  | orelease (oa : Nat)
  | unlease
  deriving DecidableEq, Repr

/-- An M command, queued or started (R183, R186). `shapes` are the TSHAPE words of the tiles it names, read at issue; `loaded` the
bytes of OB as B was loaded; `stop` where an uncorrectable word has stopped it (R189); `filled` the chunks that an OFILL has written. -/
structure MCmd where
  id : Nat
  uid : Nat
  ctx : Nat
  op : MOp
  ws : Nat := 0
  wt : Nat := 0
  ss : Nat := 0
  semBase : Nat := 0
  shapes : List Word := []
  gamma : BitVec 32 := 0
  layA : Nat := 0
  layB : Nat := 0
  efence : List Nat := []
  order : Nat := 0
  start : Option Nat := none
  loaded : SMap Byte := []
  row : Nat := 0
  stop : Option Nat := none
  filled : List Nat := []
  auf : Nat := 0
  nanb : Bool := false
  ofc : Nat := 0
  iv : Nat := 0
  deriving DecidableEq, Repr

/-- What a blocked bundle waits for (R18, R90). -/
inductive Wait where
  | regs (rs : List Reg)
  | sem (n t : Nat)
  | clk (c : Nat)
  | turns (c : Nat)
  | walk
  | exchange
  | tiles (fs ts : List Nat)
  | vgroup (g : Nat)
  | frames (f : Nat)
  | copies
  | mqueue
  | report (id : Nat)
  | fill
  | dict
  | park
  | drain
  | journal (op : Nat)
  | far
  | accs (l : List (Nat × Nat × Nat))
  deriving DecidableEq, Repr

/-- The end of a task that RETIRE or REST carries out (R296): the cause of RETIRE.FAIL, the cause of a failure reported meanwhile, and
how far it has come: 0 latches are to be released, 1 results and accesses are awaited, 2 staged work is let go; `dep` that an uncorrectable
error fails the records it has named (R301). -/
structure Ending where
  fail : Option Nat := none
  cause : Option Nat := none
  requeue : Bool := false
  rest : Bool := false
  phase : Nat := 0
  dep : Bool := false
  deriving DecidableEq, Repr

/-- A task that has ended while accesses of it were queued (R256): its context, its number, and whether the records that it names fail
(R301). -/
structure Gone where
  ctx : Nat
  uid : Nat
  dep : Bool := false
  deriving DecidableEq, Repr

/-- A task on a strand (R290, R296, R309); `due` is the clk in which its next bundle issues in a replay, 0 before its first (R310); `logSlot` is the number of the log entry reserved at its pop (R297). -/
structure Task where
  uid : Nat
  va : Addr
  pa : Nat
  ctx : Nat
  prio : Nat
  cost : Nat
  flags : Nat
  cmask : Nat := 0
  frame : Addr := 0
  arg : Nat := 0
  vbase : Nat := 0
  vregs : Nat := 0
  semBase : Nat := 0
  sems : Nat := 0
  frames : Nat := 0
  lost : Bool := false
  trunc : Bool := false
  named : List (Nat × Addr) := []
  ending : Option Ending := none
  bundles : Nat := 0
  entries : Nat := 0
  wrote : List Nat := []
  replay : Bool := false
  replayAt : SMap Nat := []
  due : Nat := 0
  startClk : Nat := 0
  logSlot : Nat := 0
  league : Option Nat := none
  deriving DecidableEq, Repr

/-- A 64-byte piece of a window's spill or fill (R80): its address, and the bytes or the half frame to fill. -/
structure WinPiece where
  fill : Bool
  va : Addr
  data : Nat
  deriving DecidableEq, Repr

/-- The non-volatile copy of a quiet boundary (R211); the transfer still owed to delay bundles, an open region and the
pieces of a window that an ERET is to retry count as part of where the program stands (log 29). -/
structure Snapshot where
  s : SMap Word
  wbase : Nat
  a : SMap Addr
  p : SMap Pred
  pc : Word
  csr : SMap Word
  owed : Option Owed
  spec : Option Spec
  shadow : Option (SMap Word) := none
  gmem : SMap (Addr × Nat) := []
  winKept : List WinPiece := []
  deriving DecidableEq, Repr

/-- What the engine has still to accept of the window's spills and fills (R80, R81): the pieces, and the move that WSTK makes with the last
of them (some true back). -/
structure WinOp where
  pieces : List WinPiece
  move : Option Bool := none
  deriving DecidableEq, Repr

/-- A 128-byte piece of code or of a dictionary at a peer (R348): the request's token, the peer, the piece's number there, the answer or the
failure. -/
structure FarPiece where
  tok : Nat
  peer : Nat
  line : Nat
  bytes : Option (List Byte) := none
  err : Option Trap := none
  deriving DecidableEq, Repr

/-- A strand's bank (R93). `run` is where the bundles in sequence began, 0 once a trap has emptied the loop buffer; `goRun` what it becomes
when `go` is taken, if not the target; `runUi` that of an interrupted body (R84). `stall` and `waited` count the clk in which a strand that
records was ready and did not issue, and waited at a WAITS, and `since` is the clk from which it has waited for registers (R309). `qSeen` keeps the latches as every slot of the bundle with that issue
number sees them (R32). `winKept` are the pieces of a spill or fill that failed, which the ERET of their trap retries (R81).
`gone` names the ended task in a bank that holds what is left of it (R256, R300). `fenced` are the scratchpad chunks that the task has stored
to before its last EFENCE (R253); `dlenDue` that DLEN is still to be read (R290); `far` the pieces of code at peers that the next bundle, or a dictionary that is loaded, has asked for. -/
structure Bank where
  task : Option Task := none
  gone : Option Gone := none
  pc : Word := 0
  s : SMap Word := []
  wbase : Nat := 0
  shadow : Option (SMap Word) := none
  a : SMap Addr := []
  p : SMap Pred := []
  k : SMap Carry := []
  cd : SMap CDesc := []
  q : SMap Latch := []
  qSeen : Option (Nat × SMap Latch) := none
  csr : SMap Word := []
  gmem : SMap (Addr × Nat) := []
  pend : List Reg := []
  flight : List Landing := []
  owed : Option Owed := none
  go : Option Word := none
  spec : Option Spec := none
  accs : List Acc := []
  staged : List Acc := []
  deferred : List Copy := []
  copies : List Copy := []
  heldFlags : BitVec 8 := 0
  heldMx : List (Nat × Nat × Nat × Nat) := []
  old : SMap Nat := []
  fenced : List Nat := []
  far : List FarPiece := []
  uiq : List (Nat × Nat) := []
  uiReady : Bool := true
  uiOrder : Nat := 0
  mrep : Option MmaFields := none
  async : List Trap := []
  entry : Option (Trap × Word) := none
  wait : Option Wait := none
  walkErr : Option (Nat × Addr × Trap) := none
  parked : List Nat := []
  win : Option WinOp := none
  winKept : List WinPiece := []
  dict : List Bundle := []
  dictErr : Option Trap := none
  dictDue : Bool := false
  dlenDue : Bool := false
  idle : Option Word := none
  run : Word := 0
  goRun : Option Word := none
  runUi : Word := 0
  nv : Option Snapshot := none
  lastPos : Nat := 0
  resend : List Acc := []
  badS : List Nat := []
  nextId : Nat := 0
  stall : Nat := 0
  waited : Nat := 0
  since : Nat := 0
  overrun : Bool := false
  deriving DecidableEq, Repr

/-- A cached translation (R230): context, page, its log2 size, physical page, rights, whether D is set, firewall verdicts. -/
structure TlbEntry where
  ctx : Nat
  page : Nat
  log : Nat
  pa : Nat
  r : Bool
  w : Bool
  x : Bool
  u : Bool
  d : Bool
  fwR : Bool
  fwW : Bool
  peer : Option Nat
  deriving DecidableEq, Repr

/-- A group of eight vector registers (R95, R328): the task that owns it, its context, whether it is dirty, and the world tag. -/
structure VGroup where
  uid : Option Nat := none
  ctx : Nat := 0
  core : Nat := 0
  dirty : Bool := false
  world : Nat := 0
  deriving DecidableEq, Repr

/-- What takes back the bundle last issued (R99): its strand, its issue number, its bank as it stood before, the contents of shared
files that its results have replaced, and its semaphore effects: waits and signals (n, amount) and SEMSET (n, the count before). -/
structure Undo where
  uid : Nat
  order : Nat
  bank : Bank
  olds : List RegWrite := []
  waits : List (Nat × Nat) := []
  sigs : List (Nat × Nat) := []
  sets : List (Nat × Nat) := []
  deriving DecidableEq, Repr

/-- The issue state of a core (R90, R94, R99, R100); `frozenFrom` and `frozen` are the clk before the first and the last frozen clk. -/
structure Issue where
  pos : Nat := 0
  hold : Nat := 0
  lastClk : Nat := 0
  lastPos : Nat := 0
  replays : Nat := 0
  frozen : Nat := 0
  frozenFrom : Nat := 0
  yielded : Bool := false
  exch : Option (Nat × Nat) := none
  scLast : Nat := 3
  tmrBad : Nat := 0
  undo : Option Undo := none
  deriving DecidableEq, Repr

/-- A core (R2, R91, R139, R142, R162, R183, R230). `semOps` are the semaphore effects of the present clk: SEMSET (n, value),
successful waits (n, threshold), signals (n, increment, uid of the strand). `frameMoves` and `groupMoves` are the exchanges, `frameSaves` the background saves under
way: frame and context, group and uid, with the clk in which each ends (R95, R172). `doomed` are the slots of terminated contexts that
started commands still use, with the numbers of those commands (R192). `groupSave` is the background save of a group: the group, the registers
saved, the clk of the last; `lastTurn` the turn of the copy that the engine served last (R157); `portClk` the last clk in which a bundle used the vector file's ports (R95). -/
structure Core where
  issue : Issue := {}
  banks : SMap Bank := []
  vfile : SMap VReg := []
  vtag : SMap VGroup := []
  scratch : SMap Byte := []
  scratchWorld : Nat := 0
  fifo : List Byte := []
  fifoWorld : Nat := 0
  accum : SMap Byte := []
  frameOwner : SMap (Option Nat) := []
  frameDirty : List Nat := []
  sem : SMap Nat := []
  semSet : List (Nat × Nat) := []
  semWait : List (Nat × Nat) := []
  semSig : List (Nat × Nat × Nat) := []
  mq : List MCmd := []
  mrun : List MCmd := []
  tlb : List TlbEntry := []
  claims : SMap Int := []
  lastCtx : Option Nat := none
  dected : Bool := false
  chunkMode : SMap Bool := []
  bad : List ErrLoc := []
  frameMoves : List (Nat × Nat × Nat) := []
  frameSaves : List (Nat × Nat) := []
  groupMoves : List (Nat × Nat × Nat) := []
  doomed : List (List Nat × List Nat) := []
  groupSave : Option (Nat × Nat × Nat) := none
  portClk : Nat := 0
  lastTurn : Nat := 0
  nextId : Nat := 0
  deriving DecidableEq, Repr

/-- An operand slot (R177): bytes 0-32,767 payload and 32,768-36,863 sidecar; the clk from which the claim is seen, and the clk in
which zeroing ends (R179). -/
structure Slot where
  bytes : SMap Byte := []
  layout : Nat := 0
  claim : Option (Nat × Nat) := none
  tag : Option Nat := none
  since : Nat := 0
  zeroing : Option Nat := none
  deriving DecidableEq, Repr

/-- The array lease (R184, R185): holder, requests with the signals to raise at their grant (core, semaphore, uid) and the contexts
that they are for (core, context; R192), start of
the quantum, commands of it, the clk the last started command completes. -/
structure Lease where
  holder : Option Nat := none
  reqs : List Nat := []
  sigs : List (Nat × Nat × Nat) := []
  reqCtx : List (Nat × Nat) := []
  start : Nat := 0
  cmds : Nat := 0
  ended : Bool := false
  busyTo : Nat := 0
  lastStart : Nat := 0
  lastRows : Nat := 0
  deriving DecidableEq, Repr

/-- A record of a transaction (R203): home offset, its 64 bytes, the Quire unit it takes, whether it is written, whether it
failed. -/
structure JRec where
  home : Nat
  data : List Byte
  unit : Nat := 0
  written : Bool := false
  failed : Bool := false
  applied : Bool := false
  deriving DecidableEq, Repr

/-- The open or committed transaction of a slab (R200): its commit unit once it is placed, the strand (core, uid) whose JCOMMIT
placed it, and whether a JABORT waits for the attempt in progress. -/
structure Txn where
  owner : Nat
  num : Nat
  recs : List JRec := []
  first : Nat := 2
  commitUnit : Option Nat := none
  who : Nat × Nat := (0, 0)
  committed : Bool := false
  aborting : Bool := false
  deriving DecidableEq, Repr

/-- A piece of work of the journal engine (R218): record n of the open transaction, its commit unit, the apply, a JVERIFY of a strand,
the rewrite of a corrected unit or the zero of a sweep (R199, R307). -/
inductive JWork where
  | record (n : Nat)
  | commit
  | apply
  | verify (core uid ask fn off len : Nat)
  | rewrite (off : Nat) (zero : Bool)
  deriving DecidableEq, Repr

/-- The attempt in progress (R201): pulse level, the copies of a remap still to write, the end clk. -/
structure Attempt where
  level : Nat := 0
  copies : Nat := 0
  spare : Option Nat := none
  due : Nat := 0
  deriving DecidableEq, Repr

/-- An MRAM slab (R198-R207, R219). Rows 0-1,048,575 stand in the offset space; spare row n is row 1,048,576 + n. `remap` holds 1 +
the spare row of a row; `tags` the tags of the Quire units: 1 + the transaction's number, the home offset (2^28 for a commit unit), the
CRC-32C of unit and tag; `keep` and `keepTag` the data and the tag of the unit whose rewrite is in progress; `asked` the strands whose JVERIFY is placed, with the
number of its piece, `results` its result, `commits` the strands whose JCOMMIT has reached its commit point. -/
structure Slab where
  gen : BitVec 32 := 0
  ro : Bool := false
  wear : SMap Nat := []
  remap : SMap Nat := []
  spUsed : Nat := 0
  qnext : Nat := 2
  lastwake : Nat := 0
  tags : SMap (Nat × Nat × Nat) := []
  keep : List Byte := []
  keepTag : Nat × Nat × Nat := (0, 0, 0)
  txn : Option Txn := none
  work : List JWork := []
  att : Option Attempt := none
  results : List (Nat × Nat × Word) := []
  asked : List (Nat × Nat × Nat) := []
  asks : Nat := 0
  commits : List (Nat × Nat) := []
  deriving DecidableEq, Repr

/-- The power state of a cluster (R208). -/
inductive Power where
  | off
  | ramp (due : Nat)
  | clear (due : Nat)
  | recover
  | on
  deriving DecidableEq, Repr

/-- A cluster (R177, R184, R198, R206, R208-R216). `issueClk`: the issue clk of each world's tasks, one entry for each period of 10 µs of the
last 1 ms, newest first (R343). -/
structure Cluster where
  slots : SMap Slot := []
  lease : Lease := {}
  slab : Slab := {}
  power : Power := .off
  rest : Bool := false
  wakeWaits : Bool := false
  tallow : Word := 0
  tallowl : Word := 0
  hot : Bool := false
  refresh : SMap Nat := []
  refAt : Nat := 0
  refBank : Nat := 0
  trace : SMap Word := []
  traceHead : Nat := 0
  traceWraps : Nat := 0
  traceSel : Nat := 0
  traceOld : List (Nat × Nat × Word) := []
  bad : List ErrLoc := []
  jfi : Word := 0
  issueClk : List (SMap Nat) := []
  deriving DecidableEq, Repr

/-- A shared-cache line (R222): OWNER, world tag, dirty, way, time of last use. -/
structure Line where
  owner : Nat
  world : Nat
  dirty : Bool
  way : Nat
  used : Nat
  deriving DecidableEq, Repr

/-- An access that waits for a walk (R230): who asked, for what, and in which slot; `soft` where a region defers its failure (R86). -/
structure WalkWait where
  core : Nat
  uid : Nat
  va : Addr
  kind : Nat
  size : Nat
  user : Bool
  soft : Bool
  slot : Nat
  deriving DecidableEq, Repr

/-- A walk of a die (R230): the 4 KiB page that was missed, and the accesses that share it, in the order of their first attempts. -/
structure Walk where
  id : Nat
  ctx : Nat
  page : Nat
  waits : List WalkWait
  deriving DecidableEq, Repr

/-- An entry of a die's cache of tables (R230): the table that the entry of `level` leads to, for the addresses whose bits are `key`. -/
structure TableEntry where
  ctx : Nat
  level : Nat
  key : Nat
  next : Nat
  deriving DecidableEq, Repr

/-- An outstanding fault-queue entry (R233): the parked strand, or one failed access of it (R352) or a held latch refill (R273), and its resolution. -/
structure FaultEntry where
  seq : Nat
  va : Addr
  ctx : Nat
  kind : Nat
  core : Nat
  uid : Nat
  strand : Nat
  world : Nat
  evict : Bool
  malformed : Bool
  groups : List Nat
  slot : Nat
  accId : Option Nat
  latch : Option Nat := none
  action : Option Nat := none
  deriving DecidableEq, Repr

/-- A record in a continuation queue (R285, R286). -/
structure Rec where
  pa : Nat
  va : Addr
  ctx : Nat
  ready : Bool
  prio : Nat
  cost : Nat
  cmask : Nat
  flags : Nat
  vregs : Nat
  tfrm : Nat
  sems : Nat
  deriving DecidableEq, Repr

/-- A completion-log entry held for want of a slot (R297). -/
structure LogEntry where
  ctx : Nat
  va : Addr
  state : Nat
  cause : Nat
  flags : Nat
  deriving DecidableEq, Repr

/-- A range sweep (R307): who asked for it, its mode (0 a range, 1 SECDED, 2 DEC-TED), and the exceptions found so far
(address, kind). -/
structure Sweep where
  num : Nat
  core : Nat
  uid : Nat
  sem : Nat
  base : Nat
  len : Nat
  startClk : Nat
  mode : Nat := 0
  exc : List (Nat × Nat) := []
  deriving DecidableEq, Repr

/-- An element of the reservation table (R275): its block, the latch that holds it. -/
structure Reserved where
  block : Nat
  va : Addr
  ctx : Nat
  core : Nat
  uid : Nat
  latch : Nat
  elem : Nat
  user : Bool
  deriving DecidableEq, Repr

/-- An operation that waits at a queue or group controller, in the order in which it began to wait (R271, R282). -/
structure Waiter where
  block : Nat
  core : Nat
  uid : Nat
  acc : Nat
  deriving DecidableEq, Repr

/-- Release from reset (R324). -/
inductive DieState where
  | held
  | released
  | failed
  deriving DecidableEq, Repr

/-- What a request to a peer serves (R348): an access of a strand, a piece that a copy reads or writes, a piece of code. -/
inductive PeerUse where
  | access (uid id : Nat)
  | copyRead (id tok : Nat)
  | copyWrite (id tok : Nat)
  | code (uid tok : Nat)
  deriving DecidableEq, Repr

/-- A request in the holding queue of a die (R350): its peer, its core, what it serves, the request. -/
structure Held where
  peer : Nat
  core : Nat
  use : PeerUse
  req : PeerReq
  deriving DecidableEq, Repr

/-- A compute die (R222, R230, R233, R286, R288, R297, R300, R304-R307, R330, R350). -/
structure Die where
  state : DieState := .held
  cache : SMap Line := []
  occ : SMap Nat := []
  lim : SMap Nat := []
  tlb : List TlbEntry := []
  tables : List TableEntry := []
  walks : List Walk := []
  faults : List FaultEntry := []
  faultWait : List FaultEntry := []
  faultNext : BitVec 32 := 0
  badres : Bool := false
  sched : Word := 0
  schedSet : Nat × Nat := (0, 0)
  schedAddr : Addr := 0
  recs : List Rec := []
  heldLog : List LogEntry := []
  fw : SMap (Word × Word) := []
  retired : List Nat := []
  corrCount : SMap Nat := []
  quarantine : List (Nat × Nat) := []
  wayCorr : SMap Nat := []
  sweeps : List Sweep := []
  sweepNext : BitVec 32 := 0
  rtab : List Reserved := []
  waiters : List Waiter := []
  rollbacks : SMap Nat := []
  dected : Bool := false
  holding : List Held := []
  errors : Nat := 0
  deriving DecidableEq, Repr

/-- A context (R226, R290, R297, R329). `saved` lists what its save area holds: (core, frame) and (core, 256 + group);
`savedBad` the error marks that went with it (R101). -/
structure Ctx where
  world : Nat := 0
  loaded : Bool := false
  dead : Bool := false
  desc : Nat := 0
  root : Nat := 0
  save : Addr := 0
  mode : Nat := 0
  tiles : Nat := 0
  share : Nat := 0
  wstk : Word := 0
  margin : Nat := 0
  loglen : Nat := 16
  logbase : Addr := 0
  logwr : Nat := 0
  logrd : Nat := 0
  genctr : Nat := 0
  replay : Addr := 0
  reserved : Nat := 0
  popped : Nat := 0
  saved : List (Nat × Nat) := []
  savedBad : List ErrLoc := []
  deriving DecidableEq, Repr

/-- TDISP states (R327). -/
inductive Tdisp where
  | unlocked
  | locked
  | run
  | error
  deriving DecidableEq, Repr

/-- A world and its function's registers (R327, R336, R341, R344). -/
structure World where
  tdisp : Tdisp := .unlocked
  mbarg : SMap Word := []
  mbBusy : Bool := false
  mbResult : Nat := 0
  notifyCtx : Nat := 0
  notifyH : Nat := 0
  nbad : Bool := false
  peerbad : Bool := false
  wevent : Nat := 0
  msix : Nat := 0
  shadow : BitVec 32 := 0
  armed : Bool := false
  floor : Nat := 0
  efloor : Nat := 0
  block8 : List Byte := []
  spdm : Nat := 0
  resp : List Byte := []
  deriving DecidableEq, Repr

/-- What leaves the package. -/
inductive Msg where
  | request (peer id : Nat) (req : PeerReq)
  | answer (peer : Nat) (ok : Bool) (data : Nat)
  | unsupported (peer : Nat)
  | start (n stamp : Nat)
  | arrive (n gen : Nat)
  | abort (n : Nat)
  | host (w : Nat) (ok : Bool) (data : Nat)
  deriving DecidableEq, Repr

/-- A request outstanding to a peer (R350, R351): id, die, core, what it serves, the fabric time in ns at which it was sent. -/
structure PeerOut where
  id : Nat
  die : Nat
  core : Nat
  use : PeerUse
  ns : Nat := 0
  deriving DecidableEq, Repr

/-- The entry of a peer (R346). -/
structure Peer where
  world : Nat := 0
  ports : Nat := 0
  fenced : Bool := false
  budget : Nat := 64
  out : List PeerOut := []
  nextId : Nat := 0
  deriving DecidableEq, Repr

/-- A league on this chip (R356-R359); `state` is LGSTAT.STATE, `members` the records (physical address, address, context), `held` the
ARRIVE messages (chip, generation), `heard` the chips that a message has come from. -/
structure League where
  state : Nat := 0
  world : Nat := 0
  n : Nat := 0
  l : Nat := 0
  p : Nat := 0
  t : Nat := 0
  grace : Nat := 0
  members : List (Nat × Addr × Nat) := []
  gen : Nat := 0
  sent : Bool := false
  held : List (Nat × Nat) := []
  heard : List Nat := []
  judged : Bool := false
  delay : Nat := 0
  aborts : Nat := 0
  late : Bool := false
  deriving DecidableEq, Repr

/-- A teardown under way (R333): the world, the receipt's reason, the host's nonce, CYCLE at its start, its ranges (die, base, length), the sweeps (die,
number) that have not ended, and the exceptions found so far (address, kind). -/
structure Teardown where
  world : Nat
  reason : Nat
  nonce : List Byte
  start : Nat
  ranges : List (Nat × Nat × Nat) := []
  waits : List (Nat × Nat) := []
  exc : List (Nat × Nat) := []
  deriving DecidableEq, Repr

/-- A PAGEOUT whose translations are dropped, and that waits for the accesses made with them (R231, R335): the commanding world, the
context, the page, its place, the host address, GEN, the rights, the accesses. -/
structure PageOut where
  world : Nat
  ctx : Nat
  base : Addr
  log : Nat
  pa : Nat
  host : Nat
  gen : Nat
  rights : Nat
  waits : List (Nat × Nat × Nat)
  deriving DecidableEq, Repr

/-- Flohild and the package; `io` the two I/O dies; the ramp allowance in mW (R214, R324-R326, R333, R334, R341-R344, R356). -/
structure Package where
  bootNext : Nat := 0
  bootLog : List Nat := []
  io : List DieState := [.held, .held]
  aliasPub : List Byte := []
  aliasSeed : List Byte := []
  receipts : List (List Byte) := []
  receiptNo : Nat := 0
  teardowns : List Teardown := []
  pageouts : List PageOut := []
  pcap : Nat := 12000
  ecap : Nat := 12000
  belowFloor : Bool := false
  scaled : Bool := false
  ramp : Nat := 1000
  energy : Nat := 0
  wrap : Bool := false
  freqReq : Nat := 32
  hostFreq : Nat := 32
  nextUs : Nat := 1400
  nextTick : Nat := 14000
  freq : Nat := 32
  thermal : Nat := 32
  cap : Nat := 32
  allowance : Nat := 200000
  stopped : List Nat := []
  localId : Nat := 0
  grace : Nat := 50
  msgs : List Msg := []
  deriving DecidableEq, Repr

/-- Which strand the acting slot instruction belongs to: core, position (4 the shadow bank), slot (R25), the bundle's
address, the address of the next bundle in sequence, the CRIT bits that take effect (R100), and those of them whose slot acts. -/
structure Cur where
  core : Nat := 0
  pos : Nat := 0
  slot : Nat := 0
  pc : Word := 0
  next : Word := 0
  crit : BitVec 4 := 0
  live : BitVec 4 := 0
  deriving DecidableEq, Repr

/-- How the acting slot instruction came out. -/
inductive Mark where
  | done
  | trapped (t : Trap)
  | blocked (w : Wait)
  deriving DecidableEq, Repr

/-- A bundle that a core has fetched and is about to issue (R31, R44): the header's fields, with the CRIT bits that take effect
(R33), the slots that hold an instruction other than a no-op, in order, and the first slot that no decode admits, with its opcode. -/
structure Fetch where
  pop : BitVec 16
  crit : BitVec 4
  gap : BitVec 4
  slots : List (Nat × Instr)
  bad : Option (Nat × Nat) := none
  deriving DecidableEq, Repr

/-- The state of the package. `clk` counts from the last package reset, `age` from the first; `age`, `cur`, `mark`, `ev`, `agenda`, `fetched`, `fresh` and `order` are the model's own
(log 1). -/
structure State where
  clk : Nat := 0
  age : Nat := 0
  cur : Cur := {}
  mark : Mark := .done
  ev : EvArgs := {}
  agenda : List (Instr × EvArgs) := []
  fetched : Option Fetch := none
  fresh : Nat := 0
  order : Nat := 0
  uids : Nat := 0
  mem : List Host.Cell := []
  poison : List Nat := []
  ueMem : List Nat := []
  cores : SMap Core := []
  clusters : SMap Cluster := []
  dies : SMap Die := []
  ctxs : SMap Ctx := []
  worlds : SMap World := []
  peers : SMap Peer := []
  leagues : SMap League := []
  pkg : Package := {}
  deriving DecidableEq, Repr

/-- The package right after power-on (R324): every die held, no register written, memory with nothing listed, and PACKAGE_RESET the next
event; every value that the spec does not state is the one that log entry 2 names. -/
def State.reset : State := { agenda := [(.packageReset, ({} : EvArgs))] }

end Sys2Proof.Machine
end

