-- ==== Sys2Proof/Machine/Base.lean ====
section
/-!
DEFINITION. Reading and writing the parts of the state: cores, banks, registers, CSRs, exposed results, semaphores,
scratchpad, physical memory.
-/

namespace Sys2Proof.Machine

/-! ### Reset values of the parts -/

/-- What a control and status register holds at reset (R14, R189): zero but for MGAMMA. -/
def csrReset (i : Nat) : Word := if i = 0x038 then 0x3F800000 else 0

/-- The identity pairs (1.0, +0.0) of a carry (R171). -/
def carryReset : Nat → Carry := fun _ =>
  BitVec.ofNat 4096 (0x3F800000 * ((2 ^ 4096 - 1) / (2 ^ 64 - 1)))

/-- Entry 0 of each die's firewall covers the die's local memory for world 0 with R and W (R330). -/
def fwReset (i : Nat) : Word × Word := if i = 0 then (3, 0x1FFFFFFF000) else (0, 0)

/-- Every soft limit is 0x8_0000 lines at reset (R225). -/
def limReset : Nat → Nat := fun _ => 0x80000

/-! ### Parts of the package -/

/-- Core `c` (R91). -/
def State.core (s : State) (c : Nat) : Core := mapGet (fun _ => ({} : Core)) s.cores c
def State.setCore (s : State) (c : Nat) (x : Core) : State :=
  { s with cores := mapSet (fun _ => ({} : Core)) s.cores c x }
def State.modCore (s : State) (c : Nat) (f : Core → Core) : State := s.setCore c (f (s.core c))

/-- The bank at position `p` of a core; 4 is the shadow bank (R93). -/
def Core.bank (x : Core) (p : Nat) : Bank := mapGet (fun _ => ({} : Bank)) x.banks p
def Core.setBank (x : Core) (p : Nat) (b : Bank) : Core :=
  { x with banks := mapSet (fun _ => ({} : Bank)) x.banks p b }

def State.bank (s : State) (c p : Nat) : Bank := (s.core c).bank p
def State.setBank (s : State) (c p : Nat) (b : Bank) : State := s.setCore c ((s.core c).setBank p b)
def State.modBank (s : State) (c p : Nat) (f : Bank → Bank) : State := s.setBank c p (f (s.bank c p))

/-- The bank of the acting strand. -/
def State.bk (s : State) : Bank := s.bank s.cur.core s.cur.pos
def State.setBk (s : State) (b : Bank) : State := s.setBank s.cur.core s.cur.pos b
def State.modBk (s : State) (f : Bank → Bank) : State := s.setBk (f s.bk)
/-- The core of the acting strand. -/
def State.cr (s : State) : Core := s.core s.cur.core
def State.setCr (s : State) (x : Core) : State := s.setCore s.cur.core x
def State.modCr (s : State) (f : Core → Core) : State := s.setCr (f s.cr)

/-- Cluster 16*die + cluster of a core, and its die (R91). -/
def clusterOf (c : Nat) : Nat := c / 4
def dieOf (c : Nat) : Nat := c / 64

def State.cluster (s : State) (k : Nat) : Cluster := mapGet (fun _ => ({} : Cluster)) s.clusters k
def State.setCluster (s : State) (k : Nat) (x : Cluster) : State :=
  { s with clusters := mapSet (fun _ => ({} : Cluster)) s.clusters k x }
def State.modCluster (s : State) (k : Nat) (f : Cluster → Cluster) : State := s.setCluster k (f (s.cluster k))

def State.die (s : State) (d : Nat) : Die := mapGet (fun _ => ({} : Die)) s.dies d
def State.setDie (s : State) (d : Nat) (x : Die) : State :=
  { s with dies := mapSet (fun _ => ({} : Die)) s.dies d x }
def State.modDie (s : State) (d : Nat) (f : Die → Die) : State := s.setDie d (f (s.die d))

def State.ctx (s : State) (c : Nat) : Ctx := mapGet (fun _ => ({} : Ctx)) s.ctxs c
def State.setCtx (s : State) (c : Nat) (x : Ctx) : State :=
  { s with ctxs := mapSet (fun _ => ({} : Ctx)) s.ctxs c x }
def State.modCtx (s : State) (c : Nat) (f : Ctx → Ctx) : State := s.setCtx c (f (s.ctx c))

def State.world (s : State) (w : Nat) : World := mapGet (fun _ => ({} : World)) s.worlds w
def State.setWorld (s : State) (w : Nat) (x : World) : State :=
  { s with worlds := mapSet (fun _ => ({} : World)) s.worlds w x }
def State.modWorld (s : State) (w : Nat) (f : World → World) : State := s.setWorld w (f (s.world w))

def State.peer (s : State) (x : Nat) : Peer := mapGet (fun _ => ({} : Peer)) s.peers x
def State.setPeer (s : State) (x : Nat) (p : Peer) : State :=
  { s with peers := mapSet (fun _ => ({} : Peer)) s.peers x p }
def State.modPeer (s : State) (x : Nat) (f : Peer → Peer) : State := s.setPeer x (f (s.peer x))

def State.league (s : State) (n : Nat) : League := mapGet (fun _ => ({} : League)) s.leagues n
def State.setLeague (s : State) (n : Nat) (x : League) : State :=
  { s with leagues := mapSet (fun _ => ({} : League)) s.leagues n x }
def State.modLeague (s : State) (n : Nat) (f : League → League) : State := s.setLeague n (f (s.league n))

/-- The context of a bank's task, or of the ended task whose accesses it holds (R256); 0 where it holds none. -/
def Bank.ctx (b : Bank) : Nat := match b.task with | some t => t.ctx | none => (b.gone.map (·.ctx)).getD 0
def Bank.uid (b : Bank) : Nat := match b.task with | some t => t.uid | none => (b.gone.map (·.uid)).getD 0
/-- The world of a context is the one it is assigned to (R327). -/
def State.worldOf (s : State) (ctx : Nat) : Nat := (s.ctx ctx).world

/-- The position of the bank that holds task `uid` on a core, the shadow bank included. -/
def Core.posOf (x : Core) (uid : Nat) : Option Nat :=
  [0, 1, 2, 3, 4].find? (fun p => match (x.bank p).task with | some t => t.uid == uid | none => false)

/-- The bank that holds the accesses of task `uid`: where the task stands, or what is left of it (R256). -/
def Core.holderOf (x : Core) (uid : Nat) : Option Nat :=
  match x.posOf uid with
  | some p => some p
  | none => (x.banks.find? (fun e => e.2.gone.any (fun g => g.uid == uid))).map (·.1)

/-- Change the bank of task `uid` on core `c`, wherever it stands (R20). -/
def State.modUid (s : State) (c uid : Nat) (f : Bank → Bank) : State :=
  match (s.core c).holderOf uid with
  | some p => s.modBank c p f
  | none => s

/-- A free choice, and the next one (log 1). -/
def State.choice (s : State) : Bool := Config.chooses s.fresh
def State.drawn (s : State) : State := { s with fresh := s.fresh + 1 }
/-- A free number of `n` words. -/
def State.freeNat (s : State) (n : Nat) : Nat := (List.range n).foldl (fun v i => v + (Config.freeWord (s.fresh + i)).toNat * 2 ^ (64 * i)) 0

/-! ### Control and status registers -/

def Bank.csrAt (b : Bank) (i : Nat) : Word := mapGet csrReset b.csr i
def Bank.putCsr (b : Bank) (i : Nat) (v : Word) : Bank := { b with csr := mapSet csrReset b.csr i v }
/-- Bit `n` of STATUS (R14). -/
def Bank.status (b : Bank) (n : Nat) : Bool := (b.csrAt 0).getLsbD n
def Bank.putStatus (b : Bank) (n : Nat) (v : Bool) : Bank := b.putCsr 0 (putField (b.csrAt 0) n 1 v.toNat)
/-- STATUS.PRIV, EXL, UIE, INUI, GRD, SPECA, REC (R14). -/
def Bank.priv (b : Bank) : Bool := b.status 14
def Bank.exl (b : Bank) : Bool := b.status 13
def Bank.inui (b : Bank) : Bool := b.status 11
def Bank.guarded (b : Bank) : Bool := b.status 10
def Bank.inSpec (b : Bank) : Bool := b.status 8

/-- Bits that a CSRW changes: in either mode (RW and ST fields), and in supervisor mode only (SW fields); none where no table
assigns the index (R14, R27, R47, R79, R82, R91, R96, R141, R157, R189, R193, R206, R213, R216, R281, R291, R294, R298,
R355, R356). -/
def csrMasks (i : Nat) : Option (Word × Word) :=
  match i with
  | 0x000 => some (0x1003, 0xE000)
  | 0x001 => some (0, 0x7FFF)
  | 0x002 | 0x003 | 0x004 | 0x006 | 0x007 => some (0, 0xFFFFFFFFFFFFFFFF)
  | 0x005 | 0x00B => some (0, 0xFFFF)
  | 0x008 => some (0xB, 0)
  | 0x009 => some (0xFF, 0)
  | 0x00A | 0x01A => some (0xFFFFFFFFFFFFFFFF, 0)
  | 0x010 => some (0, 0x7F8)
  | 0x011 => some (0, 0xFFF)
  | 0x012 => some (0, 0xFF)
  | 0x013 => some (0, 0x1FF)
  | 0x014 | 0x02A => some (0, 0xFFFFFFFF)
  | 0x015 => some (0, 0xFFFFFFFFFFFFFFF0)
  | 0x016 => some (0, 0x1FFF)
  | 0x018 => some (0, 0xFFFFFFFFFFFFFF00)
  | 0x020 | 0x021 => some (0xFFFFFFFFFFFFFFFE, 0)
  | 0x022 => some (0x80000000, 0)
  | 0x038 => some (0xFFFFFFFF, 0)
  | 0x039 => some (0xFF, 0)
  | 0x062 => some (0x01FF000000000000, 0)
  | 0x070 => some (0, 3)
  | 0x120 => some (0, 0x1F3F0FFFFFC0)
  | 0x130 => some (0, 0x3FF)
  | 0x019 | 0x028 | 0x029 | 0x032 | 0x050 | 0x051 | 0x052 | 0x058 | 0x059 | 0x060 | 0x061 | 0x063 | 0x080 | 0x081 | 0x082
  | 0x083 | 0x090 => some (0, 0)
  | _ => if 0x040 ≤ i ∧ i ≤ 0x04F then some (0, 0) else none

/-- The value a CSR takes when `v` is written to it whole: the limits that store less (R47, R91, R356). What counts as a larger value is a DESIGN
CHOICE (log 65): for VLIM and SEMLIM, whose other bits are ignored, the field's own 12 or 9 bits, and for DLEN the whole 64-bit value, so a
write of 0x2005 stores 4,096. -/
def csrClamp (i : Nat) (v : Word) : Word :=
  match i with
  | 0x011 => if (v &&& 0xFFF).toNat > 2048 then 2048 else v
  | 0x013 => if (v &&& 0x1FF).toNat > 256 then 256 else v
  | 0x016 => if v.toNat > 4096 then 4096 else v
  | 0x130 => if v.toNat > 1000 then 1000 else v
  | _ => v

/-- SCOUNT and DCOUNT of GUARD (R298). -/
def Bank.guardWord (b : Bank) : Word :=
  BitVec.ofNat 64 ((if b.guarded then b.staged.length else 0) + b.deferred.length * 65536)

/-- The value a CSRR reads at issue (R26): the registers that are computed, those of the cluster and the package, and the
stored ones. -/
def State.csrRead (s : State) (i : Nat) : Word :=
  let b := s.bk
  let k := s.cluster (clusterOf s.cur.core)
  match i with
  | 0x022 => putField (b.csrAt 0x022) 24 5 b.uiq.length
  | 0x032 => BitVec.ofNat 64 (s.cur.core * 4 + s.cur.pos % 4)
  | 0x050 => BitVec.ofNat 64 s.clk
  | 0x051 => BitVec.ofNat 64 s.clk
  | 0x052 => Config.fabricNs s.age
  | 0x060 => k.tallow
  | 0x061 => k.tallowl
  | 0x062 => BitVec.ofNat 64 (k.traceHead + k.traceWraps * 2 ^ 16 + k.traceSel * 2 ^ 48)
  | 0x063 => ((k.traceOld.find? (fun e => e.1 == s.clk && e.2.1 == k.traceSel)).map (·.2.2)).getD (mapGet (fun _ => 0) k.trace k.traceSel)
  | 0x080 | 0x081 | 0x082 | 0x083 =>
    let g := mapGet (fun _ => ((0 : Addr), 0)) b.gmem (i - 0x080)
    if g.2 = 0 then 0 else (g.1.setWidth 64 &&& 0xFFFFFFFFFFFFFFC0) ||| 1
  | 0x090 => b.guardWord
  | 0x120 => k.jfi
  | 0x130 => BitVec.ofNat 64 s.pkg.grace
  | _ => b.csrAt i

/-! ### Registers of a strand -/

/-- The physical number of scalar register `n` (R11, R76): s1-s15 are global, s16-s63 lie in the ring of fifteen frames of 16,
from frame `wbase` on. -/
def physS (wbase n : Nat) : Nat := if n < 16 then n else 16 + (16 * wbase + (n - 16)) % 240

/-- The register that scalar number `n` names now. -/
def Bank.regS (b : Bank) (n : Nat) : Reg :=
  if b.shadow.isSome && 48 ≤ n then .sh n else .s (physS b.wbase n)

/-- Scalar register `n`; s0 reads zero (R11). -/
def Bank.sget (b : Bank) (n : Nat) : Word :=
  if n = 0 then 0
  else match b.shadow with
    | some m => if 48 ≤ n then mapGet (fun _ => 0) m n else mapGet (fun _ => 0) b.s (physS b.wbase n)
    | none => mapGet (fun _ => 0) b.s (physS b.wbase n)
def Bank.aget (b : Bank) (n : Nat) : Addr := mapGet (fun _ => 0) b.a n
/-- Predicate `n`; p0 reads all ones (R11). -/
def Bank.pget (b : Bank) (n : Nat) : Pred := if n = 0 then BitVec.allOnes 256 else mapGet (fun _ => 0) b.p n
def Bank.kget (b : Bank) (n : Nat) : Carry := mapGet carryReset b.k n
def Bank.cdget (b : Bank) (n : Nat) : CDesc := mapGet (fun _ => 0) b.cd n
def Bank.qget (b : Bank) (n : Nat) : Latch := mapGet (fun _ => ({} : Latch)) b.q n
def Bank.qput (b : Bank) (n : Nat) (l : Latch) : Bank := { b with q := mapSet (fun _ => ({} : Latch)) b.q n l }

/-- The registers of the acting strand. -/
def State.sr (s : State) (n : BitVec 6) : Word := s.bk.sget n.toNat
def State.ar (s : State) (n : BitVec 4) : Addr := s.bk.aget n.toNat
def State.pr (s : State) (n : BitVec 4) : Pred := s.bk.pget n.toNat

/-- The guard of an S instruction, and of a V form that tests bit 0 (R12, R42, R170). -/
def State.guard (s : State) (g : Guard) : Bool := (s.pr g.pg).getLsbD 0 != g.pn

/-- The 256 guard bits of a V instruction (R12, R124). -/
def State.guardBits (s : State) (g : Guard) : Pred := if g.pn then ~~~(s.pr g.pg) else s.pr g.pg

/-! ### Exposed results -/

/-- Whether the acting slot is triple-issued (R100): CRIT bits 3 to 0 stand for S0, S1, V0, V1. -/
def State.tripled (s : State) : Bool := decide (s.cur.slot < 4) && s.cur.crit.getLsbD (3 - s.cur.slot)

/-- Land of R6 and R16: the write becomes visible `n` clk after the bundle, 2 clk later under triple issue (R100). -/
def State.land (s : State) (w : RegWrite) (n : Nat) (flags : BitVec 8 := 0) (idz : Bool := false) : State :=
  s.modBk fun b => { b with flight := b.flight ++
    [⟨s.clk + n - 1 + (if s.tripled then 2 else 0), s.order, w, flags, idz⟩] }

/-- The write of a value to scalar `d`; a write to s0 is discarded (R11). -/
def Bank.writeS (b : Bank) (d : Nat) (v : Word) : RegWrite :=
  if d = 0 then .none
  else match b.regS d with
    | .sh n => .sh n v
    | _ => .s (physS b.wbase d) v

def State.landS (s : State) (d : BitVec 6) (v : Word) (n : Nat) (idz : Bool := false) : State :=
  s.land (s.bk.writeS d.toNat v) n 0 idz
def State.landA (s : State) (d : BitVec 4) (v : Addr) : State := s.land (.a d.toNat v) 1
/-- A write to p0 is discarded (R11). -/
def State.landP (s : State) (d : BitVec 4) (v : Pred) (n : Nat) : State :=
  s.land (if d = 0 then .none else .p d.toNat v) n
def State.landCsr (s : State) (i : Nat) (v mask : Word) : State := s.land (.csr i v mask) 1

/-! ### Semaphores -/

/-- The physical semaphore of window number `n`; 0 is null (R92). -/
def Bank.semPhys (b : Bank) (n : Nat) : Nat := if n = 0 then 0 else fieldOf (b.csrAt 0x012) 0 8 + n
/-- A semaphore reference is null or lies in the window (R92). -/
def Bank.semOk (b : Bank) (n : Nat) : Bool :=
  n == 0 || (decide (n < fieldOf (b.csrAt 0x013) 0 9) && decide (fieldOf (b.csrAt 0x012) 0 8 + n ≤ 255))

/-- The count at the start of the clk (R142); a null semaphore reads 0. -/
def Core.semCount (x : Core) (n : Nat) : Nat := if n = 0 then 0 else mapGet (fun _ => 0) x.sem n
/-- The start count less the thresholds of the waits that have already succeeded this clk (R142). -/
def Core.semLeft (x : Core) (n : Nat) : Nat :=
  x.semCount n - ((x.semWait.filter (fun e => e.1 == n)).map (·.2)).sum
/-- A wait succeeds when the count is at least its threshold; a null semaphore never blocks (R142). -/
def Core.semReady (x : Core) (n t : Nat) : Bool := n == 0 || decide (t ≤ x.semLeft n)
def Core.takeSem (x : Core) (n t : Nat) : Core := if n = 0 then x else { x with semWait := x.semWait ++ [(n, t)] }
def Core.signal (x : Core) (n i uid : Nat) : Core :=
  if n = 0 then x else { x with semSig := x.semSig ++ [(n, i, uid)] }

/-- The count of semaphore `n` at the end of the clk, before it is clamped (R142). -/
def Core.semNext (x : Core) (n : Nat) : Nat :=
  (match x.semSet.find? (fun e => e.1 == n) with
    | some e => e.2
    | none => x.semLeft n) + ((x.semSig.filter (fun e => e.1 == n)).map (fun e => e.2.1)).sum

/-- SEMAPHORE_UPDATE (R142): at the end of the clk every touched count changes, and a clamped signal sets SEMSAT in the strand
that issued it. -/
def Core.semUpdate (x : Core) : Core :=
  let touched := (x.semSet.map (·.1) ++ x.semWait.map (·.1) ++ x.semSig.map (·.1)).eraseDups
  let sem' := touched.foldl (fun m n => mapSet (fun _ => 0) m n (min (x.semNext n) 0xFFFF)) x.sem
  let sat := (x.semSig.filter (fun e => decide (0xFFFF < x.semNext e.1))).map (fun e => e.2.2)
  let banks' := x.banks.map (fun e =>
    (e.1, match e.2.task with
      | some t => if sat.contains t.uid then e.2.putStatus 1 true else e.2
      | none => e.2))
  { x with sem := sem', banks := banks', semSet := [], semWait := [], semSig := [] }

/-! ### Scratchpad and frame bytes -/

/-- `n` bytes of a core's scratchpad from offset `x`, as held at the start of the clk (R137). -/
def Core.scratchBytes (x : Core) (off n : Nat) : List Byte := mapGetList (fun _ => 0) x.scratch off n
/-- Bytes of the accumulator store (R162). -/
def Core.accumBytes (x : Core) (off n : Nat) : List Byte := mapGetList (fun _ => 0) x.accum off n

/-- Write the bytes that are given, and leave the others. -/
def putBytes (m : SMap Byte) : Nat → List (Option Byte) → SMap Byte
  | _, [] => m
  | k, none :: vs => putBytes m (k + 1) vs
  | k, some v :: vs => putBytes (mapSet (fun _ => 0) m k v) (k + 1) vs

/-- The 16-byte chunks in which bytes are given. -/
def chunksGiven (off : Nat) (bytes : List (Option Byte)) : List Nat :=
  ((List.range (bytes.length / 16 + 2)).map (fun i => off / 16 + i)).filter (fun c =>
    (List.range 16).any (fun i => decide (off ≤ 16 * c + i) && (bytes.getD (16 * c + i - off) none).isSome))

/-- R253: the bytes of every chunk that a store of the strand touches, as they stand before its first such store since the
last EFENCE or task start. -/
def State.noteOld (s : State) (off : Nat) (bytes : List (Option Byte)) : State :=
  s.modBk fun b => (chunksGiven off bytes).foldl (fun b c =>
    if b.old.any (fun e => e.1 == c) then b
    else { b with old := mapSet (fun _ => 2 ^ 128) b.old c (natOfBytes (s.cr.scratchBytes (16 * c) 16)) }) b

/-- A scratchpad store: its bytes become visible at the end of the issue clk (R137). -/
def State.storeScratch (s : State) (off : Nat) (bytes : List (Option Byte)) : State :=
  (s.noteOld off bytes).land (.scratch off bytes) 1

/-- A message leaves the package (R345). -/
def State.send (s : State) (m : Msg) : State := { s with pkg := { s.pkg with msgs := s.pkg.msgs ++ [m] } }

/-- What has become of a request to a peer. -/
inductive Sent where
  | sent
  | held
  | failed
  deriving DecidableEq, Repr

/-- A request of core `c` leaves for peer `x` (R348), and counts as outstanding. -/
def State.putRequest (s : State) (c x : Nat) (use : PeerUse) (r : PeerReq) : State :=
  let e := s.peer x
  (s.setPeer x { e with out := e.out ++ [⟨e.nextId, dieOf c, c, use, (Config.fabricNs s.age).toNat⟩], nextId := e.nextId + 1 }).send
    (.request x e.nextId r)

/-- Whether the die has as many requests outstanding to the peer as its budget allows (R350). -/
def Peer.spent (e : Peer) (d : Nat) : Bool := decide (e.budget ≤ (e.out.filter (fun o => o.die == d)).length)

/-- A request of core `c` to peer `x` (R348, R350, R351): at a fenced peer it fails; beyond its die's budget, or behind requests that the die
holds for the peer, it is held; otherwise it is sent. -/
def State.askPeer (s : State) (c x : Nat) (use : PeerUse) (r : PeerReq) : State × Sent :=
  let d := dieOf c
  if (s.peer x).fenced then (s, .failed)
  else if (s.peer x).spent d || (s.die d).holding.any (fun h => h.peer == x) then
    (s.modDie d fun y => { y with holding := y.holding ++ [⟨x, c, use, r⟩] }, .held)
  else (s.putRequest c x use r, .sent)

/-- Whether the core's pipeline is frozen in this clk (R99). -/
def State.isFrozen (s : State) (c : Nat) : Bool :=
  decide ((s.core c).issue.frozenFrom < s.clk) && decide (s.clk ≤ (s.core c).issue.frozen)

/-- Whether the engine commands of the bundle with that issue number wait for the end of its replay window (R99). -/
def State.replayHeld (s : State) (c order : Nat) : Bool :=
  decide (s.clk ≤ (s.core c).issue.frozen) && (s.core c).issue.undo.map (·.order) == some order

/-! ### Error marks of a core's SRAM (R101, R163, R306) -/

/-- The stored word of a scratchpad byte: 8 bytes under SECDED, its 16-byte chunk under DEC-TED (R139, R306). -/
def Core.scratchUnit (x : Core) (o : Nat) : Nat × Nat :=
  if mapGet (fun _ => false) x.chunkMode (o / 16) then (16 * (o / 16), 16) else (8 * (o / 8), 8)
/-- The first uncorrectable word among `n` scratchpad bytes. -/
def Core.scratchBad (x : Core) (off n : Nat) : Option Nat :=
  x.bad.findSome? (fun l => match l with
    | .scratch _ o =>
      let (a, k) := x.scratchUnit o
      if a < off + n ∧ off < a + k then some a else none
    | _ => none)
/-- The first uncorrectable word among `n` bytes of the accumulator store. -/
def Core.accumBad (x : Core) (off n : Nat) : Option Nat :=
  x.bad.findSome? (fun l => match l with
    | .accum _ o => if 8 * (o / 8) < off + n ∧ off < 8 * (o / 8) + 8 then some (8 * (o / 8)) else none
    | _ => none)
/-- Whether a write gives every byte of [a, a + n). -/
def covers (off : Nat) (v : List (Option Byte)) (a n : Nat) : Bool :=
  (List.range n).all (fun i => decide (off ≤ a + i) && (v.getD (a + i - off) none).isSome)
/-- A word written whole is encoded afresh, and a chunk written takes the mode in force (R306). -/
def Core.healScratch (x : Core) (off : Nat) (v : List (Option Byte)) : Core :=
  let x := { x with bad := x.bad.filter (fun l => match l with
    | .scratch _ o => !covers off v (x.scratchUnit o).1 (x.scratchUnit o).2
    | _ => true) }
  { x with chunkMode := (chunksGiven off v).foldl (fun m c => mapSet (fun _ => false) m c x.dected) x.chunkMode }
/-- A scratchpad of zeros, encoded in the mode in force (R306, R328, R333). -/
def Core.zeroScratch (x : Core) : Core :=
  { x with scratch := [], chunkMode := if x.dected then (List.range 49152).map (fun c => (c, true)) else [],
           bad := x.bad.filter (fun l => match l with | .scratch _ _ => false | _ => true) }
def Core.healAccum (x : Core) (off : Nat) (v : List (Option Byte)) : Core :=
  { x with bad := x.bad.filter (fun l => match l with
    | .accum _ o => !covers off v (8 * (o / 8)) 8
    | _ => true) }
def Core.healVector (x : Core) (i : Nat) (mask : VReg) : Core :=
  { x with bad := x.bad.filter (fun l => match l with
    | .vector _ w => !(w / 32 == i && mask.extractLsb' (64 * (w % 32)) 64 == BitVec.allOnes 64)
    | _ => true) }

/-- UE_CONSUMED (R25, R101): location kind and address. -/
def ueTrap (kind addr : Nat) : Trap := { code := 0x18, info := BitVec.ofNat 64 kind, addr := BitVec.ofNat 80 addr }

/-! ### Physical memory -/

def State.memBytes (s : State) (pa n : Nat) : List Byte := mapGetList (fun _ => 0) s.mem pa n
def State.memNat (s : State) (pa n : Nat) : Nat := natOfBytes (s.memBytes pa n)
def State.putMem (s : State) (pa : Nat) (v : List Byte) : State :=
  { s with mem := mapSetList (fun _ => (0 : Byte)) s.mem pa v }
def State.putMemNat (s : State) (pa n v : Nat) : State := s.putMem pa (bytesOfNat n v)

/-- The memory's canonical form: addresses strictly rising, no entry equal to what an unlisted address reads as (log 3). -/
def Memory.wf (m : List Host.Cell) : Bool := mapWf (fun _ => (0 : Byte)) m

/-! ### CRC-32C (R153) -/

/-- One bit of the reflected CRC with polynomial 0x1EDC_6F41. -/
def crcBit (c : BitVec 32) : BitVec 32 := if c.getLsbD 0 then (c >>> 1) ^^^ 0x82F63B78 else c >>> 1
def crcByte (c : BitVec 32) (b : Byte) : BitVec 32 :=
  crcBit (crcBit (crcBit (crcBit (crcBit (crcBit (crcBit (crcBit (c ^^^ b.setWidth 32))))))))
/-- CRC-32C: reflected, initial value and final XOR 0xFFFF_FFFF. -/
def crc32c (bs : List Byte) : BitVec 32 := ~~~(bs.foldl crcByte 0xFFFFFFFF)

end Sys2Proof.Machine
end

