-- ==== Sys2Proof/Machine/Phys.lean ====
section
/-!
DEFINITION. The physical map (R221) and the firewall (R330, R331).
-/

namespace Sys2Proof.Machine

/-! ### The physical map -/

/-- What a physical address reaches (R221); MRAM carries the cluster 16*die + cluster and the slab offset. -/
inductive Place where
  | mram (cl off : Nat)
  | dram (cl off : Nat)
  | lpddr
  | mmio (die off : Nat)
  | host
  | reserved
  deriving DecidableEq, Repr

/-- R221. -/
def placeOf (pa : Nat) : Place :=
  if pa < 0x400000000 then .mram (pa / 0x10000000) (pa % 0x10000000)
  else if 0x1000000000 ≤ pa ∧ pa < 0x1800000000 then
    .dram ((pa - 0x1000000000) / 0x20000000) ((pa - 0x1000000000) % 0x20000000)
  else if 0x10000000000 ≤ pa ∧ pa < 0x20000000000 ∧ pa - 0x10000000000 < Config.lpddrBytes then .lpddr
  else if 0xF00000000000 ≤ pa ∧ pa < 0xF00040000000 then
    .mmio ((pa - 0xF00000000000) / 0x10000000) ((pa - 0xF00000000000) % 0x10000000)
  else if 0x10000000000000 ≤ pa ∧ pa < 0x20000000000000 then .host
  else .reserved

/-- The home die of an address (R221). -/
def homeDie (pa : Nat) : Nat :=
  match placeOf pa with
  | .mram cl _ | .dram cl _ => cl / 16
  | .mmio d _ => d
  | _ => bitsOf pa 7 2

/-- Local memory: what a record, queue or group block may lie in (R264, R285). -/
def isLocal (pa : Nat) : Bool :=
  match placeOf pa with
  | .mram _ _ | .dram _ _ | .lpddr => true
  | _ => false

/-- Local memory that a queue or group block may lie in: no slab, no MMIO (R264). -/
def blockable (pa : Nat) : Bool :=
  match placeOf pa with
  | .dram _ _ | .lpddr | .host => true
  | _ => false

def isMmio (pa : Nat) : Bool := match placeOf pa with | .mmio _ _ => true | _ => false
def isSlab (pa : Nat) : Bool := match placeOf pa with | .mram _ _ => true | _ => false

/-- UE_CONSUMED of bytes of memory read at `pa`: location kind 6 in a slab, whoever reads them, and 8 elsewhere (R199, R303; log 10). -/
def memTrap (pa : Nat) (va : Addr) : Trap := ueTrap (if isSlab pa then 6 else 8) va.toNat

/-! ### The firewall -/

/-- R and W of an FWBASE word, WORLD, BASE and LIMIT pages (R330). -/
def fwCovers (e : Word × Word) (page : Nat) : Bool :=
  (e.1.getLsbD 0 || e.1.getLsbD 1) && decide (fieldOf e.1 12 44 ≤ page) && decide (page ≤ fieldOf e.2 12 44)

/-- The entries that differ from an unwritten one, entry 0 with them, in rising order. -/
def Die.fwList (d : Die) : List (Nat × (Word × Word)) :=
  match d.fw with
  | (0, e) :: m => (0, e) :: m
  | m => (0, fwReset 0) :: m

/-- R331: the first valid entry that covers the page decides; the answer is the denying index. -/
def fwDeny (d : Die) (w page : Nat) (write : Bool) : Option Nat :=
  match d.fwList.find? (fun e => fwCovers e.2 page) with
  | some (i, e) =>
    if fieldOf e.1 56 8 = w ∧ (if write then e.1.getLsbD 1 else e.1.getLsbD 0) = true then none else some i
  | none => some 0xFFFF

/-- A page under sweep at `clk` (R307). A bundle whose S0 starts the sweep reads the state before it in its other slots (R7): the sweep
denies accesses from the next clk on. -/
def Die.sweeping (d : Die) (clk page : Nat) : Bool :=
  d.sweeps.any (fun x => decide (x.startClk < clk) && decide (x.base / 4096 ≤ page) && decide (page < (x.base + x.len) / 4096))

/-- Whether the page of an address is retired (R304): a page of LPDDR 6, whose lines are homed on all four dies (R339), by any of them. -/
def State.pageRetired (s : State) (pa : Nat) : Bool :=
  if placeOf pa = .lpddr then [0, 1, 2, 3].any (fun d => (s.die d).retired.contains (pa / 4096))
  else (s.die (homeDie pa)).retired.contains (pa / 4096)

/-- Whether an I/O die has been released (R1, R324). -/
def State.ioUp (s : State) (n : Nat) : Bool := s.pkg.io.getD n .held == .released
/-- Compute die `d` has been released: until then it stays in reset, and a write of its registers finds nothing (R1, R324). -/
def State.dieUp (s : State) (d : Nat) : Bool := (s.die d).state == .released
/-- A write of a register of die `d`. -/
def State.onDie (s : State) (d : Nat) (f : State → State) : State := if s.dieUp d then f s else s

/-- What comes from the host reaches the package through I/O die 0, once it has been released (R1, R324; log 73). -/
def State.fromHost (s : State) (r : Host.Outcome State Fault Refusal) : Host.Outcome State Fault Refusal := if s.ioUp 0 then r else .next s
/-- Whether the I/O die of an LPDDR 6 channel has not been released: bit 4 of the channel PA[13:9] names it (R339), and its memory then
answers as unpopulated memory does (R1, R221; log 73). -/
def State.channelDown (s : State) (pa : Nat) : Bool := placeOf pa == .lpddr && !s.ioUp (bitsOf pa 13 1)

/-- Whether world `w` is denied a physical access: EINFO of FIREWALL (R221, R304, R307, R324, R331). -/
def State.physDeny (s : State) (w pa : Nat) (write : Bool) : Option Nat :=
  if s.channelDown pa then some 0xFFFF
  else match placeOf pa with
  | .reserved => some 0xFFFF
  | _ =>
    let d := s.die (homeDie pa)
    if d.state ≠ .released then some 0xFFFF
    else if s.pageRetired pa then some 0xFFFE
    else if d.sweeping s.clk (pa / 4096) then some 0xFFFD
    else fwDeny d w (pa / 4096) write

/-- The first denial among the bytes of an access: every line is checked by its own home die (R221, R331). -/
def State.spanDeny (s : State) (w pa n : Nat) (write : Bool) : Option Nat :=
  (((List.range (n / 128 + 2)).map (fun i => max pa (128 * (pa / 128 + i)))).filter (fun a => decide (a < pa + n))).findSome?
    (fun a => s.physDeny w a write)

end Sys2Proof.Machine
end

