-- ==== Sys2Proof/Machine/Cache.lean ====
section
/-!
DEFINITION. The shared caches (R222-R225), error marks of memory (R303-R305), and the one read and the one write of physical
memory that every perform event uses.
-/

namespace Sys2Proof.Machine

/-! ### Allocation and owners (R225) -/

def Die.occAt (d : Die) (c : Nat) : Nat := mapGet (fun _ => 0) d.occ c
def Die.addOcc (d : Die) (c : Nat) (up : Bool) : Die :=
  { d with occ := mapSet (fun _ => 0) d.occ c (if up then d.occAt c + 1 else d.occAt c - 1) }

/-- The lines of a set, with their line numbers. -/
def Die.setLines (d : Die) (set : Nat) : List (Nat × Line) := d.cache.filter (fun e => e.1 % 32768 == set)

/-- The least recently used of some lines. -/
def lruOf : List (Nat × Line) → Option (Nat × Line)
  | [] => none
  | e :: l => match lruOf l with
    | some f => if f.2.used < e.2.used then some f else some e
    | none => some e

/-- CACHE_ALLOCATE (R225): a context at its soft limit gives up its own least recently used way of the set; otherwise the way used least
recently goes, which is one that holds no line while there is one. A dirty victim is in memory already, since the model keeps one copy of
every byte. -/
def Die.allocate (d : Die) (line ctx world now : Nat) : Die :=
  let set := line % 32768
  let ways := (List.range 16).filter (fun w => !d.quarantine.contains (set, w))
  let here := (d.setLines set).filter (fun e => ways.contains e.2.way)
  let own := here.filter (fun e => e.2.owner == ctx)
  let soft := decide (d.occAt ctx < mapGet limReset d.lim ctx) || own.isEmpty
  let fill (d : Die) (w : Nat) : Die :=
    { d with cache := mapSet (fun _ => ⟨0, 0, false, 16, 0⟩) d.cache line ⟨ctx, world, false, w, now⟩ }.addOcc ctx true
  match if soft then ways.find? (fun w => here.all (fun e => e.2.way != w)) else none with
  | some w => fill d w
  | none =>
    match lruOf (if soft then here else own) with
    | some (v, l) => fill ({ d with cache := d.cache.filter (fun e => e.1 != v) }.addOcc l.owner false) l.way
    | none => d

/-- A use of a line at its home die: it is allocated if it is absent, and a store makes it dirty and its OWNER the storing
context (R222, R225). -/
def Die.useLine (d : Die) (line ctx world now : Nat) (write : Bool) : Die :=
  let present := d.cache.any (fun e => e.1 == line)
  let d := if present then d else d.allocate line ctx world now
  match d.cache.find? (fun e => e.1 == line) with
  | none => d
  | some (_, l) =>
    if write then
      let d := if l.owner = ctx then d else (d.addOcc l.owner false).addOcc ctx true
      { d with cache := mapSet (fun _ => ⟨0, 0, false, 16, 0⟩) d.cache line { l with owner := ctx, world := world, dirty := true, used := now } }
    else { d with cache := mapSet (fun _ => ⟨0, 0, false, 16, 0⟩) d.cache line { l with used := now } }

/-- Every line of `n` bytes at `pa` is used. MMIO is never cached (R222). -/
def State.useLines (s : State) (pa n ctx : Nat) (write : Bool) : State :=
  if isMmio pa then s
  else ((List.range (n / 128 + 2)).map (fun i => pa / 128 + i)).foldl (fun s line =>
    if 128 * line < pa + n then
      s.modDie (homeDie (128 * line)) fun d => d.useLine line ctx (s.worldOf ctx) s.clk write
    else s) s

/-- Whether bytes lie in the slab of a core's own cluster; its loads and copy reads bypass the shared cache (R223). -/
def ownSlab (core pa : Nat) : Bool :=
  match placeOf pa with
  | .mram cl _ => cl == clusterOf core
  | _ => false

/-! ### Errors -/

/-- PAGE_RETIRE (R304): a page of DRAM, LPDDR 6 or MRAM that shows an uncorrectable error enters the list of 1,024, or is only logged. -/
def State.retirePage (s : State) (pa : Nat) : State :=
  if isLocal pa = false ∨ s.pageRetired pa = true then s
  else s.modDie (homeDie pa) fun d =>
    if d.retired.length < 1024 then { d with retired := d.retired ++ [pa / 4096], errors := d.errors + 1 }
    else { d with errors := d.errors + 1 }

/-- The record of a committed transaction that serves home unit `home`, until it is applied: the one issued last wins (R202). -/
def Txn.server (t : Txn) (home : Nat) : Option JRec :=
  if t.committed then
    match (t.recs.filter (fun r => decide (r.home ≤ home) && decide (home < r.home + 64))).getLast? with
    | some r => if r.applied then none else some r
    | none => none
  else none

/-- The byte that the Quire serves for a home unit that a committed transaction has not applied yet (R202). -/
def Txn.serves (t : Txn) (off : Nat) : Option Byte := (t.server off).map (fun r => r.data.getD (off - r.home) 0)

/-- The home units that the Quire unit at slab offset `off` serves (R198, R202). -/
def Txn.homesOf (t : Txn) (off : Nat) : List Nat :=
  (t.recs.filter (fun r => 0x0FC00000 + 64 * r.unit == off && t.server r.home == some r)).map (·.home)

/-- The bytes that an uncorrectable word spoils: the word; in a slab, whose ECC is per unit, its whole unit (R199), and with a Quire unit
the home units that it serves. A home unit that the Quire serves spoils nothing (R202). -/
def State.ueSpans (s : State) (w : Nat) : List (Nat × Nat) :=
  match placeOf (8 * w) with
  | .mram cl off =>
    let own := (64 * (w / 8), 64)
    match (s.cluster cl).slab.txn with
    | some t =>
      (if (t.server (off / 64 * 64)).isSome then [] else [own])
        ++ (t.homesOf (off / 64 * 64)).map (fun h => (0x10000000 * cl + h, 64))
    | none => [own]
  | _ => [(8 * w, 8)]
/-- Whether an uncorrectable word spoils some of the bytes. -/
def State.spoils (s : State) (pa n w : Nat) : Bool :=
  (s.ueSpans w).any (fun e => decide (e.1 < pa + n) && decide (pa < e.1 + e.2))
/-- Whether an uncorrectable word or unit lies among the bytes. -/
def State.ueAt (s : State) (pa n : Nat) : Bool := s.ueMem.any (s.spoils pa n)
/-- Whether a word of the bytes is uncorrectable, or a line of them poisoned (R303). -/
def State.bad (s : State) (pa n : Nat) : Bool :=
  s.poison.any (fun l => decide (128 * l < pa + n) && decide (pa < 128 * l + 128)) || s.ueAt pa n
/-- The spans of bad bytes that reach into [pa, pa + n). -/
def State.badSpans (s : State) (pa n : Nat) : List (Nat × Nat) :=
  (s.poison.map (fun l => (128 * l, 128)) ++ s.ueMem.flatMap s.ueSpans).filter (fun e => decide (e.1 < pa + n) && decide (pa < e.1 + e.2))
/-- The pages whose uncorrectable words a read of the bytes has shown are retired (R304). -/
def State.retireShown (s : State) (pa n : Nat) : State := (s.ueMem.filter (s.spoils pa n)).foldl (fun s w => s.retirePage (8 * w)) s

/-- Bytes as a read event sees them: slab bytes against the committed state (R202). -/
def State.seenBytes (s : State) (pa n : Nat) : List Byte :=
  match placeOf pa with
  | .mram cl off =>
    match (s.cluster cl).slab.txn with
    | some t => (s.memBytes pa n).mapIdx (fun i b => (t.serves (off + i)).getD b)
    | none => s.memBytes pa n
  | _ => s.memBytes pa n

/-- Whether an access waits for a refresh (R212): a bank of its region is being refreshed, and no shared cache holds the line. -/
def State.refreshing (s : State) (pa : Nat) : Bool :=
  match placeOf pa with
  | .dram cl off =>
    mapGet (fun _ => 0) (s.cluster cl).refresh (Config.dramBank off % 16) != 0
      && !(s.die (homeDie pa)).cache.any (fun e => e.1 == pa / 128)
  | _ => false

/-- A read event through the shared cache for context `ctx` (R222, R223): the bytes, and whether one of them is uncorrectable or poisoned
(R303); a page that shows an uncorrectable word is retired (R304). -/
def State.readHome (s : State) (ctx pa n : Nat) : State × List Byte × Bool :=
  let s' := s.useLines pa n ctx false
  (s'.retireShown pa n, s.seenBytes pa n, s.bad pa n)
/-- A load or copy read from core `core`: it bypasses the shared cache in the slab of its own cluster (R223). -/
def State.readPhys (s : State) (core ctx pa n : Nat) : State × List Byte × Bool :=
  if ownSlab core pa then (s.retireShown pa n, s.seenBytes pa n, s.bad pa n) else s.readHome ctx pa n
/-- The number that some bytes hold, read through the shared cache. -/
def State.readNat (s : State) (ctx pa n : Nat) : State × Nat × Bool :=
  let (s, bs, ue) := s.readHome ctx pa n
  (s, natOfBytes bs, ue)

/-- A write event: the bytes are visible to every agent at once (R235); a word written whole loses its error mark, and a store
over a whole poisoned line its poison (R303). A slab takes no stores, whoever makes them, and its lines are never dirty (R199, R223): what
the scheduler or a mailbox command would write there changes nothing (log 14). -/
def State.writePhys (s : State) (ctx pa : Nat) (bytes : List Byte) : State :=
  if isSlab pa then s
  else
  let n := bytes.length
  let s := (s.useLines pa n ctx true).putMem pa bytes
  { s with poison := s.poison.filter (fun l => !(decide (pa ≤ 128 * l) && decide (128 * l + 128 ≤ pa + n))),
           ueMem := s.ueMem.filter (fun w => !(decide (pa ≤ 8 * w) && decide (8 * w + 8 ≤ pa + n))) }

/-- Drop the lines that a test picks, with their counts (R223, R225, R333). -/
def Die.dropLines (d : Die) (p : Nat → Line → Bool) : Die :=
  let gone := d.cache.filter (fun e => p e.1 e.2)
  gone.foldl (fun d e => d.addOcc e.2.owner false) { d with cache := d.cache.filter (fun e => !p e.1 e.2) }

/-- R225: a terminated context loses every line it owns on every die, and its counters become 0. -/
def State.dropOwner (s : State) (ctx : Nat) : State :=
  [0, 1, 2, 3].foldl (fun s d => s.modDie d fun x =>
    { x.dropLines (fun _ l => l.owner == ctx) with
      occ := mapSet (fun _ => 0) (x.dropLines (fun _ l => l.owner == ctx)).occ ctx 0 }) s

end Sys2Proof.Machine
end

