-- ==== Sys2Proof/Machine/Trans.lean ====
section
/-!
DEFINITION. Rights and page tables (R226-R229), TLBs and walks (R230, R231).
-/

namespace Sys2Proof.Machine

/-! ### Rights -/

/-- What an access needs of a leaf (R229), and its bytes. -/
structure Need where
  kind : Nat
  r : Bool
  w : Bool
  x : Bool
  size : Nat
  deriving DecidableEq, Repr

/-- The kinds of R229, for an access of `n` bytes; kind 7 needs W for a spill and R for a fill. -/
def needOf (kind n : Nat) (spill : Bool := false) : Need :=
  match kind with
  | 2 | 9 => ⟨kind, false, true, false, n⟩
  | 3 => ⟨kind, true, true, false, n⟩
  | 5 | 6 => ⟨kind, false, false, true, n⟩
  | 7 => ⟨kind, !spill, spill, false, n⟩
  | _ => ⟨kind, true, false, false, n⟩

/-- Whether an entry grants the rights and the firewall verdict (R229); `uBit` asks for U. -/
def TlbEntry.grants (e : TlbEntry) (n : Need) (uBit : Bool) : Bool :=
  (!n.r || e.r) && (!n.w || e.w) && (!n.x || e.x) && (!uBit || e.u)

/-- Whether an access through the entry needs no walk: rights, verdict, and D set for a write (R227, R230). -/
def TlbEntry.serves (e : TlbEntry) (n : Need) (uBit : Bool) : Bool :=
  e.grants n uBit && (!n.w || (e.d && e.fwW)) && ((!n.r && !n.x) || e.fwR)

def TlbEntry.covers (e : TlbEntry) (ctx : Nat) (va : Addr) : Bool :=
  e.ctx == ctx && e.page == va.toNat / 2 ^ e.log

/-- The physical address of `va` through an entry. -/
def TlbEntry.at (e : TlbEntry) (va : Addr) : Nat := e.pa + va.toNat % 2 ^ e.log

/-- The first entry of a TLB that serves the access. -/
def tlbFind (l : List TlbEntry) (ctx : Nat) (va : Addr) (n : Need) (uBit : Bool) : Option TlbEntry :=
  l.find? (fun e => e.covers ctx va && e.serves n uBit)

/-! ### The walk -/

/-- What a walk finds. -/
inductive Walked where
  | leaf (at_ : Nat) (e : Nat) (log : Nat)
  | bad (code : Nat) (info : Nat)
  deriving DecidableEq, Repr

/-- Whether a valid entry is malformed at a level (R227); a PEER bit on a table entry counts as a set bit of a leaf-only
field. -/
def pteMalformed (level e : Nat) : Bool :=
  let leaf := bitOf e 1
  let peer := bitOf e 9
  (bitsOf e 10 2 != 0)
    || (!(leaf && peer) && bitsOf e 56 8 != 0)
    || (leaf && decide (4 ≤ level))
    || (!leaf && (level == 1 || peer))
    || (bitOf e 8 && (level != 1 || !leaf))
    || (leaf && level == 3 && bitsOf e 12 18 != 0)
    || (leaf && level == 2 && bitsOf e 12 9 != 0)
    || (leaf && level == 1 && bitOf e 8 && bitsOf e 12 4 != 0)

/-- The index of a level into its table (R226). -/
def pteIndex (level : Nat) (va : Nat) : Nat :=
  if level = 8 then bitsOf va 75 5 else bitsOf va (12 + 9 * (level - 1)) 9

/-- What a walk has read on its way: the entries of tables, and what it found at levels 3 to 8, by level. -/
structure Trail where
  reads : List Nat := []
  tables : List (Nat × Nat) := []
  deriving DecidableEq, Repr

/-- The walk from `level` down, over the table at `base` (R226-R229), for world `w` and access kind `kind`; `hit` answers from the die's
cache of tables (R230). -/
def walkFrom (s : State) (w va kind : Nat) (hit : Nat → Option Nat) : Nat → Nat → Trail → Trail × Walked
  | 0, _, t => (t, .bad 0x10 kind)
  | level + 1, base, t =>
    match hit (level + 1) with
    | some next => walkFrom s w va kind hit level next t
    | none =>
      let at_ := base + 8 * pteIndex (level + 1) va
      match s.physDeny w at_ false with
      | some i => (t, .bad 0x13 i)
      | none =>
        let t := { t with reads := t.reads ++ [at_] }
        let e := s.memNat at_ 8
        if s.bad at_ 8 then (t, .bad 0x18 8)
        else if bitOf e 0 = false then
          match bitsOf e 1 3 with
          | 0 => (t, .bad 0x10 kind)
          | 1 => (t, .bad 0x10 (kind + 0x40))
          | _ => (t, .bad 0x10 (kind + 0x80))
        else if pteMalformed (level + 1) e then (t, .bad 0x10 (kind + 0x80))
        else if bitOf e 1 then
          (t, .leaf at_ e (if level + 1 = 3 then 30 else if level + 1 = 2 then 21 else if bitOf e 8 then 16 else 12))
        else
          let next := bitsOf e 12 44 * 4096
          walkFrom s w va kind hit level next (if 3 ≤ level + 1 then { t with tables := t.tables ++ [(level + 1, next)] } else t)

/-- The leaf of a page, as the tables of a context hold it now. -/
def State.leafOf (s : State) (w va root : Nat) : Walked := (walkFrom s w va 1 (fun _ => none) 8 root {}).2

/-- The first denial of an access: the firewall checks each right that it needs (R229, R331). -/
def State.needDeny (s : State) (w pa : Nat) (n : Need) : Option Nat :=
  (if n.w then s.spanDeny w pa n.size true else none).orElse
    (fun _ => if n.r || n.x || !n.w then s.spanDeny w pa n.size false else none)

/-- The TLB entry that a leaf gives; the verdict that it caches is that of the bytes accessed. -/
def leafEntry (s : State) (ctx : Nat) (va : Addr) (size e log : Nat) (dirty : Bool) : TlbEntry :=
  let peer := bitOf e 9
  let pa := (if peer then bitsOf e 12 42 else bitsOf e 12 44) * 4096
  let at_ := pa + va.toNat % 2 ^ log
  let w := s.worldOf ctx
  { ctx := ctx, page := va.toNat / 2 ^ log, log := log, pa := pa, r := bitOf e 2, w := bitOf e 3, x := bitOf e 4, u := bitOf e 5,
    d := dirty, fwR := peer || (s.spanDeny w at_ size false).isNone, fwW := peer || (s.spanDeny w at_ size true).isNone,
    peer := if peer then some (bitsOf e 54 10) else none }

/-- The index of a table below `level` in the die's cache: the address bits that lead to it. -/
def tableKey (level va : Nat) : Nat := va / 2 ^ (12 + 9 * (level - 1))

def Die.tableHit (d : Die) (ctx va level : Nat) : Option Nat :=
  (d.tables.find? (fun e => e.ctx == ctx && e.level == level && e.key == tableKey level va)).map (·.next)

/-- Put an entry in front of a list of at most `cap`; the victim is a free choice, since R230 names none. -/
def putFront {α : Type} (cap draw : Nat) (l : List α) (e : α) : List α := e :: (if l.length < cap then l else l.eraseIdx (draw % cap))

/-- The reads of a walk go through the shared cache; the tables it has found enter the die's cache of 512, at levels 3 to 8 (R230). -/
def State.trodden (s : State) (d ctx va : Nat) (t : Trail) : State :=
  let s := t.reads.foldl (fun s pa => (s.readHome ctx pa 8).1) s
  t.tables.foldl (fun s e =>
    (s.modDie d fun x => { x with tables := putFront 512 (Config.freeNat s.fresh) x.tables ⟨ctx, e.1, tableKey e.1 va, e.2⟩ }).drawn) s

/-- A and D of a leaf are set by an atomic OR (R227); an entry in a slab keeps its bits, since a slab takes no stores (R199). -/
def State.markLeaf (s : State) (ctx at_ e : Nat) (write : Bool) : State :=
  let new := e ||| 0x40 ||| (if write then 0x80 else 0)
  if new = e ∨ isSlab at_ = true then s else s.writePhys ctx at_ (bytesOfNat 8 new)

/-- A walk of die `d` (R226-R230): the entry is checked against the rights, the peer's port set (R346) and the firewall (R229). EADDR is
the address accessed. An uncorrectable word of a table raises UE_CONSUMED (R303). -/
def State.walk (s : State) (d ctx : Nat) (va : Addr) (n : Need) (uBit : Bool) : State × Except Trap TlbEntry :=
  let c := s.ctx ctx
  let (t, r) := walkFrom s c.world va.toNat n.kind ((s.die d).tableHit ctx va.toNat) 8 c.root {}
  let s := s.trodden d ctx va.toNat t
  match r with
  | .bad code info => (s, .error ⟨code, BitVec.ofNat 64 info, va, 7, false⟩)
  | .leaf at_ e log =>
    let probe := leafEntry s ctx va n.size e log true
    if probe.grants n uBit = false then (s, .error ⟨0x11, BitVec.ofNat 64 n.kind, va, 7, false⟩)
    else
      let denied : Option Trap :=
        match probe.peer with
        | some x => if (s.peer x).ports = 0 then some ⟨0x11, BitVec.ofNat 64 n.kind, va, 7, false⟩ else none
        | none => (s.needDeny c.world (probe.at va) n).map (fun i => ⟨0x13, BitVec.ofNat 64 i, va, 7, false⟩)
      match denied with
      | some t => (s, .error t)
      | none => (s.markLeaf ctx at_ e n.w, .ok { probe with d := bitOf e 7 || n.w })

/-- Fill the TLB of a core and the second-level TLB of its die (R230). -/
def State.fillTlb (s : State) (c : Nat) (e : TlbEntry) : State :=
  let n := Config.freeNat s.fresh
  let other (l : List TlbEntry) := l.filter (fun x => !(x.ctx == e.ctx && x.page == e.page && x.log == e.log))
  ((s.modCore c fun x => { x with tlb := putFront 64 n (other x.tlb) e }).modDie (dieOf c)
    fun d => { d with tlb := putFront 8192 n (other d.tlb) e }).drawn

/-- Whether an entry answers for an access: the dies that hold its bytes deny it nothing now (R229, R304, R307, R331), and its peer can be
reached (R346). -/
def State.answers (s : State) (e : TlbEntry) (va : Addr) (n : Need) : Bool :=
  match e.peer with
  | some x => (s.peer x).ports != 0
  | none => (s.needDeny (s.worldOf e.ctx) (e.at va) n).isNone

/-- Find the translation of one access: the core's TLB, the die's, then a walk (R230). A denial is confirmed by a walk. -/
def State.lookup (s : State) (c ctx : Nat) (va : Addr) (n : Need) (uBit : Bool) :
    State × Except Trap (Nat × Option Nat) :=
  let found := (tlbFind (s.core c).tlb ctx va n uBit).orElse (fun _ => tlbFind (s.die (dieOf c)).tlb ctx va n uBit)
  match found.filter (fun e => s.answers e va n) with
  | some e => (s.fillTlb c e, .ok (e.at va, e.peer))
  | none =>
    match s.walk (dieOf c) ctx va n uBit with
    | (s', .ok e) => (s'.fillTlb c e, .ok (e.at va, e.peer))
    | (s', .error t) => (s', .error t)

/-- What translation before issue answers (R230): the physical address and peer, a failure that a walk has found, or a walk to
wait for. -/
inductive Found where
  | at_ (pa : Nat) (peer : Option Nat)
  | failed (t : Trap)
  | walking
  deriving DecidableEq, Repr

/-- Translation of the acting strand's access, before the bundle issues (R230): the core's TLB answers at once; a failure is
raised only after a fresh walk; otherwise the bundle blocks. -/
def State.translate (s : State) (va : Addr) (n : Need) (uBit : Bool) : Found :=
  match (tlbFind s.cr.tlb s.bk.ctx va n uBit).filter (fun e => s.answers e va n) with
  | some e => .at_ (e.at va) e.peer
  | none =>
    match s.bk.walkErr with
    | some (k, a, t) => if k = n.kind ∧ a = va then .failed t else .walking
    | none => .walking

/-- Ask the die for a walk: strands that miss on the same page share one, in the order of their first attempts (R230, R322). `soft` marks an
access whose failure its region defers (R86). -/
def State.askWalk (s : State) (va : Addr) (n : Need) (user soft : Bool) : State :=
  let b := s.bk
  let d := dieOf s.cur.core
  let a : WalkWait := { core := s.cur.core, uid := b.uid, va := va, kind := n.kind, size := n.size, user := user, soft := soft, slot := s.cur.slot }
  let here (w : Walk) : Bool := w.ctx == b.ctx && w.page == va.toNat / 4096
  let ws := (s.die d).walks
  if ws.any (fun w => here w && w.waits.contains a) then s
  else if ws.any here then s.modDie d fun x => { x with walks := x.walks.map (fun w => if here w then { w with waits := w.waits ++ [a] } else w) }
  else { s.modDie d (fun x => { x with walks := x.walks ++ [⟨s.fresh, b.ctx, va.toNat / 4096, [a]⟩] }) with fresh := s.fresh + 1 }

/-- The parts of `n` bytes at `va` that lie in one page each: offset and length. -/
def pageParts (va n : Nat) : List (Nat × Nat) :=
  ((List.range (n / 4096 + 2)).map (fun i => (4096 * i - va % 4096, min n (4096 * (i + 1) - va % 4096)))).filterMap
    (fun e => if e.1 < e.2 then some (e.1, e.2 - e.1) else none)

/-! ### Dropping translations (R231) -/

/-- Whether TLBINV names an entry: mode 0 a page of any size, 1 a context, 2 all. -/
def tlbNamed (mode ctx : Nat) (va : Addr) (e : TlbEntry) : Bool :=
  match mode with
  | 0 => e.covers ctx va
  | 1 => e.ctx == ctx
  | _ => true

/-- Drop the entries in the core TLBs and the second-level TLB of a die, and those of the contexts named in its cache of tables. -/
def State.dropDie (s : State) (d mode ctx : Nat) (va : Addr) : State :=
  let s := s.modDie d fun x =>
    { x with tlb := x.tlb.filter (fun e => !tlbNamed mode ctx va e), tables := x.tables.filter (fun e => mode != 2 && e.ctx != ctx) }
  { s with cores := s.cores.map (fun c =>
      if c.1 / 64 = d then (c.1, { c.2 with tlb := c.2.tlb.filter (fun e => !tlbNamed mode ctx va e) }) else c) }

/-- TLBINV over one die or the package. -/
def State.tlbinv (s : State) (die : Nat) (pkg : Bool) (mode ctx : Nat) (va : Addr) : State :=
  if pkg then [0, 1, 2, 3].foldl (fun s d => s.dropDie d mode ctx va) s else s.dropDie die mode ctx va

end Sys2Proof.Machine
end

