-- ==== Sys2Proof/Machine/Block.lean ====
section
/-!
DEFINITION. The cache controllers' blocks: queues (R264-R279) and groups (R280-R283). An operation is an `Acc` of a bank; its
perform event changes the block in memory and the operation's own state.
-/

namespace Sys2Proof.Machine

/-! ### Operations of a bank by identity -/

def Bank.acc? (b : Bank) (id : Nat) : Option Acc := b.accs.find? (fun a => a.id == id)
def Bank.modAcc (b : Bank) (id : Nat) (f : Acc → Acc) : Bank :=
  { b with accs := b.accs.map (fun a => if a.id = id then f a else a) }
def State.uidBank (s : State) (c uid : Nat) : Bank :=
  match (s.core c).holderOf uid with
  | some p => s.bank c p
  | none => {}
def State.modAcc (s : State) (c uid id : Nat) (f : Acc → Acc) : State := s.modUid c uid (fun b => b.modAcc id f)

/-- An operation fails at its controller: its report will raise the cause (R266). -/
def State.failAcc (s : State) (c uid id : Nat) (t : Trap) : State :=
  s.modAcc c uid id fun a => { a with st := .performed, err := some { t with slot := a.slot } }

/-- An operation performs with a value for its destination. -/
def State.doneAcc (s : State) (c uid id val : Nat) : State :=
  s.modAcc c uid id fun a => { a with st := .performed, val := val }

/-! ### Queue control blocks -/

/-- A queue control block (R264). -/
structure QBlock where
  base : Nat
  esize : Nat
  cap : Nat
  head : Nat
  tail : Nat
  free : Nat
  rsv : Nat
  world : Nat
  home : Nat
  flags : Nat
  waiters : Nat
  zero : Nat
  check : Nat
  deriving DecidableEq, Repr

def QBlock.parse (v : Nat) : QBlock :=
  { base := bitsOf v 0 80, esize := bitsOf v 80 16, cap := bitsOf v 96 32, head := bitsOf v 128 64, tail := bitsOf v 192 64,
    free := bitsOf v 256 32, rsv := bitsOf v 288 32, world := bitsOf v 320 8, home := bitsOf v 328 8, flags := bitsOf v 336 16,
    waiters := bitsOf v 352 32, zero := bitsOf v 384 96, check := bitsOf v 480 32 }

/-- Bytes 0x00-0x3B of a block. -/
def QBlock.body (q : QBlock) : Nat :=
  q.base % 2 ^ 80 + (q.esize % 2 ^ 16) * 2 ^ 80 + (q.cap % 2 ^ 32) * 2 ^ 96 + (q.head % 2 ^ 64) * 2 ^ 128
    + (q.tail % 2 ^ 64) * 2 ^ 192 + (q.free % 2 ^ 32) * 2 ^ 256 + (q.rsv % 2 ^ 32) * 2 ^ 288 + (q.world % 256) * 2 ^ 320
    + (q.home % 256) * 2 ^ 328 + (q.flags % 2 ^ 16) * 2 ^ 336 + (q.waiters % 2 ^ 32) * 2 ^ 352 + (q.zero % 2 ^ 96) * 2 ^ 384

/-- A 64-byte block with its CHECK over bytes 0x00-0x3B (R153, R264, R280). -/
def withCheck (body : Nat) : List Byte :=
  let bs := bytesOfNat 60 body
  bs ++ bytesOfNat 4 (crc32c bs).toNat

def isPow2 (n : Nat) : Bool := n != 0 && (n &&& (n - 1)) == 0

/-- R265: the first failing check, 1 to 8. -/
def QBlock.firstBad (q : QBlock) (v home : Nat) : Option Nat :=
  if (crc32c (bytesOfNat 60 v)).toNat ≠ q.check then some 1
  else if q.zero ≠ 0 ∨ 4 ≤ q.flags then some 2
  else if q.esize < 8 ∨ 256 < q.esize ∨ q.esize % 8 ≠ 0 then some 3
  else if isPow2 q.cap = false ∨ 2 ^ 31 < q.cap then some 4
  else if q.base % 8 ≠ 0 ∨ 2 ^ 80 < q.base + q.esize * q.cap then some 5
  else if q.home ≠ home then some 6
  else if q.cap < (q.tail + 2 ^ 64 - q.head + q.rsv) % 2 ^ 64 then some 7
  else if (q.free : Int) ≠ (q.cap : Int) - ((q.tail + 2 ^ 64 - q.head) % 2 ^ 64 : Nat) - (q.rsv : Int) then some 8
  else none

/-- Live elements, TAIL − HEAD modulo 2^64. -/
def QBlock.live (q : QBlock) : Nat := (q.tail + 2 ^ 64 - q.head) % 2 ^ 64

def State.qblock (s : State) (pa : Nat) : QBlock := QBlock.parse (s.memNat pa 64)
def State.putQ (s : State) (ctx pa : Nat) (q : QBlock) : State := s.writePhys ctx pa (withCheck q.body)

/-- The waiting operations of a block, in the order in which they began to wait. -/
def State.waitersOf (s : State) (pa : Nat) : List Waiter := (s.die (homeDie pa)).waiters.filter (fun w => w.block == pa)
def State.dropWaiter (s : State) (pa c uid acc : Nat) : State :=
  s.modDie (homeDie pa) fun d =>
    { d with waiters := d.waiters.filter (fun w => !(w.block == pa && w.core == c && w.uid == uid && w.acc == acc)) }

/-- QUEUE_POISON (R265): POISONED is set, CHECK is written over the block as found, every waiting operation fails. -/
def State.poisonQ (s : State) (ctx pa : Nat) : State :=
  let v := s.memNat pa 60
  let ws := s.waitersOf pa
  let s := s.writePhys ctx pa (withCheck (v ||| 2 ^ 336))
  let s := ws.foldl (fun s w => s.failAcc w.core w.uid w.acc ⟨0x15, 0, ((s.uidBank w.core w.uid).acc? w.acc |>.map (·.va)).getD 0, 7, false⟩) s
  s.modDie (homeDie pa) fun d => { d with waiters := d.waiters.filter (fun w => w.block != pa) }

/-- A ring access of the controller (R264): each page of the element is translated in context `ctx` with the rights it needs and U for a
user-mode one; the answer is where the bytes lie, part by part. A ring on a PEER page or in MMIO is refused, and a slab takes no stores
(R199; log 18). -/
def State.ringAt (s : State) (core ctx : Nat) (user : Bool) (q : QBlock) (n : Nat) (write : Bool) :
    State × Except Trap (List (Nat × Nat × Nat)) :=
  let va : Addr := BitVec.ofNat 80 (q.base + q.esize * (n % q.cap))
  (pageParts va.toNat q.esize).foldl (fun (r : State × Except Trap (List (Nat × Nat × Nat))) e =>
    match r with
    | (s, .error t) => (s, .error t)
    | (s, .ok l) =>
      match s.lookup core ctx (va + BitVec.ofNat 80 e.1) (needOf (if write then 2 else 1) e.2) user with
      | (s, .ok (pa, none)) =>
        if isMmio pa || (write && isSlab pa) then (s, .error ⟨0x11, 3, va, 7, false⟩) else (s, .ok (l ++ [(pa, e.1, e.2)]))
      | (s, .ok (_, some _)) => (s, .error ⟨0x11, 3, va, 7, false⟩)
      | (s, .error t) => (s, .error ⟨t.code, 3, va, 7, false⟩)) (s, .ok [])

/-- The bytes of an element are written, or read, part by part. -/
def State.ringWrite (s : State) (ctx : Nat) (l : List (Nat × Nat × Nat)) (bs : List Byte) : State :=
  l.foldl (fun s e => s.writePhys ctx e.1 ((bs.drop e.2.1).take e.2.2)) s
def State.ringRead (s : State) (core ctx : Nat) (l : List (Nat × Nat × Nat)) : State × List Byte × Bool :=
  l.foldl (fun (r : State × List Byte × Bool) e =>
    let (s, bs, ue) := r.1.readPhys core ctx e.1 e.2.2
    (s, r.2.1 ++ bs, r.2.2 || ue)) (s, [], false)

/-- Whether an operation adds an element, or takes one. -/
def AccKind.isEnq : AccKind → Bool
  | .enq => true
  | _ => false
def AccKind.isTake : AccKind → Bool
  | .deq | .deqt | .refill _ => true
  | _ => false

def AccKind.isRefill : AccKind → Bool
  | .refill _ => true
  | _ => false
/-- A refill that waits at its controller holds back nothing but the operations on its own block, as the trace of R319 has it (log 17). -/
def Acc.idles (a : Acc) : Bool :=
  match a.kind with
  | .refill _ => a.st == .waiting
  | _ => false

/-- One enqueue or dequeue at the controller, the block having passed its checks and room or an element being there (R269,
R272). -/
def State.moveElem (s : State) (pa c uid : Nat) (a : Acc) : State :=
  let ctx := (s.uidBank c uid).ctx
  let q := s.qblock pa
  if a.kind.isEnq then
    match s.ringAt c ctx a.user q q.tail true with
    | (s, .error t) => s.failAcc c uid a.id t
    | (s, .ok rp) =>
      let s := s.ringWrite ctx rp (bytesOfNat q.esize a.data)
      (s.putQ ctx pa { q with tail := (q.tail + 1) % 2 ^ 64, free := q.free - 1 }).doneAcc c uid a.id 0
  else
    match s.ringAt c ctx a.user q q.head false with
    | (s, .error t) => s.failAcc c uid a.id t
    | (s, .ok rp) =>
      let (s, bs, ue) := s.ringRead c ctx rp
      if ue then
        s.failAcc c uid a.id (memTrap (((rp.find? (fun e => s.bad e.1 e.2.2)).map (·.1)).getD 0) (BitVec.ofNat 80 (q.base + q.esize * (q.head % q.cap))))
      else
        match a.kind with
        | .refill n =>
          let s := s.putQ ctx pa { q with head := (q.head + 1) % 2 ^ 64, rsv := q.rsv + 1 }
          let s := s.modDie (homeDie pa) fun d =>
            { d with rtab := d.rtab ++ [⟨pa, a.va, ctx, c, uid, n, natOfBytes bs, a.user⟩] }
          s.modAcc c uid a.id fun x => { x with st := .performed, val := natOfBytes bs, size := q.esize }
        | _ =>
          let s := s.putQ ctx pa { q with head := (q.head + 1) % 2 ^ 64, free := q.free + 1 }
          s.modAcc c uid a.id fun x =>
            { x with st := .performed, data := natOfBytes bs, size := q.esize,
                     val := if a.kind = .deqt then q.head else natOfBytes bs % 2 ^ 64 }

/-- The first check of R265 that the block fails for an operation of context `ctx` on core `c`; a block that cannot be read raises
UE_CONSUMED before them (R303). -/
def State.queueFault (s : State) (c ctx pa : Nat) (va : Addr) : Option Trap :=
  let q := s.qblock pa
  if s.bad pa 64 then some (memTrap pa va)
  else match q.firstBad (s.memNat pa 64) (homeDie pa) with
  | some k => some ⟨0x14, BitVec.ofNat 64 k, va, 7, false⟩
  | none =>
    if bitOf q.flags 0 then some ⟨0x15, 0, va, 7, false⟩
    else if q.world ≠ s.worldOf ctx ∨ (bitOf q.flags 1 = false ∧ dieOf c ≠ q.home) then some ⟨0x11, 3, va, 7, false⟩
    else none

/-- A waiting operation performs: it waits no longer. -/
def State.serveOne (s : State) (w : Waiter) : State :=
  match (s.uidBank w.core w.uid).acc? w.acc with
  | none => s.dropWaiter w.block w.core w.uid w.acc
  | some a =>
    let s := s.dropWaiter w.block w.core w.uid w.acc
    let q := s.qblock w.block
    (s.putQ (s.uidBank w.core w.uid).ctx w.block { q with waiters := q.waiters - 1 }).moveElem w.block w.core w.uid a

/-- QUEUE_WAITER_SERVED (R271): while the oldest waiter of a list can perform, it performs in the same controller clk. A refill
needs a free entry of the reservation table (R275). -/
def State.serveQ (s : State) (pa : Nat) : Nat → State
  | 0 => s
  | fuel + 1 =>
    let q := s.qblock pa
    let kindOf (w : Waiter) : AccKind := (((s.uidBank w.core w.uid).acc? w.acc).map (·.kind)).getD .fence
    let room := (s.die (homeDie pa)).rtab.length < 8192
    let can (w : Waiter) : Bool :=
      match kindOf w with
      | .enq => decide (0 < q.free)
      | .refill _ => decide (0 < q.live) && decide room
      | .deq | .deqt => decide (0 < q.live)
      | _ => false
    let ws := s.waitersOf pa
    let enqs := (ws.filter (fun w => (kindOf w).isEnq)).head?
    let takes := (ws.filter (fun w => (kindOf w).isTake)).head?
    match (enqs.filter can).orElse (fun _ => takes.filter can) with
    | none => s
    | some w => (s.serveOne w).serveQ pa fuel

/-- A refill that waits for a table entry, at a controller event of its die (R275): its block is checked as for every operation (R265). -/
def State.serveRefill (s : State) (w : Waiter) : State :=
  let ctx := (s.uidBank w.core w.uid).ctx
  let va := (((s.uidBank w.core w.uid).acc? w.acc).map (·.va)).getD 0
  match s.queueFault w.core ctx w.block va with
  | none => s.serveOne w
  | some t =>
    let s := s.dropWaiter w.block w.core w.uid w.acc
    (if t.code = 0x14 then s.poisonQ ctx w.block else s).failAcc w.core w.uid w.acc t

/-- RESERVATION_TABLE_WAIT_END (R275): while the table of a die has a free entry, the oldest refill there that is the oldest consumer of its
queue (R271) and finds a live element performs, and then who can of its queue. -/
def State.wakeTable (s : State) (d : Nat) : Nat → State
  | 0 => s
  | fuel + 1 =>
    let x := s.die d
    let kindOf (w : Waiter) : AccKind := (((s.uidBank w.core w.uid).acc? w.acc).map (·.kind)).getD .fence
    let waits (w : Waiter) : Bool :=
      (kindOf w).isRefill && decide (0 < (s.qblock w.block).live) &&
        ((s.waitersOf w.block).find? (fun v => (kindOf v).isTake)) == some w
    if 8192 ≤ x.rtab.length then s
    else match x.waiters.find? waits with
      | some w =>
        let s := s.serveRefill w
        (s.serveQ w.block ((s.waitersOf w.block).length + 1)).wakeTable d fuel
      | none => s

/-- What follows a change of a block in the same controller clk: the waiters of the block are served, then a free table entry goes to the oldest
refill that waits for one (R271, R275). -/
def State.follow (s : State) (pa : Nat) : State :=
  let s := s.serveQ pa ((s.waitersOf pa).length + 1)
  s.wakeTable (homeDie pa) ((s.die (homeDie pa)).waiters.length + 1)

/-- A pop or a release of a latch that its block refuses: the element is gone from the table; a corrupt block is poisoned (R265), and on
a poisoned queue the operation acts on the strand only (R279). -/
def State.latchRefused (s : State) (ctx pa : Nat) (gone : Reserved → Bool) (t : Trap) : State × Option Trap :=
  let s := s.modDie (homeDie pa) fun d => { d with rtab := d.rtab.filter (fun r => !gone r) }
  let s := if t.code = 0x14 then s.poisonQ ctx pa else s
  (s.wakeTable (homeDie pa) ((s.die (homeDie pa)).waiters.length + 1), if t.code = 0x15 then none else some t)

/-- A pop of a latch (R273): RSV − 1, FREE + 1. Its entry of the reservation table goes. The answer is the failure found. -/
def State.popElem (s : State) (pa c uid n ctx : Nat) (va : Addr) : State × Option Trap :=
  let gone (r : Reserved) : Bool := r.block == pa && r.core == c && r.uid == uid && r.latch == n
  match s.queueFault c ctx pa va with
  | some t => s.latchRefused ctx pa gone t
  | none =>
    let s := s.modDie (homeDie pa) fun d => { d with rtab := d.rtab.filter (fun r => !gone r) }
    let q := s.qblock pa
    ((s.putQ ctx pa { q with rsv := q.rsv - 1, free := q.free + 1 }).follow pa, none)

/-- A release of a latched element at the tail (R272), from the copy of the reservation table (R275); one that cannot write its
element poisons the queue (R264). The answer is the failure found. -/
def State.releaseOf (s : State) (r : Reserved) : State × Option Trap :=
  match s.queueFault r.core r.ctx r.block r.va with
  | some t => s.latchRefused r.ctx r.block (fun x => x == r) t
  | none =>
    let s := s.modDie (homeDie r.block) fun d => { d with rtab := d.rtab.filter (fun x => x != r) }
    let q := s.qblock r.block
    match s.ringAt r.core r.ctx r.user q q.tail true with
    | (s, .error _) => ((s.poisonQ r.ctx r.block).follow r.block, none)
    | (s, .ok rp) =>
      let s := s.ringWrite r.ctx rp (bytesOfNat q.esize r.elem)
      let s := s.putQ r.ctx r.block { q with tail := (q.tail + 1) % 2 ^ 64, rsv := q.rsv - 1 }
      (s.follow r.block, none)
/-- A release that no operation of a strand asked for: at an exchange, at the end of a task or of a context (R276, R277). -/
def State.releaseElem (s : State) (r : Reserved) : State := (s.releaseOf r).1

/-- The entry of the reservation table that a latch holds. -/
def State.reservedOf (s : State) (pa c uid n : Nat) : Option Reserved :=
  (s.die (homeDie pa)).rtab.find? (fun r => r.block == pa && r.core == c && r.uid == uid && r.latch == n)

/-- QINIT at the controller (R268): `data` holds BASE, `aux` log2 cap, esize/8 − 1 and MULTIDIE. -/
def State.qinitPerform (s : State) (c uid : Nat) (a : Acc) : State :=
  let ctx := (s.uidBank c uid).ctx
  let q := s.qblock a.pa
  if s.bad a.pa 64 = false ∧ (q.firstBad (s.memNat a.pa 64) (homeDie a.pa)).isNone ∧ bitOf q.flags 0 = false ∧ (q.waiters ≠ 0 ∨ q.rsv ≠ 0) then
    s.failAcc c uid a.id ⟨0x14, 9, a.va, 7, false⟩
  else
    let cap := 2 ^ bitsOf a.aux 0 5
    (s.putQ ctx a.pa ⟨a.data, 8 * (bitsOf a.aux 5 6 + 1), cap, 0, 0, cap, 0, s.worldOf ctx, homeDie a.pa,
      2 * bitsOf a.aux 11 1, 0, 0, 0⟩).doneAcc c uid a.id 0

/-- QUEUE_PERFORM and LATCH_REFILL (R265, R266, R269, R272): the operation is checked and performs, or starts to wait. -/
def State.queuePerform (s : State) (c uid : Nat) (a : Acc) : State :=
  let ctx := (s.uidBank c uid).ctx
  let s := (s.readHome ctx a.pa 64).1
  match a.kind with
  | .qinit => s.qinitPerform c uid a
  | .pop n =>
    match s.popElem a.pa c uid n ctx a.va with
    | (s, some t) => s.failAcc c uid a.id t
    | (s, none) => s.doneAcc c uid a.id 0
  | .release n =>
    match s.reservedOf a.pa c uid n with
    | some r =>
      match s.releaseOf r with
      | (s, some t) => s.failAcc c uid a.id t
      | (s, none) => s.doneAcc c uid a.id 0
    | none => s.doneAcc c uid a.id 0
  | _ =>
    let q := s.qblock a.pa
    match s.queueFault c ctx a.pa a.va with
    | some t => (if t.code = 0x14 then s.poisonQ ctx a.pa else s).failAcc c uid a.id t
    | none =>
        let full : Bool := a.kind.isEnq && q.free == 0
        let empty : Bool := a.kind.isTake && q.live == 0
        let noEntry : Bool := (match a.kind with | .refill _ => true | _ => false) && decide (8192 ≤ (s.die (homeDie a.pa)).rtab.length)
        if full || empty || noEntry then
          let s := s.putQ ctx a.pa { q with waiters := q.waiters + 1 }
          let s := s.modDie (homeDie a.pa) fun d => { d with waiters := d.waiters ++ [⟨a.pa, c, uid, a.id⟩] }
          s.modAcc c uid a.id fun x => { x with st := .waiting, told := false }
        else (s.moveElem a.pa c uid a).follow a.pa

/-- An operation that waits, or that has not reached its controller, is withdrawn in one controller event (R272, R276, R277). -/
def State.withdraw (s : State) (c uid : Nat) (a : Acc) : State :=
  let s :=
    if a.st = .waiting then
      let s := s.dropWaiter a.pa c uid a.id
      let q := s.qblock a.pa
      if (q.firstBad (s.memNat a.pa 64) (homeDie a.pa)).isSome then s
      else s.putQ (s.uidBank c uid).ctx a.pa { q with waiters := q.waiters - 1 }
    else s
  s.modUid c uid fun b => { b with accs := b.accs.filter (fun x => x.id != a.id) }

/-! ### Group control blocks (R280-R283) -/

/-- A group control block (R280). -/
structure GBlock where
  members : Nat
  arrived : Nat
  gen : Nat
  world : Nat
  flags : Nat
  zero : Nat
  check : Nat
  deriving DecidableEq, Repr

def GBlock.parse (v : Nat) : GBlock :=
  { members := bitsOf v 0 32, arrived := bitsOf v 32 32, gen := bitsOf v 64 32, world := bitsOf v 96 8, flags := bitsOf v 104 8,
    zero := bitsOf v 112 368, check := bitsOf v 480 32 }
def GBlock.body (g : GBlock) : Nat :=
  g.members % 2 ^ 32 + (g.arrived % 2 ^ 32) * 2 ^ 32 + (g.gen % 2 ^ 32) * 2 ^ 64 + (g.world % 256) * 2 ^ 96
    + (g.flags % 256) * 2 ^ 104 + (g.zero % 2 ^ 368) * 2 ^ 112

/-- The controller's checks 1 to 3 of R280, which poison the group. -/
def GBlock.firstBad (g : GBlock) (v : Nat) : Option Nat :=
  if (crc32c (bytesOfNat 60 v)).toNat ≠ g.check then some 1
  else if g.zero ≠ 0 ∨ 2 ≤ g.flags then some 2
  else if 65535 < g.members ∨ (0 < g.members ∧ g.members ≤ g.arrived) ∨ (g.members = 0 ∧ g.arrived ≠ 0) then some 3
  else none

def State.gblock (s : State) (pa : Nat) : GBlock := GBlock.parse (s.memNat pa 64)
def State.putG (s : State) (ctx pa : Nat) (g : GBlock) : State := s.writePhys ctx pa (withCheck g.body)

/-- Poison a group (R280): waiting GBARs fail with GROUP_CORRUPT, check 4. -/
def State.poisonG (s : State) (ctx pa : Nat) : State :=
  let v := s.memNat pa 60
  let ws := s.waitersOf pa
  let s := s.writePhys ctx pa (withCheck (v ||| 2 ^ 104))
  let s := ws.foldl (fun s w => s.failAcc w.core w.uid w.acc ⟨0x16, 4, ((s.uidBank w.core w.uid).acc? w.acc |>.map (·.va)).getD 0, 7, false⟩) s
  s.modDie (homeDie pa) fun d => { d with waiters := d.waiters.filter (fun w => w.block != pa) }

/-- BARRIER_COMPLETE (R282): the completion test; every waiting GBAR of the group completes in one controller event. -/
def State.barrierTest (s : State) (ctx pa : Nat) (g : GBlock) : State :=
  if 0 < g.members ∧ g.arrived = g.members then
    let ws := s.waitersOf pa
    let s := s.putG ctx pa { g with gen := (g.gen + 1) % 2 ^ 32, arrived := 0 }
    let s := ws.foldl (fun s w => s.doneAcc w.core w.uid w.acc 0) s
    s.modDie (homeDie pa) fun d => { d with waiters := d.waiters.filter (fun w => w.block != pa) }
  else s.putG ctx pa g

/-- A LEAVE at the controller for context `ctx`, also for a task that ends (R283); the answer is the failing check. -/
def State.leaveGroup (s : State) (ctx pa : Nat) : State × Option Nat :=
  let g := s.gblock pa
  if s.bad pa 64 then (s, none)
  else if (g.firstBad (s.memNat pa 64)).isSome then (s.poisonG ctx pa, g.firstBad (s.memNat pa 64))
  else if bitOf g.flags 0 then (s, some 4)
  else if g.world ≠ s.worldOf ctx then (s, none)
  else if g.members = 0 then (s, some 6)
  else (s.barrierTest ctx pa { g with members := g.members - 1 }, none)

/-- GROUP_PERFORM (R280, R282). -/
def State.groupPerform (s : State) (c uid : Nat) (a : Acc) : State :=
  let ctx := (s.uidBank c uid).ctx
  let s := (s.readHome ctx a.pa 64).1
  let g := s.gblock a.pa
  let fail (s : State) (k : Nat) := s.failAcc c uid a.id ⟨0x16, BitVec.ofNat 64 k, a.va, 7, false⟩
  if s.bad a.pa 64 then s.failAcc c uid a.id (memTrap a.pa a.va)
  else match g.firstBad (s.memNat a.pa 64) with
  | some k => fail (s.poisonG ctx a.pa) k
  | none =>
    if bitOf g.flags 0 then fail s 4
    else if g.world ≠ s.worldOf ctx then s.failAcc c uid a.id ⟨0x11, 3, a.va, 7, false⟩
    else match a.kind with
      | .join => if g.members = 65535 then fail s 5
                 else (s.putG ctx a.pa { g with members := g.members + 1 }).doneAcc c uid a.id 0
      | .leave => if g.members = 0 then fail s 6
                  else (s.doneAcc c uid a.id 0).barrierTest ctx a.pa { g with members := g.members - 1 }
      | .gbar =>
        let s := s.modDie (homeDie a.pa) fun d => { d with waiters := d.waiters ++ [⟨a.pa, c, uid, a.id⟩] }
        let s := s.modAcc c uid a.id fun x => { x with st := .waiting, told := false }
        s.barrierTest ctx a.pa { g with arrived := g.arrived + 1 }
      | _ => s.doneAcc c uid a.id ((g.gen % 2 ^ 32) * 2 ^ 32 + (g.arrived % 2 ^ 16) * 2 ^ 16 + g.members % 2 ^ 16)

/-- At the end of a context a waiting GBAR has its arrival removed (R283). -/
def State.unarrive (s : State) (ctx pa : Nat) : State :=
  let g := s.gblock pa
  if (g.firstBad (s.memNat pa 64)).isSome then s else s.putG ctx pa { g with arrived := g.arrived - 1 }

end Sys2Proof.Machine
end

