-- ==== Sys2Proof/Machine/Sched.lean ====
section
/-!
DEFINITION. Records, continuation queues, join counters, completion logs, guards, the end of tasks and of contexts (R285-R302),
and the wake of clusters (R208, R210, R286, R343).
-/

namespace Sys2Proof.Machine

/-! ### Small parts -/

/-- Clk in `n` µs at the frequency in force, 600 MHz + 25 MHz × FREQ (R3, R341). -/
def State.usClk (s : State) (n : Nat) : Nat := n * (600 + 25 * s.pkg.freq)

/-- Put an event at the end of the present clk's agenda (log 1). -/
def State.push (s : State) (i : Instr) (e : EvArgs) : State := { s with agenda := s.agenda ++ [(i, e)] }

/-- A frequency-trace entry of a cluster: stamp, STEP, CAUSE (R216); a read of this clk still sees the entry that it replaces. -/
def State.traceEntry (s : State) (k cause : Nat) : State :=
  s.modCluster k fun c =>
    { c with traceOld := c.traceOld.filter (fun e => e.1 == s.clk) ++ [(s.clk, c.traceHead, mapGet (fun _ => 0) c.trace c.traceHead)],
             trace := mapSet (fun _ => 0) c.trace c.traceHead (BitVec.ofNat 64 (s.clk * 2 ^ 16 + s.pkg.freq * 2 ^ 8 + cause)),
             traceHead := (c.traceHead + 1) % 512,
             traceWraps := if c.traceHead = 511 then min (c.traceWraps + 1) 0xFFFF else c.traceWraps }

/-- Queue a user interrupt (R96); one that finds 16 queued is lost and sets UICAUSE.OVF. -/
def Bank.pushUi (b : Bank) (source detail : Nat) : Bank :=
  if b.uiq.length < 16 then { b with uiq := b.uiq ++ [(source, detail)] }
  else b.putCsr 0x022 (b.csrAt 0x022 ||| 0x80000000)

/-- OR flags into FLAGS, or hold them while the task holds its guard (R15, R298). -/
def Bank.addFlags (b : Bank) (f : BitVec 8) : Bank :=
  if f = 0 then b
  else if b.guarded then { b with heldFlags := b.heldFlags ||| f }
  else b.putCsr 0x009 (b.csrAt 0x009 ||| f.setWidth 64)

/-- Add matrix counts to MXCNT; each field saturates (R193). -/
def mxAdd (w : Word) (m : Nat × Nat × Nat × Nat) : Word :=
  let f (lo n : Nat) : Nat := min (fieldOf w lo 16 + n) 0xFFFF
  BitVec.ofNat 64 (f 48 m.1 * 2 ^ 48 + f 32 m.2.1 * 2 ^ 32 + f 16 m.2.2.1 * 2 ^ 16 + f 0 m.2.2.2)
/-- Merge a command's counts (AUF, NANB, OF, IV), or hold them under the guard (R194). -/
def Bank.addMx (b : Bank) (m : Nat × Nat × Nat × Nat) : Bank :=
  if b.guarded then { b with heldMx := b.heldMx ++ [m] } else b.putCsr 0x00A (mxAdd (b.csrAt 0x00A) m)

/-- World `w`'s WEVENT bit, and MSI-X vector 0 of its function (R336). -/
def State.wevent (s : State) (w bit : Nat) : State :=
  s.modWorld w fun x => { x with wevent := x.wevent ||| 2 ^ bit, msix := x.msix + 1 }

/-! ### Wakes (R208, R210, R286, R343) -/

/-- A wake request of a cluster: 20 W of the ramp allowance are charged, or the wake is delayed. On or waking, no effect. -/
def State.wakeCluster (s : State) (k : Nat) : State :=
  if (s.cluster k).power = .off ∧ (s.die (k / 16)).state = .released then
    if 20000 ≤ s.pkg.allowance then
      let s := { s with pkg := { s.pkg with allowance := s.pkg.allowance - 20000 } }
      (s.modCluster k fun c => { c with power := .ramp (s.clk + s.usClk 3), rest := false, wakeWaits := false }).traceEntry k 5
    else s.modCluster k fun c => { c with wakeWaits := true, rest := false }
  else s

/-- An event sets a bit of SCHEDSTAT: it stands whatever clears the register in the same clk (R288). -/
def Die.schedBit (x : Die) (clk bit : Nat) : Die :=
  { x with sched := x.sched ||| BitVec.ofNat 64 (2 ^ bit),
           schedSet := (clk + 1, (if x.schedSet.1 = clk + 1 then x.schedSet.2 else 0) ||| 2 ^ bit) }

/-! ### Completion logs (R297) -/

/-- Whether a context's log has a free slot that is not reserved (R329). -/
def Ctx.slotFree (c : Ctx) : Bool := decide ((c.logwr + c.reserved + 2 ^ 32 - c.logrd) % 2 ^ 32 < c.loglen)

/-- LOGRD is read afresh whenever a reservation would otherwise fail (R329). -/
def State.refreshLog (s : State) (ctx : Nat) : State :=
  if (s.ctx ctx).slotFree then s
  else
    let (s, v, _) := s.readNat ctx ((s.ctx ctx).desc + 0x38) 4
    s.modCtx ctx fun c => { c with logrd := v }

/-- The number of the entry that a context's next slot takes: entries written and slots reserved come before it (R297, R329). -/
def Ctx.nextSlot (c : Ctx) : Nat := (c.logwr + c.reserved) % 2 ^ 32

/-- Write entry `n`, and count it in LOGWR, in the descriptor as well (R297, R329). An entry whose ring address has no translation
writes no memory (log 14). -/
def State.writeLog (s : State) (n : Nat) (e : LogEntry) : State :=
  let c := s.ctx e.ctx
  let va : Addr := c.logbase + BitVec.ofNat 80 (16 * (n % c.loglen))
  let bytes := bytesOfNat 10 e.va.toNat ++ bytesOfNat 1 e.state ++ bytesOfNat 1 e.cause ++ bytesOfNat 2 e.flags
    ++ bytesOfNat 2 (n % 2 ^ 16)
  let s := match s.walk 0 e.ctx va (needOf 2 16) false with
    | (s, .ok t) => if t.peer.isNone then s.writePhys e.ctx (t.at va) bytes else s
    | (s, .error _) => s
  let s := s.modCtx e.ctx fun c => { c with logwr := (c.logwr + 1) % 2 ^ 32 }
  if isSlab c.desc then s else s.putMemNat (c.desc + 0x34) 4 ((c.logwr + 1) % 2 ^ 32)

/-- An entry without a reservation: it takes the next free slot, or is held by die `d`; beyond 256 held it is dropped and sets
LOGLOST (R297). -/
def State.logNow (s : State) (d : Nat) (e : LogEntry) : State :=
  let s := s.refreshLog e.ctx
  if (s.ctx e.ctx).slotFree ∧ (s.die d).heldLog.all (fun h => h.ctx != e.ctx) then s.writeLog (s.ctx e.ctx).nextSlot e
  else if (s.die d).heldLog.length < 256 then s.modDie d fun x => { x with heldLog := x.heldLog ++ [e] }
  else s.modDie d fun x => x.schedBit s.clk 4

/-- An entry of a popped record, in the slot reserved at its pop (R297). -/
def State.logReserved (s : State) (n : Nat) (e : LogEntry) : State :=
  (s.modCtx e.ctx fun c => { c with reserved := c.reserved - 1 }).writeLog n e

/-! ### Records (R285, R286, R287) -/

/-- Write the STATE byte of a record (R286, R290, R296). -/
def State.setRecState (s : State) (ctx pa v : Nat) : State := s.writePhys ctx (pa + 0x2F) [BitVec.ofNat 8 v]

/-- R285: whether a record is malformed, for an inserting world `w`. -/
def State.recMalformed (s : State) (w v : Nat) : Bool :=
  bitOf v 0 || bitsOf v 80 4 != 0 || bitsOf v 144 16 != bitsOf v 64 16 || bitsOf v 252 4 != 0
    || s.worldOf (bitsOf v 240 12) != w || decide (2048 < bitsOf v 320 16) || decide (16 < bitsOf v 336 8)
    || !([3, 4, 5, 0xFF].contains (bitsOf v 376 8) || decide (bitsOf v 376 8 < 3))

/-- The scheduler status of a refused insertion or decrement (R288). -/
def State.schedNote (s : State) (d bit : Nat) (va : Addr) : State :=
  s.modDie d fun x => { x.schedBit s.clk bit with schedAddr := va }

/-- What an insertion came to. -/
inductive Inserted where
  | ok
  | malformed
  | dup
  | dead
  | stopped
  deriving DecidableEq, Repr

/-- RECORD_INSERT (R285, R286, R327): the record at `pa` is checked and inserted as ready or waiting; clusters named in CMASK
wake. `ctxIns` is the inserting context. -/
def State.insertRec (s : State) (va : Addr) (pa ctxIns : Nat) : State × Inserted :=
  let v := s.memNat pa 64
  let d := homeDie pa
  let w := s.worldOf ctxIns
  let st := bitsOf v 376 8
  let ctx := bitsOf v 240 12
  if w ≠ 0 ∧ (s.world w).tdisp ≠ .run then (s, .stopped)
  else if st < 3 then (s.schedNote d 0 va, .dup)
  else if s.recMalformed w v then (s.logNow d ⟨ctxIns, va, 4, 0x21, 0⟩, .malformed)
  else if (s.ctx ctx).dead ∨ (s.ctx ctx).loaded = false then (s, .dead)
  else
    let join := bitsOf v 256 32
    let cmask := bitsOf v 352 16
    let s := s.setRecState ctx pa (if join = 0 then 1 else 0)
    let s := s.modDie d fun x => { x with recs := x.recs ++
      [⟨pa, va, ctx, join == 0, bitsOf v 368 4, bitsOf v 288 32, cmask, bitsOf v 372 4, bitsOf v 320 16, bitsOf v 336 8,
        bitsOf v 344 8⟩] }
    let wake := (List.range 16).filter (fun c => bitOf cmask c)
    (wake.foldl (fun s c => s.wakeCluster (16 * d + c)) s, .ok)

/-- JOIN_DECREMENT (R287). -/
def State.joinDec (s : State) (va : Addr) (pa ctx : Nat) : State :=
  let d := homeDie pa
  let j := s.memNat (pa + 0x20) 4
  if j = 0 then s.schedNote d 1 va
  else
    let s := s.writePhys ctx (pa + 0x20) (bytesOfNat 4 (j - 1))
    if j = 1 ∧ s.memNat (pa + 0x2F) 1 = 0 then
      let s := s.setRecState ctx pa 1
      s.modDie d fun x => { x with recs := x.recs.map (fun r => if r.pa = pa then { r with ready := true } else r) }
    else s

/-! ### Staged work (R298, R299) -/

/-- Release staged entries in program order and let the deferred copies start (R159, R296, R299). -/
def Bank.release (b : Bank) : Bank :=
  { b with accs := b.accs ++ b.staged, staged := [], copies := b.copies ++ b.deferred, deferred := [] }

/-- Merge withheld flags and counts (R296, R299). -/
def Bank.mergeHeld (b : Bank) : Bank :=
  let b := b.putCsr 0x009 (b.csrAt 0x009 ||| b.heldFlags.setWidth 64)
  let b := b.putCsr 0x00A (b.heldMx.foldl mxAdd (b.csrAt 0x00A))
  { b with heldFlags := 0, heldMx := [] }

/-- GUARD_LOST (R299). -/
def Bank.loseGuard (b : Bank) : Bank :=
  let b := b.release.mergeHeld
  let b := (b.putStatus 10 false).putStatus 9 true
  { b with task := b.task.map fun t => { t with lost := true } }

/-- Put an operation into its queue, or stage it in a task that holds its guard (R298); a 257th entry costs the guard. -/
def Bank.enqueueAcc (b : Bank) (a : Acc) (stages : Bool) : Bank :=
  if b.guarded && stages then
    if b.staged.length < 256 then { b with staged := b.staged ++ [a] }
    else
      let b := b.loseGuard
      { b with accs := b.accs ++ [a] }
  else { b with accs := b.accs ++ [a] }

/-! ### The end of a task (R296, R300, R301) -/

/-- FLAGS of a log entry (R297). -/
def Task.logFlags (t : Task) : Nat := t.lost.toNat + (if t.trunc then 16 else 0)

/-- The bank after its task: the position holds no task, nothing of it is under way. -/
def Bank.clearTask (b : Bank) : Bank :=
  { b with task := none, pend := [], flight := [], owed := none, go := none, spec := none, accs := [], staged := [], deferred := [],
           copies := [], heldFlags := 0, heldMx := [], old := [], fenced := [], far := [], uiq := [], uiReady := true, shadow := none, mrep := none,
           async := [], entry := none, wait := none, walkErr := none, parked := [], win := none, winKept := [], dictErr := none,
           dictDue := false, idle := none, nv := none, gmem := [], q := [], resend := [], run := 0, goRun := none, runUi := 0 }

/-- Group operations that will not perform, since their strand is gone (R283): a JOIN that has not performed, or that was refused, is no
membership; a LEAVE that was the first of them on its group is carried out. -/
def State.settleGroups (s : State) (ctx c p : Nat) : State :=
  let b := s.bank c p
  let ops := b.accs.filter (fun a => (a.kind == .join || a.kind == .leave) && a.st == .queued)
  let first (a : Acc) : Bool := (ops.find? (fun x => x.pa == a.pa)).any (fun x => x.id == a.id)
  let out (pa : Nat) : Bool := b.accs.any (fun a => a.kind == .join && a.pa == pa && (a.st == .queued || a.err.isSome))
  let s := (ops.filter (fun a => a.kind == .leave && first a)).foldl (fun s a => (s.leaveGroup ctx a.pa).1) s
  s.modBank c p fun b => { b with accs := b.accs.filter (fun a => ops.all (fun x => x.id != a.id)), gmem := b.gmem.filter (fun g => !out g.2.2) }

/-- The task leaves each of its groups (R283). -/
def State.leaveGroups (s : State) (ctx : Nat) (b : Bank) : State :=
  b.gmem.foldl (fun s g => if g.2.2 = 0 then s else (s.leaveGroup ctx g.2.2).1) s

/-- The accesses that go on where a task ends without waiting for them: those already queued keep performing in queue order, but for what
only its strand can receive, or its queues and groups withdraw (R256, R277, R283). -/
def Acc.outlives (a : Acc) : Bool :=
  a.st != .performed && a.st != .failed && match a.kind with
    | .load _ | .store | .atomic _ | .cdld _ | .spill | .fence | .lsmark | .efence | .qinit | .enq | .release _ | .spawn | .jdec => true
    | _ => false

/-- What outlives a task that ends without waiting for it: copies that have started complete, without join decrements or interrupts (R300),
and queued accesses keep performing (R256). It is kept as a bank of its own, numbered from 8 on. -/
def State.leaveWork (s : State) (c : Nat) (b : Bank) : State :=
  let ys := (b.copies.filter (fun y => y.st != .queued)).map (fun y => { y with cm := 0 })
  let as := (b.accs.filter Acc.outlives).map (fun a => { a with dest := none })
  if ys = [] ∧ as = [] then s
  else
    let p := ((s.core c).banks.map (·.1)).foldl max 7 + 1
    s.setBank c p { copies := ys, accs := as, nextId := b.nextId, gone := some { ctx := b.ctx, uid := b.uid } }

/-- The end of a task clears the record's entry of the rollback table (R300). -/
def State.forgetRollbacks (s : State) (c pa : Nat) : State :=
  s.modDie (dieOf c) fun x => { x with rollbacks := mapSet (fun _ => 0) x.rollbacks pa 0 }

/-- The strand at a position ends its task: STATE, log entry (in the reserved slot), position free (R296). -/
def State.finish (s : State) (c p st cause flags : Nat) : State :=
  match (s.bank c p).task with
  | none => s
  | some t =>
    let s := s.settleGroups t.ctx c p
    let b := s.bank c p
    let s := (s.leaveGroups t.ctx b).forgetRollbacks c t.pa
    let s := s.setRecState t.ctx t.pa st
    let s := s.logReserved t.logSlot ⟨t.ctx, t.va, st, cause, flags⟩
    (s.modBank c p (fun b => b.clearTask)).leaveWork c b

def Reg.isLatch : Reg → Bool
  | .q _ => true
  | _ => false

/-- A latch ends unbound. -/
def Bank.unbind (b : Bank) (n : Nat) : Bank := { b.qput n {} with pend := b.pend.filter (fun r => r != .q n) }

/-- A failed refill whose report has not come: the cause will be raised all the same, and touches no latch any more (R273). -/
def Acc.unlatched (a : Acc) : Acc := match a.kind with | .refill n => { a with kind := .pop n, dest := none } | _ => a

/-- What QUNB does to latch `n` of a bank (R272, R276, R277): a refill that has not performed is withdrawn; an element in the latch, or one
that a refill has taken, is released at the tail by an operation of its own, in program order (R267). `keep` keeps the binding, unless a
refill has failed, which unbinds it (R273). -/
def State.releaseLatch (s : State) (c p n : Nat) (keep : Bool) : State :=
  let b := s.bank c p
  let l := b.qget n
  if l.bound = false then s
  else
    let mine := b.accs.filter (fun a => a.kind == .refill n)
    let s := (mine.filter (fun a => a.st != .performed)).foldl (fun s a => s.withdraw c b.uid a) s
    let failed := mine.any (fun a => a.err.isSome)
    let holds := l.full || (s.reservedOf l.pa c b.uid n).isSome
    s.modBank c p fun b =>
      let b := if keep && !failed then b.qput n { l with full := false, elem := 0 } else b.unbind n
      let accs := (b.accs.filter (fun a => a.kind != .refill n || a.err.isSome)).map (fun a => if a.kind = .refill n then a.unlatched else a)
      if holds then
        { b with accs := accs ++ [{ id := b.nextId, kind := .release n, order := s.order, va := l.va, pa := l.pa, size := 64 }], nextId := b.nextId + 1 }
      else { b with accs := accs }

/-- The bound latches of a strand, one after the other (R276, R277). -/
def State.releaseBound (s : State) (c p : Nat) (keep : Bool) : State :=
  (((s.bank c p).q.filter (fun e => e.2.bound)).map (·.1)).foldl (fun s n => s.releaseLatch c p n keep) s

/-- The latched elements of a strand, but for those that a pop which has issued will discard (R267, R273). -/
def State.latched (s : State) (c : Nat) (b : Bank) : List Reserved :=
  [0, 1, 2, 3].flatMap (fun d => (s.die d).rtab.filter (fun r =>
    r.core == c && r.uid == b.uid && b.accs.all (fun a => a.kind != .pop r.latch || a.pa != r.block)))

/-- A strand that is gone: its refills are withdrawn, and its elements come back from the reservation table at once (R277). -/
def State.releaseLatches (s : State) (c p : Nat) : State :=
  let b := s.bank c p
  let s := s.modBank c p fun b => { b with accs := b.accs.filter (fun a => match a.kind with | .pop _ => false | _ => true) }
  let s := (b.accs.filter (fun a => a.kind.isRefill && a.st != .performed)).foldl (fun s a => s.withdraw c b.uid a) s
  let s := (s.latched c (s.bank c p)).foldl (fun s r => s.releaseElem r) s
  s.modBank c p fun b => { b with q := [], pend := b.pend.filter (fun r => !r.isLatch), accs := b.accs.filter (fun a => !a.kind.isRefill) }

/-- ROLLBACK (R300): staged work, deferred copies, withheld flags and counts are discarded; the record is logged REQUEUED with
ROLLBACK and inserted again, or ends FAILED at its fourth rollback or while the table of its die is full. -/
def State.rollback (s : State) (c p : Nat) : State :=
  let s := s.releaseLatches c p
  match (s.bank c p).task with
  | none => s
  | some t =>
    let d := dieOf c
    let n := mapGet (fun _ => 0) (s.die d).rollbacks t.pa
    let full := 256 ≤ (s.die d).rollbacks.length
    let s := s.modBank c p fun b => { b with staged := [], deferred := [], heldFlags := 0, heldMx := [] }
    let s := s.modCore c fun x =>
      { x with mq := x.mq.map (fun m => if m.uid = t.uid then { m with uid := 0 } else m),
               mrun := x.mrun.map (fun m => if m.uid = t.uid then { m with uid := 0 } else m) }
    if 3 ≤ n ∨ full then
      s.finish c p 4 0 (t.logFlags + 8)
    else
      let s := s.finish c p 5 0 (t.logFlags + 8)
      let s := s.modDie d fun x => { x with rollbacks := mapSet (fun _ => 0) x.rollbacks t.pa (n + 1) }
      (s.insertRec t.va t.pa t.ctx).1

/-- R301: the records that a task named and that are still waiting end FAILED with DEP_FAIL. -/
def State.depFail (s : State) (ctx : Nat) (named : List (Nat × Addr)) : State :=
  named.foldl (fun s n =>
    let d := homeDie n.1
    if (s.die d).recs.any (fun r => r.pa == n.1 && !r.ready) then
      let s := s.modDie d fun x => { x with recs := x.recs.filter (fun r => r.pa != n.1) }
      (s.setRecState ctx n.1 4).logNow d ⟨bitsOf (s.memNat (n.1 + 0x1E) 2) 0 12, n.2, 4, 0, 2⟩
    else s) s

/-! ### The end of a context (R302) -/

/-- Whether a piece of journal work writes for the open transaction (R218). -/
def JWork.ofTxn : JWork → Bool
  | .record _ | .commit => true
  | _ => false

/-- A core's request for the lease is withdrawn, with its signals. -/
def Lease.withdraw (l : Lease) (c : Nat) : Lease :=
  { l with reqs := l.reqs.filter (fun r => r != c), sigs := l.sigs.filter (fun g => g.1 != c), reqCtx := l.reqCtx.filter (fun e => e.1 != c) }

/-- Operand slots, and a slot that is zeroed with its error marks (R177, R179). -/
def Cluster.slot (k : Cluster) (o : Nat) : Slot := mapGet (fun _ => ({} : Slot)) k.slots o
def Cluster.setSlot (k : Cluster) (o : Nat) (x : Slot) : Cluster := { k with slots := mapSet (fun _ => ({} : Slot)) k.slots o x }
def Cluster.zeroSlot (k : Cluster) (o : Nat) : Cluster :=
  let k := k.setSlot o { k.slot o with bytes := [], layout := 0 }
  { k with bad := k.bad.filter (fun l => match l with | .operand _ w => w / 65536 != o | _ => true) }

/-- Slots of a terminated context are zeroed, their claims emptied and their tags cleared (R192). -/
def Cluster.dropSlots (k : Cluster) (slots : List Nat) : Cluster :=
  slots.foldl (fun k o =>
    let k := k.zeroSlot o
    k.setSlot o { k.slot o with claim := none, tag := none, zeroing := none }) k

/-- The started commands of a context on the core that use slots: M commands, and copies into a slot. -/
def Core.slotUsers (x : Core) (ctx : Nat) : List Nat :=
  (x.mrun.filter (fun m => m.ctx == ctx)).map (·.id)
    ++ x.banks.flatMap (fun e => (e.2.copies.filter (fun y => y.ctx == ctx && y.st == .started && bitsOf y.desc.toNat 88 8 == 2)).map (·.id))
/-- Whether a started command is still under way. -/
def Core.runs (x : Core) (id : Nat) : Bool :=
  x.mrun.any (fun m => m.id == id) || x.banks.any (fun e => e.2.copies.any (fun y => y.id == id && y.st == .started))

/-- The slots that a terminated context claims on a core go at once, or once its started commands have completed; until then they are
claimed by a number that no context has, so that a context installed in its place does not find them its own (R192). -/
def State.doomSlots (s : State) (c ctx : Nat) : State :=
  let slots := ((s.cluster (clusterOf c)).slots.filter (fun e => e.2.claim == some (c, ctx))).map (·.1)
  let cmds := (s.core c).slotUsers ctx
  if slots = [] then s
  else if cmds = [] then s.modCluster (clusterOf c) fun k => k.dropSlots slots
  else
    (s.modCore c fun x => { x with doomed := x.doomed ++ [(cmds, slots)] }).modCluster (clusterOf c) fun k =>
      slots.foldl (fun k o => k.setSlot o { k.slot o with claim := some (c, 4096 + ctx) }) k

/-- A command of the core has ended: slots that waited for it alone go (R192). -/
def State.dropIdle (s : State) (c : Nat) : State :=
  let x := s.core c
  let (stay, go) := x.doomed.partition (fun e => e.1.any x.runs)
  if go = [] then s
  else (s.setCore c { x with doomed := stay }).modCluster (clusterOf c) fun k => k.dropSlots (go.flatMap (·.2))

/-- Everything that a strand has waiting at a controller is withdrawn, and its latches are released (R277, R283). Only the end of its context
takes back the arrival of a waiting GBAR. -/
def State.withdrawStrand (s : State) (ctx c p : Nat) (ends : Bool) : State :=
  let s := s.settleGroups ctx c p
  let b := s.bank c p
  let uid := b.uid
  let s := (b.accs.filter (fun a => a.st == .waiting && a.kind == .gbar)).foldl
    (fun s a => (if ends then s.unarrive ctx a.pa else s).dropWaiter a.pa c uid a.id) s
  let s := (b.accs.filter (fun a => a.st == .waiting && a.peer.isNone && a.kind != .gbar)).foldl (fun s a => s.withdraw c uid a) s
  s.releaseLatches c p

/-- The part of R302 on one core: strands stop and are logged, M-queue entries that have not started go, frames are zeroed. -/
def State.termCore (s : State) (ctx cause c : Nat) : State :=
  let mine := [0, 1, 2, 3, 4].filter (fun p => match ((s.core c).bank p).task with | some t => t.ctx == ctx | none => false)
  let s := mine.foldl (fun s p =>
    let s := s.withdrawStrand ctx c p true
    s.finish c p 4 cause (((s.bank c p).task.map (·.logFlags)).getD 0 + 4)) s
  let x := s.core c
  let frames := (List.range 16).filter (fun f => mapGet (fun _ => none) x.frameOwner f == some ctx)
  let x := { x with mq := x.mq.filter (fun m => m.ctx != ctx),
                    bad := x.bad.filter (fun (l : ErrLoc) => match l with | .accum _ o => !frames.contains (o / 65536) | _ => true),
                    frameDirty := x.frameDirty.filter (fun f => !frames.contains f),
                    frameOwner := frames.foldl (fun m f => mapSet (fun _ => none) m f none) x.frameOwner,
                    accum := frames.foldl (fun m f => mapClear m (65536 * f) 65536) x.accum }
  let s := s.setCore c x
  (s.doomSlots c ctx).modCluster (clusterOf c) fun k =>
    if k.lease.reqCtx.contains (c, ctx) then { k with lease := k.lease.withdraw c } else k

/-- The records that wait in the engine's queue (R203); the piece that the engine works on has left it. -/
def Slab.queued (x : Slab) : Nat :=
  ((if x.att.isSome then x.work.drop 1 else x.work).filter (fun w => match w with | .record _ => true | _ => false)).length

/-- Whether an attempt of the open transaction is in progress. -/
def Slab.busyWithTxn (x : Slab) : Bool := x.att.isSome && x.work.head?.any JWork.ofTxn

/-- A transaction is discarded: its queued records go, QNEXT returns to its first unit (R200, R219). -/
def Slab.dropTxn (x : Slab) (t : Txn) : Slab :=
  { x with txn := none, qnext := t.first, att := if x.busyWithTxn then none else x.att,
           work := x.work.filter (fun w => !w.ofTxn) }

/-- An abort waits for the attempt in progress (R203). -/
def Slab.abandon (x : Slab) (t : Txn) : Slab :=
  if x.busyWithTxn then { x with txn := some { t with aborting := true } } else x.dropTxn t

/-- CONTEXT_TERMINATE (R302). -/
def State.terminate (s : State) (ctx cause : Nat) : State :=
  let s := s.modCtx ctx fun c => { c with dead := true, saved := [], savedBad := [] }
  let s := (s.cores.map (·.1)).foldl (fun s c => s.termCore ctx cause c) s
  let s := [0, 1, 2, 3].foldl (fun s d =>
    let mine := (s.die d).recs.filter (fun r => r.ctx == ctx)
    let s := s.modDie d fun x => { x with
      recs := x.recs.filter (fun r => r.ctx != ctx),
      faults := x.faults.filter (fun e => e.ctx != ctx), faultWait := x.faultWait.filter (fun e => e.ctx != ctx),
      walks := x.walks.filter (fun w => w.ctx != ctx) }
    mine.foldl (fun s r => (s.setRecState ctx r.pa 4).logNow d ⟨ctx, r.va, 4, 0, 4⟩) s) s
  let s := (s.clusters.map (·.1)).foldl (fun s k => s.modCluster k fun x =>
    match x.slab.txn with
    | some t =>
      if t.owner = ctx ∧ t.committed = false then { x with slab := x.slab.abandon t } else x
    | none => x) s
  (s.dropOwner ctx).wevent (s.worldOf ctx) 2

end Sys2Proof.Machine
end

