-- ==== Sys2Proof/Machine/Ops.lean ====
section
/-!
DEFINITION. The shared operations of instructions: how an instruction comes out (`Try`, `settle`), taking a trap (R21-R23, R88,
R301) and returning from one (R29), parking (R232), rolling back a speculative region (R87), and landing results (R15, R16).
-/

namespace Sys2Proof.Machine

/-! ### How an instruction comes out -/

/-- What a slot instruction comes to: its next state, a trap, or a block of its bundle with what the block itself does (a walk
asked for, a fault entry written). -/
inductive Try where
  | ok (s : State)
  | trap (t : Trap)
  | block (w : Wait) (s : State)

/-- A decode-stage trap (R21). -/
def illegal (op : Nat) : Trap := { code := 0x02, info := BitVec.ofNat 64 op, decode := true }
/-- PRIV (R25): [7:0] opcode, [27:16] CSR index. -/
def privTrap (op csr : Nat) : Trap := { code := 0x05, info := BitVec.ofNat 64 (op + csr * 65536), decode := true }
/-- REG_RANGE (R25, R92): file 0 vector, 1 tile, 2 semaphore. -/
def rangeTrap (file n : Nat) : Trap := { code := 0x04, info := BitVec.ofNat 64 (file * 4096 + n), decode := true }
/-- An execution-stage trap without a data address. -/
def causeTrap (code : Nat) (info : Word) : Trap := { code := code, info := info }
/-- ALIGN with the required alignment and the address (R25). -/
def alignTrap (n : Nat) (a : Addr) : Trap := { code := 0x06, info := BitVec.ofNat 64 n, addr := a }
/-- GUARD_OVERFLOW with the opcode (R298). -/
def guardTrap (op : Nat) : Trap := { code := 0x19, info := BitVec.ofNat 64 op }

/-! ### Code units (R43, R44) -/

/-- The code address CODEHI:pc (R43). -/
def Bank.codeAddr (b : Bank) (pc : Word) : Addr := (b.csrAt 0x00B).setWidth 16 ++ pc

/-- The unit at a code address, where the translation is at hand, of a peer's memory as well; used for the length of a bundle in sequence.
Where a later delay bundle has no translation at trap entry, the spec states no ETGT of a transfer that is not taken: the bundle counts as
one unit (DESIGN CHOICE, log 76). -/
def State.peekUnit (s : State) (c p : Nat) (pc : Word) : Nat :=
  let b := s.bank c p
  match (s.lookup c b.ctx (b.codeAddr pc) (needOf 5 2) (!b.priv)).2 with
  | .ok (pa, none) => s.memNat pa 2
  | .ok (pa, some x) => natOfBytes [Config.peerByte x pa, Config.peerByte x (pa + 1)]
  | .error _ => 0

/-- The address after `n` bundles in sequence from `pc` (R44). -/
def State.seqAfter (s : State) (c p : Nat) : Nat → Word → Word
  | 0, pc => pc
  | n + 1, pc => s.seqAfter c p n (if s.peekUnit c p pc = 0xFFFF then pc + 50 else pc + 2)

/-! ### Speculative regions -/

/-- Whether every result issued since SPEC has landed or been delivered (R87). -/
def Bank.specQuiet (b : Bank) : Bool :=
  match b.spec with
  | none => true
  | some r => b.flight.all (fun l => decide (l.order < r.order)) &&
      b.accs.all (fun a => decide (a.order < r.order) || a.dest.isNone)

/-- The register of the bank that a result writes whole. -/
def RegWrite.reg : RegWrite → Option Reg
  | .s i _ => some (.s i)
  | .sh n _ => some (.sh n)
  | .a n _ => some (.a n)
  | .p n _ => some (.p n)
  | _ => Option.none

/-- The bank without the results and accesses that bundle `n` itself has issued. -/
def Bank.without (b : Bank) (n : Nat) : Bank :=
  { b with flight := b.flight.filter (fun l => l.order != n), accs := b.accs.filter (fun a => a.order != n) }

/-- The results of bundle `n` for the registers `lost` are lost: they do not land, and are not delivered (R87, R98). -/
def Bank.voidOwn (b : Bank) (n : Nat) (lost : Reg → Bool) : Bank :=
  { b with
    flight := b.flight.map fun l => if l.order = n ∧ l.write.reg.any lost = true then { l with write := .none } else l,
    accs := b.accs.map fun a => if a.order = n ∧ a.dest.any lost = true then { a with dest := none } else a,
    pend := b.pend.filter fun r => !(lost r && b.accs.any fun a => a.order == n && a.dest == some r) }

/-- The registers that a region checkpoints (R85). -/
def Reg.checkpointed : Reg → Bool
  | .s _ | .sh _ | .a _ | .p _ => true
  | _ => false

/-- Restore the checkpoint and discard held stores (R87). FLAGS, semaphores, vectors and frames stand. -/
def Bank.rollSpec (b : Bank) : Bank :=
  match b.spec with
  | none => b
  | some r =>
    { (b.putCsr 0x01A r.lcnt).putStatus 8 false with s := r.s, a := r.a, p := r.p, spec := none, owed := none }

/-! ### Traps -/

/-- CAUSE as trap entry writes it (R14, R22). -/
def causeWord (t : Trap) (o : Option Owed) : Word :=
  let (dly, wsh, wdir) := match o with
    | some w => (w.left, w.shift.isSome && w.target.isSome, w.shift == some true && w.target.isSome)
    | none => (0, false, false)
  BitVec.ofNat 64 (t.code + t.slot * 256 + dly * 2048 + wsh.toNat * 8192 + wdir.toNat * 16384)

/-- The address of TVEC, EPC or ETGT as a pc takes it: bit 0 of the pc is always zero (R43, log 65). -/
def evenPc (v : Word) : Word := v &&& 0xFFFFFFFFFFFFFFFE

/-- Trap entry proper (R22, R88): the region is rolled back, CAUSE, EPC, EINFO, EADDR, EADDRH and STATUS are written, the owed
target is saved, and issue resumes at CODEHI:TVEC. -/
def State.enterTrap (s : State) (c p : Nat) (t : Trap) (epc : Word) : State :=
  let b := s.bank c p
  let epc := match b.spec with | some r => r.recover | none => epc
  let owed := if b.spec.isSome then none else b.owed
  let etgt := match owed with
    | some w => some (w.target.getD (s.seqAfter c p w.left epc))
    | none => none
  let b := b.rollSpec
  let b := b.putCsr 0x001 (causeWord t owed)
  let b := b.putCsr 0x002 epc
  let b := b.putCsr 0x003 t.info
  let b := b.putCsr 0x004 (t.addr.setWidth 64)
  let b := b.putCsr 0x005 ((t.addr >>> 64).setWidth 64)
  let b := match etgt with | some e => b.putCsr 0x007 e | none => b
  let b := ((b.putStatus 15 b.priv).putStatus 14 true).putStatus 13 true
  s.setBank c p { b with pc := evenPc (b.csrAt 0x006), run := evenPc (b.csrAt 0x006), owed := none, go := none, entry := none,
                         wait := none, idle := none }

/-- Whether trap entry need not wait: nothing exposed is in flight, and a region is quiet (R22, R88). -/
def Bank.entryReady (b : Bank) : Bool := b.flight.isEmpty && b.specQuiet

/-- The records that a strand will still name (R301): in SPAWNs and JDECs that stand in its queues, and as the JREC of its copies. -/
def State.namesLater (s : State) (c p : Nat) : State × List (Nat × Addr) :=
  let b := s.bank c p
  let queued := (b.accs.filter (fun a => a.kind == .spawn || a.kind == .jdec)).map (fun a => (a.pa, a.va))
  (b.copies.filter (fun y => y.cm % 2 == 1)).foldl (fun (r : State × List (Nat × Addr)) y =>
    let va : Addr := BitVec.ofNat 80 (bitsOf y.desc.toNat 0x380 80)
    match r.1.lookup c y.ctx va (needOf 3 64) y.user with
    | (s, .ok (pa, none)) => (s, r.2 ++ [(pa, va)])
    | (s, _) => (s, r.2)) (s, queued)

/-- The waiting records that a task named, or will still name, end FAILED with DEP_FAIL (R301). -/
def State.failNamed (s : State) (c p : Nat) (t : Task) : State :=
  let (s, later) := s.namesLater c p
  s.depFail t.ctx (t.named ++ later)

/-- A task that has lost its guard consumes an uncorrectable error and ends FAILED (R301): so does a record that one of its queued SPAWNs
inserts later and that waits. -/
def State.endUncorrected (s : State) (c p : Nat) (t : Task) : State :=
  let s := (s.releaseLatches c p).failNamed c p t
  (s.finish c p 4 0x18 t.logFlags).modCore c fun x => { x with banks := x.banks.map fun e =>
    (e.1, { e.2 with gone := e.2.gone.map fun g => if g.uid = t.uid then { g with dep := true } else g }) }

/-- Taking a trap at the bundle at `epc` (R21-R23, R88, R301). With EXL set it is a double trap and the context is terminated.
UE_CONSUMED rolls a guarded task back, and ends a task that lost its guard. Otherwise entry happens at once, or waits for the
exposed results in flight (TRAP_ENTRY). -/
def State.takeTrap (s : State) (c p : Nat) (t : Trap) (epc : Word) : State :=
  let b := s.bank c p
  if t.code = 0x18 ∧ b.guarded then s.rollback c p
  else if t.code = 0x18 ∧ b.status 9 then
    match b.task with
    | none => s
    | some k => s.endUncorrected c p k
  else if b.exl then s.terminate b.ctx t.code
  else if b.entryReady then s.enterTrap c p t epc
  else s.modBank c p fun b => { b with entry := some (t, epc), wait := none }

/-- The pieces of a spill or fill that failed are to be accepted again, before those of a shift that still waits (R81). -/
def Bank.retryWindow (b : Bank) : Bank :=
  if b.winKept = [] then b
  else
    let w := b.win.getD { pieces := [] }
    { b with win := some { w with pieces := b.winKept ++ w.pieces }, winKept := [] }

/-- ERET (R29): STATUS.PRIV := SPV, EXL := 0, pc := CODEHI:EPC, and what CAUSE says is still owed. The trap has emptied the loop
buffer (R84), and the window's failed pieces are retried (R81). -/
def Bank.eret (b : Bank) : Bank :=
  let cause := b.csrAt 0x001
  let dly := fieldOf cause 11 2
  let b' := ((b.putStatus 14 (b.status 15)).putStatus 13 false).retryWindow
  { b' with go := some (b.csrAt 0x002), goRun := some 0,
            owed := if dly = 0 then none
              else some ⟨some (b.csrAt 0x007), dly, if cause.getLsbD 13 then some (cause.getLsbD 14) else none⟩ }

/-! ### Parking (R232, R233) -/

/-- The fault-queue entry of a strand (R233). -/
def State.faultOf (s : State) (c p : Nat) (va : Addr) (kind : Nat) (t : Trap) (acc : Option Nat) : FaultEntry :=
  let b := s.bank c p
  { seq := 0, va := va, ctx := b.ctx, kind := kind, core := c, uid := b.uid,
    strand := c * 8 + (if p = 4 then 4 + b.lastPos else p), world := s.worldOf b.ctx,
    evict := t.info.getLsbD 6, malformed := t.info.getLsbD 7,
    groups := (List.range 4).map (fun i => bitsOf (mapGet (fun _ => ((0 : Addr), 0)) b.gmem i).1.toNat 6 24),
    slot := t.slot, accId := acc }

/-- Write an entry, or leave it waiting while the queue holds 4,096 (R232, R233). -/
def State.putFault (s : State) (e : FaultEntry) : State :=
  let d := dieOf e.core
  let x := s.die d
  if 4096 ≤ x.faults.length then s.setDie d { x with faultWait := x.faultWait ++ [e] }
  else
    let s := s.setDie d { x with faults := x.faults ++ [{ e with seq := x.faultNext.toNat }], faultNext := x.faultNext + 1 }
    s.modUid e.core e.uid fun b => { b with parked := b.parked ++ [x.faultNext.toNat] }

/-! ### Landing (R15, R16, R20, R85) -/

/-- Write the bits of a mask. -/
def merge {n : Nat} (old new mask : BitVec n) : BitVec n := (old &&& ~~~mask) ||| (new &&& mask)

/-- The write of a result to its own bank; a result issued before an open region also reaches the checkpoint (R85). -/
def Bank.applyWrite (b : Bank) (w : RegWrite) (order : Nat) : Bank :=
  let early (r : Spec) : Bool := decide (order < r.order)
  match w with
  | .s i v => { b with
      s := mapSet (fun _ => 0) b.s i v, badS := b.badS.filter (· != i),
      spec := b.spec.map fun r => if early r then { r with s := mapSet (fun _ => 0) r.s i v } else r }
  | .sh n v => { b with shadow := b.shadow.map fun m => mapSet (fun _ => 0) m n v }
  | .a n v => { b with
      a := mapSet (fun _ => 0) b.a n v,
      spec := b.spec.map fun r => if early r then { r with a := mapSet (fun _ => 0) r.a n v } else r }
  | .p n v => { b with
      p := mapSet (fun _ => 0) b.p n v,
      spec := b.spec.map fun r => if early r then { r with p := mapSet (fun _ => 0) r.p n v } else r }
  | .k n v m => { b with k := mapSet carryReset b.k n (merge (b.kget n) v m) }
  | .cdb n off v =>
    let d := merge (b.cdget n) (BitVec.ofNat 1024 (natOfBytes v) <<< (8 * off))
      (BitVec.ofNat 1024 (2 ^ (8 * v.length) - 1) <<< (8 * off))
    { b with cd := mapSet (fun _ => 0) b.cd n d }
  | .csr i v m =>
    let b' := b.putCsr i (merge (b.csrAt i) v m)
    let b' := if i = 0x01A then { b' with spec := b'.spec.map fun r => if early r then { r with lcnt := merge r.lcnt v m } else r } else b'
    if i = 0x015 ∨ i = 0x016 then { b' with dictDue := true, run := 0 } else b'
  | .openSpec _ | .none | .v _ _ _ | .frame _ _ | .scratch _ _ => b

/-- SPEC opens its region after everything of its clk has landed (R85). -/
def Bank.openSpec (b : Bank) (recover : Word) (order : Nat) : Bank :=
  { b.putStatus 8 true with
    spec := some { recover := recover, order := order, s := b.s, a := b.a, p := b.p, lcnt := b.csrAt 0x01A } }

/-- Mark a vector group as written by task `uid` (R95); a background save of it begins again. -/
def Core.dirtyGroup (x : Core) (g uid ctx : Nat) : Core :=
  let t := mapGet (fun _ => ({} : VGroup)) x.vtag g
  { x with groupSave := x.groupSave.filter (fun e => e.1 != g), vtag := mapSet (fun _ => ({} : VGroup)) x.vtag g { t with uid := some uid, ctx := ctx, dirty := true } }

/-- The write of a result to a file of the core, or to a register that the cluster or the package shares. -/
def State.applyShared (s : State) (c p : Nat) (w : RegWrite) : State :=
  let b := s.bank c p
  match w with
  | .v i v m => s.modCore c fun x =>
      { x.healVector i m with vfile := mapSet (fun _ => 0) x.vfile i (merge (mapGet (fun _ => 0) x.vfile i) v m) }.dirtyGroup (i / 8) b.uid b.ctx
  | .frame off v => s.modCore c fun x => { x.healAccum off v with accum := putBytes x.accum off v, frameDirty := (off / 65536 :: x.frameDirty).eraseDups }
  | .scratch off v => s.modCore c fun x => { x.healScratch off v with scratch := putBytes x.scratch off v }
  | .csr i v m =>
    if i = 0x120 then s.modCluster (clusterOf c) fun k => { k with jfi := merge k.jfi v m }
    else if i = 0x130 then { s with pkg := { s.pkg with grace := (merge (BitVec.ofNat 64 s.pkg.grace) v m).toNat } }
    else if i = 0x062 then s.modCluster (clusterOf c) fun k => { k with traceSel := fieldOf v 48 9 }
    else s
  | _ => s

/-- Whether a result writes a file that the strands of a core share, or a register of the cluster or the package. -/
def RegWrite.shared : RegWrite → Bool
  | .v _ _ _ | .frame _ _ | .scratch _ _ => true
  | .csr i _ _ => i == 0x120 || i == 0x130 || i == 0x062
  | _ => false

/-- The write that puts back what a result to a shared file replaces. -/
def State.replaced (s : State) (c : Nat) (w : RegWrite) : RegWrite :=
  let x := s.core c
  let k := s.cluster (clusterOf c)
  match w with
  | .v i _ m => .v i (mapGet (fun _ => 0) x.vfile i) m
  | .frame off v => .frame off (v.mapIdx fun i e => e.map fun _ => mapGet (fun _ => 0) x.accum (off + i))
  | .scratch off v => .scratch off (v.mapIdx fun i e => e.map fun _ => mapGet (fun _ => 0) x.scratch (off + i))
  | .csr i _ m =>
    .csr i (if i = 0x120 then k.jfi else if i = 0x130 then BitVec.ofNat 64 s.pkg.grace else BitVec.ofNat 64 (k.traceSel * 2 ^ 48)) m
  | _ => .none

/-- Note what a result of the bundle last issued replaces (R99). -/
def State.noteUndo (s : State) (c order : Nat) (w : RegWrite) : State :=
  match (s.core c).issue.undo with
  | some u =>
    if u.order = order ∧ w.shared = true then
      s.modCore c fun x => { x with issue := { x.issue with undo := some { u with olds := s.replaced c w :: u.olds } } }
    else s
  | none => s

/-- Land one result: the bank's part or the shared part. -/
def State.landOne (s : State) (c p : Nat) (l : Landing) : State :=
  if l.write.shared then (s.noteUndo c l.order l.write).applyShared c p l.write
  else s.modBank c p fun b => b.applyWrite l.write l.order

/-- The results of all strands of a core that are due for its shared files land in issue order: the later-issued write is kept (R16,
R137, R164). -/
def State.landShared (s : State) (c : Nat) : State :=
  let isDue (l : Landing) : Bool := decide (l.due ≤ s.clk) && l.write.shared
  let due := sortByOrder ((s.core c).banks.flatMap fun e => (e.2.flight.filter isDue).map fun l => (l.order, (e.1, l)))
  let s := due.foldl (fun s e => s.landOne c e.2.1 e.2.2) s
  s.modCore c fun x => { x with banks := x.banks.map fun e =>
    (e.1, { e.2 with flight := e.2.flight.map fun l => if isDue l then { l with write := .none } else l }) }

/-- The results due at the end of this clk land, in issue order; then their flags and IDZ are merged (R15, R16); then a SPEC of
this clk opens its region (R85). -/
def State.landDue (s : State) (c p : Nat) : State :=
  let b := s.bank c p
  let due := b.flight.filter (fun l => decide (l.due ≤ s.clk))
  let s := s.modBank c p fun b => { b with flight := b.flight.filter (fun l => !decide (l.due ≤ s.clk)) }
  let s := due.foldl (fun s l => s.landOne c p l) s
  s.modBank c p fun b =>
    let b := due.foldl (fun b l => b.addFlags l.flags) b
    let b := if due.any (·.idz) then b.putStatus 0 true else b
    due.foldl (fun b l => match l.write with | .openSpec r => b.openSpec r l.order | _ => b) b

/-! ### How a meaning ends -/

/-- A slot instruction that came to `r`, from the state `s` at its issue. -/
def State.settle (s : State) (r : Try) : Host.Outcome State Fault Refusal :=
  match r with
  | .ok t => .next t
  | .trap t =>
    .next { s.takeTrap s.cur.core s.cur.pos { t with slot := if t.slot = 7 then s.cur.slot else t.slot } s.cur.pc with
      mark := .trapped { t with slot := if t.slot = 7 then s.cur.slot else t.slot } }
  | .block w t => .next { t.modBk (fun b => { b with wait := some w }) with mark := .blocked w }

/-- A guarded slot instruction: a false guard makes it a no-op (R12, R42). -/
def State.guarded (s : State) (g : Guard) (r : Try) : Host.Outcome State Fault Refusal :=
  if s.guard g then s.settle r else .next s

/-- A privileged instruction raises PRIV in user mode (R51). -/
def State.needPriv (s : State) (op : Nat) (r : Try) : Try := if s.bk.priv then r else .trap (privTrap op 0)

/-- Where an instruction may not stand: a delay bundle (R73), a region (R86), a user-interrupt handler (R97). -/
def State.inDelay (s : State) : Bool := s.bk.owed.isSome
def State.forbid (s : State) (op : Nat) (delay region handler : Bool) (r : Try) : Try :=
  if (delay && s.inDelay) || (region && s.bk.inSpec) || (handler && s.bk.inui) then .trap (illegal op) else r
/-- An M or C slot other than the no-op may not stand in a region (R86). -/
def State.engineSlot (s : State) (op : Nat) (r : Try) : Host.Outcome State Fault Refusal := s.settle (s.forbid op false true false r)

end Sys2Proof.Machine
end

