-- ==== Sys2Proof/Machine/Scalar.lean ====
section
/-!
DEFINITION. Scalar arithmetic, logic, shifts, constants, bitfields, compares, predicate logic and address registers
(R60-R71).
-/

namespace Sys2Proof.Machine

/-- SignExt(IMM, 17) (R36). -/
def imm17 (imm : BitVec 17) : Word := imm.signExtend 64

/-- MULH: bits [127:64] of the signed product (R62). -/
def mulHigh (x y : Word) : Word := BitVec.ofInt 64 ((x.toInt * y.toInt) / 2 ^ 64)
/-- MULHU: bits [127:64] of the unsigned product (R62). -/
def mulHighU (x y : Word) : Word := BitVec.ofNat 64 ((x.toNat * y.toNat) / 2 ^ 64)
/-- DIV: quotient rounded toward zero; all ones for y = 0; −2^63 by −1 gives −2^63 (R62, R63). -/
def divS (x y : Word) : Word := if y = 0 then BitVec.allOnes 64 else BitVec.ofInt 64 (Int.tdiv x.toInt y.toInt)
/-- REM: xs − ys·DIV(x, y); x for y = 0 (R62, R63). -/
def remS (x y : Word) : Word := if y = 0 then x else BitVec.ofInt 64 (Int.tmod x.toInt y.toInt)
def divU (x y : Word) : Word := if y = 0 then BitVec.allOnes 64 else BitVec.ofNat 64 (x.toNat / y.toNat)
def remU (x y : Word) : Word := if y = 0 then x else BitVec.ofNat 64 (x.toNat % y.toNat)
/-- Shifts by the whole unsigned value of y (R62). -/
def shiftL (x y : Word) : Word := if 64 ≤ y.toNat then 0 else x <<< y.toNat
def shiftR (x y : Word) : Word := if 64 ≤ y.toNat then 0 else x >>> y.toNat
def shiftA (x y : Word) : Word := x.sshiftRight (min y.toNat 64)
def minS (x y : Word) : Word := if x.toInt ≤ y.toInt then x else y
def maxS (x y : Word) : Word := if x.toInt ≤ y.toInt then y else x
def minU (x y : Word) : Word := if x.toNat ≤ y.toNat then x else y
def maxU (x y : Word) : Word := if x.toNat ≤ y.toNat then y else x
/-- Leading zero bits of the low `n` bits (R65). -/
def leadingZeros : Nat → Nat → Nat
  | 0, _ => 0
  | n + 1, v => if v.testBit n then 0 else 1 + leadingZeros n v
/-- Set bits among the low `n` bits (R65). -/
def popCount : Nat → Nat → Nat
  | 0, _ => 0
  | n + 1, v => (v.testBit n).toNat + popCount n v
/-- MOVK: 16 bits of the destination replaced (R66). -/
def movkWord (old : Word) (imm : BitVec 16) (hw : BitVec 2) : Word := putField old (16 * hw.toNat) 16 imm.toNat
/-- EXT: the field zero- or sign-extended (R68); `len` is the length minus 1. -/
def extField (x : Word) (fpos len : BitVec 6) (sign : Bool) : Word :=
  let f := fieldOf x fpos.toNat (len.toNat + 1)
  if sign then BitVec.ofInt 64 (signedOf (len.toNat + 1) f) else BitVec.ofNat 64 f
/-- INS: the low bits of the source put into the destination (R68). -/
def insField (old x : Word) (fpos len : BitVec 6) : Word :=
  putField old fpos.toNat (len.toNat + 1) (fieldOf x 0 (len.toNat + 1))

/-- All ones or all zeros over the 256 bits of a predicate (R69). -/
def predAll (c : Bool) : Pred := if c then BitVec.allOnes 256 else 0
/-- PSET: bit i is 1 for i below n (R70). -/
def predBelow (n : Nat) : Pred := BitVec.ofNat 256 (2 ^ n - 1)

/-- An address that is out of 80 bits raises ADDR_OVERFLOW, with EINFO 0 for S0 and 1 for S1 (R71). -/
def State.checkedA (s : State) (d : BitVec 4) (x : Int) : Try :=
  if 0 ≤ x ∧ x < 2 ^ 80 then .ok (s.landA d (BitVec.ofInt 80 x)) else .trap (causeTrap 0x1F (BitVec.ofNat 64 s.cur.slot))

/-- ADD (R62) -/
def execAdd (g : Guard) (d a b : BitVec 6) (s : State) : Host.Outcome State Fault Refusal :=
  s.guarded g (.ok (s.landS d (s.sr a + s.sr b) 1))

/-- ADDI (R64) -/
def execAddi (g : Guard) (d a : BitVec 6) (imm : BitVec 17) (s : State) : Host.Outcome State Fault Refusal :=
  s.guarded g (.ok (s.landS d (s.sr a + imm17 imm) 1))

/-- SUB (R62) -/
def execSub (g : Guard) (d a b : BitVec 6) (s : State) : Host.Outcome State Fault Refusal :=
  s.guarded g (.ok (s.landS d (s.sr a - s.sr b) 1))

/-- MUL (R62) -/
def execMul (g : Guard) (d a b : BitVec 6) (s : State) : Host.Outcome State Fault Refusal :=
  s.guarded g (.ok (s.landS d (s.sr a * s.sr b) 3))

/-- MULH (R62) -/
def execMulh (g : Guard) (d a b : BitVec 6) (s : State) : Host.Outcome State Fault Refusal :=
  s.guarded g (.ok (s.landS d (mulHigh (s.sr a) (s.sr b)) 3))

/-- MULHU (R62) -/
def execMulhu (g : Guard) (d a b : BitVec 6) (s : State) : Host.Outcome State Fault Refusal :=
  s.guarded g (.ok (s.landS d (mulHighU (s.sr a) (s.sr b)) 3))

/-- DIV, latency 18; IDZ at the landing clk for a zero divisor (R62, R63) -/
def execDiv (g : Guard) (d a b : BitVec 6) (s : State) : Host.Outcome State Fault Refusal :=
  s.guarded g (.ok (s.landS d (divS (s.sr a) (s.sr b)) 18 (s.sr b == 0)))

/-- DIVU, latency 18; IDZ at the landing clk for a zero divisor (R62, R63) -/
def execDivu (g : Guard) (d a b : BitVec 6) (s : State) : Host.Outcome State Fault Refusal :=
  s.guarded g (.ok (s.landS d (divU (s.sr a) (s.sr b)) 18 (s.sr b == 0)))

/-- REM, latency 18; IDZ at the landing clk for a zero divisor (R62, R63) -/
def execRem (g : Guard) (d a b : BitVec 6) (s : State) : Host.Outcome State Fault Refusal :=
  s.guarded g (.ok (s.landS d (remS (s.sr a) (s.sr b)) 18 (s.sr b == 0)))

/-- REMU, latency 18; IDZ at the landing clk for a zero divisor (R62, R63) -/
def execRemu (g : Guard) (d a b : BitVec 6) (s : State) : Host.Outcome State Fault Refusal :=
  s.guarded g (.ok (s.landS d (remU (s.sr a) (s.sr b)) 18 (s.sr b == 0)))

/-- AND (R62) -/
def execAnd (g : Guard) (d a b : BitVec 6) (s : State) : Host.Outcome State Fault Refusal :=
  s.guarded g (.ok (s.landS d (s.sr a &&& s.sr b) 1))

/-- OR (R62) -/
def execOr (g : Guard) (d a b : BitVec 6) (s : State) : Host.Outcome State Fault Refusal :=
  s.guarded g (.ok (s.landS d (s.sr a ||| s.sr b) 1))

/-- XOR (R62) -/
def execXor (g : Guard) (d a b : BitVec 6) (s : State) : Host.Outcome State Fault Refusal :=
  s.guarded g (.ok (s.landS d (s.sr a ^^^ s.sr b) 1))

/-- ANDI (R64) -/
def execAndi (g : Guard) (d a : BitVec 6) (imm : BitVec 17) (s : State) : Host.Outcome State Fault Refusal :=
  s.guarded g (.ok (s.landS d (s.sr a &&& imm17 imm) 1))

/-- ORI (R64) -/
def execOri (g : Guard) (d a : BitVec 6) (imm : BitVec 17) (s : State) : Host.Outcome State Fault Refusal :=
  s.guarded g (.ok (s.landS d (s.sr a ||| imm17 imm) 1))

/-- XORI (R64) -/
def execXori (g : Guard) (d a : BitVec 6) (imm : BitVec 17) (s : State) : Host.Outcome State Fault Refusal :=
  s.guarded g (.ok (s.landS d (s.sr a ^^^ imm17 imm) 1))

/-- SHL (R62) -/
def execShl (g : Guard) (d a b : BitVec 6) (s : State) : Host.Outcome State Fault Refusal :=
  s.guarded g (.ok (s.landS d (shiftL (s.sr a) (s.sr b)) 1))

/-- SHR (R62) -/
def execShr (g : Guard) (d a b : BitVec 6) (s : State) : Host.Outcome State Fault Refusal :=
  s.guarded g (.ok (s.landS d (shiftR (s.sr a) (s.sr b)) 1))

/-- SAR (R62) -/
def execSar (g : Guard) (d a b : BitVec 6) (s : State) : Host.Outcome State Fault Refusal :=
  s.guarded g (.ok (s.landS d (shiftA (s.sr a) (s.sr b)) 1))

/-- SHLI (R64) -/
def execShli (g : Guard) (d a cnt : BitVec 6) (s : State) : Host.Outcome State Fault Refusal :=
  s.guarded g (.ok (s.landS d (shiftL (s.sr a) (cnt.setWidth 64)) 1))

/-- SHRI (R64) -/
def execShri (g : Guard) (d a cnt : BitVec 6) (s : State) : Host.Outcome State Fault Refusal :=
  s.guarded g (.ok (s.landS d (shiftR (s.sr a) (cnt.setWidth 64)) 1))

/-- SARI (R64) -/
def execSari (g : Guard) (d a cnt : BitVec 6) (s : State) : Host.Outcome State Fault Refusal :=
  s.guarded g (.ok (s.landS d (shiftA (s.sr a) (cnt.setWidth 64)) 1))

/-- MIN (R62) -/
def execMin (g : Guard) (d a b : BitVec 6) (s : State) : Host.Outcome State Fault Refusal :=
  s.guarded g (.ok (s.landS d (minS (s.sr a) (s.sr b)) 1))

/-- MAX (R62) -/
def execMax (g : Guard) (d a b : BitVec 6) (s : State) : Host.Outcome State Fault Refusal :=
  s.guarded g (.ok (s.landS d (maxS (s.sr a) (s.sr b)) 1))

/-- MINU (R62) -/
def execMinu (g : Guard) (d a b : BitVec 6) (s : State) : Host.Outcome State Fault Refusal :=
  s.guarded g (.ok (s.landS d (minU (s.sr a) (s.sr b)) 1))

/-- MAXU (R62) -/
def execMaxu (g : Guard) (d a b : BitVec 6) (s : State) : Host.Outcome State Fault Refusal :=
  s.guarded g (.ok (s.landS d (maxU (s.sr a) (s.sr b)) 1))

/-- CLZ (R65) -/
def execClz (g : Guard) (d a : BitVec 6) (s : State) : Host.Outcome State Fault Refusal :=
  s.guarded g (.ok (s.landS d (BitVec.ofNat 64 (leadingZeros 64 (s.sr a).toNat)) 1))

/-- POPC (R65) -/
def execPopc (g : Guard) (d a : BitVec 6) (s : State) : Host.Outcome State Fault Refusal :=
  s.guarded g (.ok (s.landS d (BitVec.ofNat 64 (popCount 64 (s.sr a).toNat)) 1))

/-- MOVI (R66) -/
def execMovi (g : Guard) (d : BitVec 6) (imm : BitVec 17) (s : State) : Host.Outcome State Fault Refusal :=
  s.guarded g (.ok (s.landS d (imm17 imm) 1))

/-- MOVK reads its whole destination at issue (R61, R66) -/
def execMovk (g : Guard) (d : BitVec 6) (imm : BitVec 16) (hw : BitVec 2) (s : State) : Host.Outcome State Fault Refusal :=
  s.guarded g (.ok (s.landS d (movkWord (s.sr d) imm hw) 1))

/-- SEL (R67) -/
def execSel (g : Guard) (d : BitVec 6) (pc : BitVec 4) (a b : BitVec 6) (s : State) : Host.Outcome State Fault Refusal :=
  s.guarded g (.ok (s.landS d (if (s.pr pc).getLsbD 0 then s.sr a else s.sr b) 1))

/-- CEQ (R69) -/
def execCeq (g : Guard) (pd : BitVec 4) (a b : BitVec 6) (s : State) : Host.Outcome State Fault Refusal :=
  s.guarded g (.ok (s.landP pd (predAll (s.sr a == s.sr b)) 1))

/-- CNE (R69) -/
def execCne (g : Guard) (pd : BitVec 4) (a b : BitVec 6) (s : State) : Host.Outcome State Fault Refusal :=
  s.guarded g (.ok (s.landP pd (predAll (s.sr a != s.sr b)) 1))

/-- CLT (R69) -/
def execClt (g : Guard) (pd : BitVec 4) (a b : BitVec 6) (s : State) : Host.Outcome State Fault Refusal :=
  s.guarded g (.ok (s.landP pd (predAll (decide ((s.sr a).toInt < (s.sr b).toInt))) 1))

/-- CLE (R69) -/
def execCle (g : Guard) (pd : BitVec 4) (a b : BitVec 6) (s : State) : Host.Outcome State Fault Refusal :=
  s.guarded g (.ok (s.landP pd (predAll (decide ((s.sr a).toInt ≤ (s.sr b).toInt))) 1))

/-- CLTU (R69) -/
def execCltu (g : Guard) (pd : BitVec 4) (a b : BitVec 6) (s : State) : Host.Outcome State Fault Refusal :=
  s.guarded g (.ok (s.landP pd (predAll (decide ((s.sr a).toNat < (s.sr b).toNat))) 1))

/-- CLEU (R69) -/
def execCleu (g : Guard) (pd : BitVec 4) (a b : BitVec 6) (s : State) : Host.Outcome State Fault Refusal :=
  s.guarded g (.ok (s.landP pd (predAll (decide ((s.sr a).toNat ≤ (s.sr b).toNat))) 1))

/-- CEQI (R69) -/
def execCeqi (g : Guard) (pd : BitVec 4) (a : BitVec 6) (imm : BitVec 17) (s : State) : Host.Outcome State Fault Refusal :=
  s.guarded g (.ok (s.landP pd (predAll (s.sr a == imm17 imm)) 1))

/-- CLTI (R69) -/
def execClti (g : Guard) (pd : BitVec 4) (a : BitVec 6) (imm : BitVec 17) (s : State) : Host.Outcome State Fault Refusal :=
  s.guarded g (.ok (s.landP pd (predAll (decide ((s.sr a).toInt < (imm17 imm).toInt))) 1))

/-- PAND (R70) -/
def execPand (g : Guard) (pd pa pb : BitVec 4) (s : State) : Host.Outcome State Fault Refusal :=
  s.guarded g (.ok (s.landP pd (s.pr pa &&& s.pr pb) 1))

/-- POR (R70) -/
def execPor (g : Guard) (pd pa pb : BitVec 4) (s : State) : Host.Outcome State Fault Refusal :=
  s.guarded g (.ok (s.landP pd (s.pr pa ||| s.pr pb) 1))

/-- PXOR (R70) -/
def execPxor (g : Guard) (pd pa pb : BitVec 4) (s : State) : Host.Outcome State Fault Refusal :=
  s.guarded g (.ok (s.landP pd (s.pr pa ^^^ s.pr pb) 1))

/-- PNOT (R70) -/
def execPnot (g : Guard) (pd pa : BitVec 4) (s : State) : Host.Outcome State Fault Refusal :=
  s.guarded g (.ok (s.landP pd (~~~(s.pr pa)) 1))

/-- PSET (R70) -/
def execPset (g : Guard) (pd : BitVec 4) (n : BitVec 9) (s : State) : Host.Outcome State Fault Refusal :=
  s.guarded g (.ok (s.landP pd (predBelow n.toNat) 1))

/-- PANY (R70) -/
def execPany (g : Guard) (pd pa : BitVec 4) (s : State) : Host.Outcome State Fault Refusal :=
  s.guarded g (.ok (s.landP pd (predAll (s.pr pa != 0)) 1))

/-- EXT (R68) -/
def execExt (g : Guard) (d a fpos len : BitVec 6) (s : State) : Host.Outcome State Fault Refusal :=
  s.guarded g (.ok (s.landS d (extField (s.sr a) fpos len false) 1))

/-- EXT.S (R68) -/
def execExtS (g : Guard) (d a fpos len : BitVec 6) (s : State) : Host.Outcome State Fault Refusal :=
  s.guarded g (.ok (s.landS d (extField (s.sr a) fpos len true) 1))

/-- INS reads its whole destination at issue (R61, R68) -/
def execIns (g : Guard) (d a fpos len : BitVec 6) (s : State) : Host.Outcome State Fault Refusal :=
  s.guarded g (.ok (s.landS d (insField (s.sr d) (s.sr a) fpos len) 1))

/-- ADDA (R71) -/
def execAdda (g : Guard) (ad aa : BitVec 4) (b : BitVec 6) (s : State) : Host.Outcome State Fault Refusal :=
  s.guarded g (s.checkedA ad ((s.ar aa).toNat + (s.sr b).toInt))

/-- ADDAI (R71) -/
def execAddai (g : Guard) (ad aa : BitVec 4) (imm : BitVec 17) (s : State) : Host.Outcome State Fault Refusal :=
  s.guarded g (s.checkedA ad ((s.ar aa).toNat + imm.toInt))

/-- MOVA (R71) -/
def execMova (g : Guard) (ad : BitVec 4) (a : BitVec 6) (s : State) : Host.Outcome State Fault Refusal :=
  s.guarded g (.ok (s.landA ad ((s.sr a).setWidth 80)))

/-- MOVAH keeps bits [63:0] of its destination (R61, R71) -/
def execMovah (g : Guard) (ad : BitVec 4) (a : BitVec 6) (s : State) : Host.Outcome State Fault Refusal :=
  s.guarded g (.ok (s.landA ad (((s.sr a).setWidth 16) ++ ((s.ar ad).setWidth 64))))

/-- RDA (R71) -/
def execRda (g : Guard) (d : BitVec 6) (aa : BitVec 4) (s : State) : Host.Outcome State Fault Refusal :=
  s.guarded g (.ok (s.landS d ((s.ar aa).setWidth 64) 1))

/-- RDAH (R71) -/
def execRdah (g : Guard) (d : BitVec 6) (aa : BitVec 4) (s : State) : Host.Outcome State Fault Refusal :=
  s.guarded g (.ok (s.landS d (((s.ar aa) >>> 64).setWidth 64) 1))

/-- CEQA (R71) -/
def execCeqa (g : Guard) (pd aa ab : BitVec 4) (s : State) : Host.Outcome State Fault Refusal :=
  s.guarded g (.ok (s.landP pd (predAll (s.ar aa == s.ar ab)) 1))

/-- SUBA, checked against a signed 64-bit range (R71) -/
def execSuba (g : Guard) (d : BitVec 6) (aa ab : BitVec 4) (s : State) : Host.Outcome State Fault Refusal :=
  let x : Int := (s.ar aa).toNat - (s.ar ab).toNat
  s.guarded g (if -2 ^ 63 ≤ x ∧ x < 2 ^ 63 then .ok (s.landS d (BitVec.ofInt 64 x) 1)
    else .trap (causeTrap 0x1F (BitVec.ofNat 64 s.cur.slot)))

/-- NOP (R35) -/
def execNop  (s : State) : Host.Outcome State Fault Refusal :=
  .next s

end Sys2Proof.Machine
end

