-- ==== Sys2Proof/Machine/Control.lean ====
section
/-!
DEFINITION. Control transfers and delay bundles (R73-R77), the register window (R76-R81), LOOP (R83), speculative regions
(R85-R87), YIELD (R89), traps and returns (R28, R29), SWAP (R94), user interrupts (R97, R98), CSRs (R26, R27), PHASE (R295).
-/

namespace Sys2Proof.Machine

/-! ### Record mode (R309, R310) -/

/-- The address in the save area's part for a core (R291). -/
def Ctx.savePart (c : Ctx) (core off : Nat) : Addr := c.save + BitVec.ofNat 80 (core * 0x1A0000 + off)

/-- Where an access of `n` bytes of core `core`'s save area lands (R291); a slab takes no stores (R199). -/
def State.saveAt (s : State) (core ctx : Nat) (va : Addr) (n : Nat) (write : Bool) : State × Option Nat :=
  match s.walk (dieOf core) ctx va (needOf (if write then 2 else 1) n) false with
  | (s, .ok e) => (s, if e.peer.isNone && !(write && isSlab (e.at va)) then some (e.at va) else none)
  | (s, .error _) => (s, none)

/-- A write to the save area; one that is denied terminates the context with WINDOW_SPILL_FAULT (R291). -/
def State.saveWrite (s : State) (ctx core off : Nat) (bytes : List Byte) : State :=
  let va := (s.ctx ctx).savePart core off
  let r := (pageParts va.toNat bytes.length).foldl (fun (r : State × Bool) q =>
    if r.2 then r
    else match r.1.saveAt core ctx (va + BitVec.ofNat 80 q.1) q.2 true with
      | (s, some pa) => (s.writePhys ctx pa ((bytes.drop q.1).take q.2), false)
      | (s, none) => (s, true)) (s, false)
  if r.2 then r.1.terminate ctx 0x1C else r.1

/-- FLAGS, MXCNT, CPSTAT and CPCRC as a bank image begins with them (log 72). -/
def Bank.merged (b : Bank) : List Byte := [0x009, 0x00A, 0x058, 0x059].flatMap (fun n => bytesOfNat 8 (b.csrAt n).toNat)

/-- The image of a bank in the save area (R93, R291): the spec gives its place and not its layout, which log 72 names: the words that engines
merge, pc, the window's frame, the physical scalars, a0-a15, p0-p15, k0-k3, cd0-cd31, and the CSRs by number. -/
def Bank.image (b : Bank) : List Byte :=
  b.merged ++ bytesOfNat 8 b.pc.toNat ++ bytesOfNat 8 b.wbase
    ++ (List.range 256).flatMap (fun i => bytesOfNat 8 (mapGet (fun _ => (0 : Word)) b.s i).toNat)
    ++ (List.range 16).flatMap (fun i => bytesOfNat 10 (mapGet (fun _ => (0 : Addr)) b.a i).toNat)
    ++ (List.range 16).flatMap (fun i => bytesOfNat 32 (mapGet (fun _ => (0 : Pred)) b.p i).toNat)
    ++ (List.range 4).flatMap (fun i => bytesOfNat 512 (b.kget i).toNat)
    ++ (List.range 32).flatMap (fun i => bytesOfNat 128 (b.cdget i).toNat)
    ++ ((List.range 256).filter (fun i => (csrMasks i).isSome)).flatMap (fun i => bytesOfNat 8 (b.csrAt i).toNat)

/-- What an engine merges into a strand that is not resident goes to its image in the save area as well (R15, R157, R194, R291). The shadow bank
holds the registers themselves. -/
def State.saveMerged (s : State) (c p : Nat) : State :=
  let b := s.bank c p
  if p = 4 ∧ b.task.isSome then s.saveWrite b.ctx c 0x180000 b.merged else s

/-- A read of the save area, with the same fate; a word of 8 bytes that is uncorrectable answers true (R303). -/
def State.saveRead (s : State) (ctx core off n : Nat) : State × List Byte × List Bool :=
  let va := (s.ctx ctx).savePart core off
  let r := (pageParts va.toNat n).foldl (fun (r : State × Option (List Byte × List Bool)) q =>
    match r.2 with
    | none => r
    | some (l, m) =>
      match r.1.saveAt core ctx (va + BitVec.ofNat 80 q.1) q.2 false with
      | (s, some pa) =>
        let marks := (List.range (q.2 / 8)).map (fun i => s.bad (pa + 8 * i) 8)
        let (s, bs, _) := s.readHome ctx pa q.2
        (s, some (l ++ bs, m ++ marks))
      | (s, none) => (s, none)) (s, some ([], []))
  match r.2 with
  | some v => (r.1, v)
  | none => (r.1.terminate ctx 0x1C, [], [])

/-- The header of a task's log says `n` entries (R309). -/
def State.logHeader (s : State) (c : Nat) (t : Task) (n : Nat) : State :=
  s.saveWrite t.ctx c 0x18FFC0 (bytesOfNat 4 n ++ bytesOfNat 4 0 ++ bytesOfNat 10 t.va.toNat ++ bytesOfNat 46 0)

/-- A record-mode entry: bundles issued, kind, stall length, value; the header counts it. With the 4,096th the log is full, and the
recording stops (R309). -/
def State.record (s : State) (c p kind len : Nat) (v : Word) : State :=
  let b := s.bank c p
  match b.task with
  | none => s
  | some t =>
    if b.status 7 = false then s
    else
      let e := bytesOfNat 4 t.bundles ++ bytesOfNat 1 kind ++ bytesOfNat 3 len ++ bytesOfNat 8 v.toNat
      let n := t.entries + 1
      ((s.saveWrite t.ctx c (0x190000 + 16 * t.entries) e).logHeader c t n).modBank c p fun b =>
        { (if 4096 ≤ n then b.putStatus 7 false else b) with task := b.task.map fun t => { t with entries := n, trunc := t.trunc || decide (4096 ≤ n) } }

/-- `n` bytes of the replay log that a context names; uncorrectable ones give no entry. -/
def State.logNat (s : State) (core ctx : Nat) (va : Addr) (n : Nat) : State × Option Nat :=
  match s.saveAt core ctx va n false with
  | (s, some pa) =>
    let (s, v, ue) := s.readNat ctx pa n
    (s, if ue then none else some v)
  | (s, none) => (s, none)

/-- The entry of a replay log of kind `kind`, from number `i` on: its number and its 16 bytes (R309, R310). -/
def State.logEntry (s : State) (core ctx kind : Nat) : Nat → Nat → State × Option (Nat × Nat)
  | 0, _ => (s, none)
  | fuel + 1, i =>
    match s.logNat core ctx ((s.ctx ctx).replay + BitVec.ofNat 80 (16 * i)) 16 with
    | (s, none) => (s, none)
    | (s, some v) => if bitsOf v 32 8 = kind then (s, some (i, v)) else s.logEntry core ctx kind fuel (i + 1)

/-- The next entry of a kind in the replay log of a strand that replays, for a bundle count of `n` or any; it is then used up. The header,
64 bytes before the entries, counts those that were written (R309; log 70). -/
def State.nextLogged (s : State) (c p kind : Nat) (n : Option Nat) : State × Option Nat :=
  match (s.bank c p).task with
  | none => (s, none)
  | some t =>
    if t.replay = false then (s, none)
    else
      let i := mapGet (fun _ => 0) t.replayAt kind
      match s.logNat c t.ctx ((s.ctx t.ctx).replay - 64) 4 with
      | (s, none) => (s, none)
      | (s, some count) =>
        match s.logEntry c t.ctx kind (min count 4096 - i) i with
        | (s, none) => (s, none)
        | (s, some (k, v)) =>
          if n.isNone ∨ n = some (bitsOf v 0 32) then
            (s.modBank c p fun b => { b with task := some { t with replayAt := mapSet (fun _ => 0) t.replayAt kind (k + 1) } }, some v)
          else (s, none)

/-- The logged value that takes the place of a delivery (kind 1) or of a CSR read (kind 3) in a replay (R310). -/
def State.replayed (s : State) (c p kind : Nat) : State × Option Word :=
  match s.nextLogged c p kind none with
  | (s, some v) => (s, some (BitVec.ofNat 64 (bitsOf v 64 64)))
  | (s, none) => (s, none)

/-- A delivery of 64-bit words: a replay takes each from its log, a recording writes each into it, the first with `len`, the clk that a bundle
has waited for the delivery (R309, R310; log 70). -/
def State.loggedWords (s : State) (c p : Nat) : Nat → List Word → State × List Word
  | _, [] => (s, [])
  | len, v :: l =>
    let (s, r) := s.replayed c p 1
    let v := r.getD v
    let (s, l) := (s.record c p 1 len v).loggedWords c p 0 l
    (s, v :: l)

/-- The clk that the log has between the earliest clk of the bundle after the `n`-th and its issue: those of its stalls, of its wait at a WAITS
and of the deliveries that it waited for (R309, R310). -/
def State.loggedDelay (s : State) (c p n : Nat) : State × Nat :=
  let ctx := (s.bank c p).ctx
  let at_ := (s.ctx ctx).replay
  match s.logNat c ctx (at_ - 64) 4 with
  | (s, none) => (s, 0)
  | (s, some count) =>
    (List.range (min count 4096)).foldl (fun (r : State × Nat) i =>
      match r.1.logNat c ctx (at_ + BitVec.ofNat 80 (16 * i)) 16 with
      | (s, some v) => (s, r.2 + if bitsOf v 0 32 = n ∧ bitsOf v 32 8 ≠ 3 then bitsOf v 40 24 else 0)
      | (s, none) => (s, r.2)) (s, 0)

/-- The clk in which the next bundle of a strand that replays issues (R310): `base`, or as much later as the log says. -/
def State.setDue (s : State) (c p base : Nat) : State :=
  match (s.bank c p).task with
  | some t =>
    if t.replay = false then s
    else
      let (s, n) := s.loggedDelay c p t.bundles
      s.modBank c p fun b => { b with task := b.task.map fun t => { t with due := base + n } }
  | none => s

/-! ### Transfers -/

/-- A transfer owes its target to `n` delay bundles, with a window shift (R73). -/
def State.owe (s : State) (target : Option Word) (n : Nat) (shift : Option Bool) : State :=
  s.modBk fun b => { b with owed := some ⟨target, n, shift⟩ }

/-- A transfer whose guard is false is a no-op whose following bundles are delay bundles all the same, unless it stands in a
delay bundle itself (R42, R73). -/
def State.oweNothing (s : State) (n : Nat) : State := if s.inDelay then s else s.owe none n none

/-- x + 2·SignExt(OFF) within the CODEHI region (R46, R74). -/
def State.offTarget (s : State) (off : BitVec 35) : Word := s.cur.pc + (off.signExtend 64 <<< 1)

/-- A transfer that occupies S0: its guard, where it may stand, and its delay bundles (R42, R73). -/
def State.transfer (s : State) (g : Guard) (n : Nat) (r : Try) : Host.Outcome State Fault Refusal :=
  if s.guard g then s.settle r else .next (s.oweNothing n)

/-- An odd target raises ALIGN at the transferring bundle (R43). -/
def State.evenTarget (s : State) (t : Word) (r : Try) : Try :=
  if t.getLsbD 0 then .trap (alignTrap 2 (s.bk.codeAddr t)) else r

/-- DEPTH and RES of WDEPTH (R79). -/
def Bank.depth (b : Bank) : Nat := fieldOf (b.csrAt 0x019) 0 16
def Bank.res (b : Bank) : Nat := fieldOf (b.csrAt 0x019) 16 4
def Bank.putDepth (b : Bank) (d r : Nat) : Bank := b.putCsr 0x019 (BitVec.ofNat 64 (d % 65536 + r * 65536))

/-- A CALL that would take DEPTH past 65,535 raises WINDOW_SPILL_FAULT with EINFO 0xFF (R76). -/
def State.callTo (s : State) (t : Word) : Try :=
  if s.bk.depth = 65535 then .trap (causeTrap 0x1C 0xFF) else .ok (s.owe (some t) 3 (some false))

/-- BR (R74). -/
def execBr (g : Guard) (off : BitVec 35) (s : State) : Host.Outcome State Fault Refusal :=
  s.transfer g 1 (s.forbid 0x40 true false false (.ok (s.owe (some (s.offTarget off)) 1 none)))

/-- JMP (R19, R75). -/
def execJmp (g : Guard) (a : BitVec 6) (s : State) : Host.Outcome State Fault Refusal :=
  s.transfer g 1 (s.forbid 0x41 true false false (s.evenTarget (s.sr a) (.ok (s.owe (some (s.sr a)) 1 none))))

/-- CALL (R76). -/
def execCall (g : Guard) (off : BitVec 35) (s : State) : Host.Outcome State Fault Refusal :=
  s.transfer g 3 (s.forbid 0x42 true true true (s.callTo (s.offTarget off)))

/-- CALLI (R19, R76). -/
def execCalli (g : Guard) (a : BitVec 6) (s : State) : Host.Outcome State Fault Refusal :=
  s.transfer g 3 (s.forbid 0x43 true true true (s.evenTarget (s.sr a) (s.callTo (s.sr a))))

/-- RET reads s47 at issue (R77). -/
def execRet (g : Guard) (s : State) : Host.Outcome State Fault Refusal :=
  s.transfer g 3 (s.forbid 0x44 true true true (s.evenTarget (s.sr 47)
    (if s.bk.depth = 0 then .trap (causeTrap 0x1C 0) else .ok (s.owe (some (s.sr 47)) 3 (some true)))))

/-- The core issues nothing before clk `c` (R34, R49, R84, R97-R100). -/
def State.holdCore (s : State) (c : Nat) : State :=
  s.modCr fun x => { x with issue := { x.issue with hold := max x.issue.hold c } }

/-- An immediate transfer, without delay bundles. -/
def State.goTo (s : State) (t : Word) : State := s.modBk fun b => { b with go := some t }

/-- Whether no unit of a body from `t` on is a literal escape. -/
def State.noLiteral (s : State) (t : Word) : Nat → Bool
  | 0 => true
  | n + 1 => s.peekUnit s.cur.core s.cur.pos t != 0xFFFF && s.noLiteral (t + 2) n

/-- R84: the body holds 16 bundles or fewer and no literal, and nothing but this LOOP has transferred since it was entered. A transfer from
outside to an address within the body, above the LOOP's target, counts as one taken since the body was entered, so that the next taken LOOP
pays its idle clk (DESIGN CHOICE, log 76). -/
def State.loopFits (s : State) (t : Word) : Bool :=
  let n := (s.cur.pc.toNat - t.toNat) / 2 + 1
  decide (t.toNat ≤ s.cur.pc.toNat) && decide (n ≤ 16) && decide (s.bk.run.toNat ≤ t.toNat) && s.noLiteral t n

/-- LOOP (R83, R84). -/
def execLoop (g : Guard) (off : BitVec 35) (s : State) : Host.Outcome State Fault Refusal :=
  s.guarded g (s.forbid 0x45 true false false
    (let n := s.bk.csrAt 0x01A
     let t := s.offTarget off
     if n = 0 then .ok s
     else
       let s' := (s.landCsr 0x01A (n - 1) (BitVec.allOnes 64)).goTo t
       .ok (if s.loopFits t then s' else s'.holdCore (s.clk + 2))))

/-- SPEC (R85): the region opens at the end of the issue clk. -/
def execSpec (g : Guard) (imm : BitVec 17) (s : State) : Host.Outcome State Fault Refusal :=
  s.guarded g (s.forbid 0x46 true true true (.ok (s.land (.openSpec (s.cur.pc + (imm17 imm <<< 1))) 1)))

/-- Release the held stores of a region to the store queue, in program order (R87). -/
def Bank.commitSpec (b : Bank) : Bank :=
  match b.spec with
  | none => b
  | some r => r.held.foldl (fun b a => b.enqueueAcc a true) ({ b with spec := none }.putStatus 8 false)

/-- SPOK (R87). The other slots of its bundle act inside the region (R7): their stores commit or are discarded with it, and a rollback
loses their results for checkpointed registers (log 66). A load of S1 in this bundle whose fault is deferred, or a 33rd store of S1, has
failed the region when SPOK tests it, so that it rolls back (DESIGN CHOICE, log 66). -/
def execSpok (g : Guard) (pa : BitVec 4) (s : State) : Host.Outcome State Fault Refusal :=
  s.guarded g (s.forbid 0x47 true false false
    (match s.bk.spec with
     | none => .trap (illegal 0x47)
     | some r =>
       if (s.pr pa).getLsbD 0 ∧ r.failed = false then .ok (s.modBk fun b => b.commitSpec)
       else if (s.bk.without s.order).specQuiet then
         .ok ((s.modBk fun b => { (b.voidOwn s.order Reg.checkpointed).rollSpec with go := some r.recover }).holdCore (s.clk + 2))
       else .block .drain s))

/-- YIELD (R89): the core moves on in the next clk. -/
def execYield (g : Guard) (s : State) : Host.Outcome State Fault Refusal :=
  s.guarded g (s.forbid 0x4E true true false
    (.ok (s.modCr fun x => { x with issue := { x.issue with yielded := true } })))

/-- TRAP (R28). -/
def execTrap (g : Guard) (imm : BitVec 17) (s : State) : Host.Outcome State Fault Refusal :=
  s.guarded g (s.forbid 0x4F true false false (.trap (causeTrap 0x1E (imm.setWidth 64))))

/-- ERET (R29); an odd target, in EPC or still owed in ETGT, raises ALIGN at the ERET (R43). Queue operations that a PHASE_OVERRUN
withdrew are sent again (R294). -/
def execEret (g : Guard) (s : State) : Host.Outcome State Fault Refusal :=
  s.guarded g (s.needPriv 0xA2 (s.forbid 0xA2 true true false
    (if s.bk.exl then
       s.evenTarget (s.bk.csrAt 0x002) (
         let r : Try := .ok (s.modBk fun b => { b.eret with accs := b.accs ++ b.resend, resend := [] })
         if fieldOf (s.bk.csrAt 0x001) 11 2 = 0 then r else s.evenTarget (s.bk.csrAt 0x007) r)
     else .trap (illegal 0xA2))))

/-! ### The exchange of banks (R93, R94, R276) -/

/-- The queue state of an outgoing strand (R276): a waiting operation is withdrawn and kept to be sent again; the bound latches are
released as QUNB gives, and stay bound. A waiting GBAR stays counted (R283), and so does LGWAIT's arrival. -/
def State.parkQueues (s : State) (c p : Nat) : State :=
  let b := s.bank c p
  let waiting := b.accs.filter (fun a => a.st == .waiting && (a.kind.isEnq || (a.kind.isTake && !a.kind.isRefill)))
  let s := waiting.foldl (fun s a => s.withdraw c b.uid a) s
  let s := s.modBank c p fun b => { b with resend := b.resend ++ waiting.map (fun a => { a with st := .queued, told := false }) }
  s.releaseBound c p true

/-- A refill of latch `n` is translated and joins the load queue (R272, R273); without a translation it is held, and any other
failure unbinds the latch and is raised at the next bundle. -/
def State.sendRefill (s : State) (c p n slot : Nat) : State :=
  let b := s.bank c p
  let l := b.qget n
  let pend (b : Bank) : Bank := { b with pend := if b.pend.contains (.q n) then b.pend else b.pend ++ [.q n] }
  let fail (s : State) (t : Trap) : State :=
    s.modBank c p fun b => { b.unbind n with async := b.async ++ [{ t with slot := slot }] }
  match s.lookup c b.ctx l.va (needOf 3 64) (!b.priv) with
  | (s, .ok (pa, none)) =>
    if blockable pa then
      s.modBank c p fun b =>
        let b := pend (b.qput n { l with pa := pa, full := false, held := false })
        { b with nextId := b.nextId + 1,
                 accs := b.accs ++ [{ id := b.nextId, kind := .refill n, order := s.order, va := l.va, pa := pa, size := 64,
                                      dest := some (.q n), slot := slot, user := !b.priv }] }
    else fail s { code := 0x11, info := 3, addr := l.va }
  | (s, .ok (_, some _)) => fail s { code := 0x11, info := 3, addr := l.va }
  | (s, .error t) =>
    if t.code = 0x10 then s.modBank c p fun b => pend (b.qput n { l with full := false, held := true, info := t.info })
    else fail s t

/-- What a returning bank sends again, before any bundle of it issues (R276): a latch that holds no element and has no refill under way gets
one. -/
def State.resendQueues (s : State) (c p : Nat) : State :=
  let s := s.modBank c p fun b => { b with accs := b.accs ++ b.resend, resend := [] }
  let b := s.bank c p
  (b.q.filter (fun e => e.2.bound && !e.2.held && !e.2.full && b.accs.all (fun a => a.kind != .refill e.1))).foldl
    (fun s e => s.sendRefill c p e.1 7) s

/-- An exchange of position `n` with the shadow bank starts (R94): it takes the 16 clk that follow, and empties the loop buffer (R84). -/
def State.beginExchange (s : State) (c n : Nat) : State :=
  let s := (s.parkQueues c n).modBank c n fun b => { b with run := 0 }
  s.modCore c fun x => { x with issue := { x.issue with exch := some (n, s.clk + 17) } }

/-- SWAP (R94). -/
def execSwap (g : Guard) (n : BitVec 2) (s : State) : Host.Outcome State Fault Refusal :=
  s.guarded g (s.needPriv 0xA3 (s.forbid 0xA3 true true false
    (if s.bk.guarded then .trap (guardTrap 0xA3)
     else if s.cr.issue.exch.isSome then .block .exchange s
     else .ok (s.beginExchange s.cur.core n.toNat))))

/-! ### User interrupts (R97, R98) -/

/-- A shadow copy of a user-interrupt handler (R97). -/
def Reg.shadowed : Reg → Bool
  | .sh _ => true
  | _ => false

/-- UIRET (R98). The other slots of its bundle read the shadows (R7), and their results for shadows go with them. -/
def execUiret (g : Guard) (s : State) : Host.Outcome State Fault Refusal :=
  s.guarded g (s.forbid 0x50 true true false
    (let b := s.bk.without s.order
     if b.inui = false then .trap (illegal 0x50)
     else if b.flight.all (fun l => decide (l.order < b.uiOrder)) &&
         b.accs.all (fun a => decide (a.order < b.uiOrder) || a.dest.isNone) then
       .ok ((s.modBk fun b => { (b.voidOwn s.order Reg.shadowed).putStatus 11 false with
           shadow := none, uiReady := false, go := some (b.csrAt 0x021), goRun := some b.runUi }).holdCore (s.clk + 2))
     else .block .drain s))

/-! ### CSRs (R26, R27) -/

/-- The index of R14: PRIV for 0x100-0x1FF in user mode, ILLEGAL_OPCODE where no table assigns it. -/
def State.csrAccess (s : State) (op : Nat) (idx : Nat) (r : Try) : Try :=
  if 0x100 ≤ idx ∧ idx ≤ 0x1FF ∧ s.bk.priv = false then .trap (privTrap op idx)
  else if (csrMasks idx).isNone then .trap (illegal op)
  else r

/-- CSRR (R26); in a replay the logged value takes the place of one that the strand did not write itself (R309, R310). -/
def execCsrr (g : Guard) (d : BitVec 6) (idx : BitVec 12) (s : State) : Host.Outcome State Fault Refusal :=
  s.guarded g (s.csrAccess 0xA0 idx.toNat
    (let own := (s.bk.task.map (·.wrote)).getD [] |>.contains idx.toNat
     if own then .ok (s.landS d (s.csrRead idx.toNat) 1)
     else
       let (s', r) := s.replayed s.cur.core s.cur.pos 3
       let v := r.getD (s.csrRead idx.toNat)
       .ok ((s'.record s.cur.core s.cur.pos 3 0 v).landS d v 1)))

/-- Which bits a CSRW changes in the mode in force; none where it raises PRIV (R27). -/
def csrWriteMask (priv : Bool) (m : Word × Word) : Option Word :=
  if priv then some (m.1 ||| m.2)
  else if m.1 = 0 ∧ m.2 ≠ 0 then none
  else some m.1

/-- CSRW (R27); it takes effect for bundles that issue 1 clk later. -/
def execCsrw (g : Guard) (a : BitVec 6) (idx : BitVec 12) (s : State) : Host.Outcome State Fault Refusal :=
  s.guarded g (s.csrAccess 0xA1 idx.toNat
    (match csrWriteMask s.bk.priv ((csrMasks idx.toNat).getD (0, 0)) with
     | none => .trap (privTrap 0xA1 idx.toNat)
     | some m => s.forbid 0xA1 false true false
         (.ok ((s.landCsr idx.toNat (csrClamp idx.toNat (s.sr a)) m).modBk fun b =>
           { b with task := b.task.map fun t => { t with wrote := (idx.toNat :: t.wrote).eraseDups } }))))

/-- PHASE (R295): at the end of its issue clk EXP := s[A][31:0] and COUNT := 0. -/
def execPhase (g : Guard) (a : BitVec 6) (s : State) : Host.Outcome State Fault Refusal :=
  s.guarded g (.ok ((s.landCsr 0x029 (s.sr a &&& 0xFFFFFFFF) (BitVec.allOnes 64)).landCsr 0x028 0 (BitVec.allOnes 64)))

/-! ### Events of the window (R76, R77, R80, R81) -/

/-- The 128 bytes of a frame of the ring. -/
def Bank.frameBytes (b : Bank) (f : Nat) : List Byte :=
  (List.range 16).flatMap (fun i => bytesOfNat 8 (mapGet (fun _ => 0) b.s (16 + 16 * (f % 15) + i)).toNat)

/-- Put 64 bytes into half a frame of the ring. -/
def Bank.putHalfFrame (b : Bank) (f half : Nat) (v : List Byte) : Bank :=
  (List.range 8).foldl (fun b i =>
    let r := 16 + 16 * (f % 15) + 8 * half + i
    { b with s := mapSet (fun _ => 0) b.s r (BitVec.ofNat 64 (natOfBytes ((v.drop (8 * i)).take 8))), badS := b.badS.filter (· != r) }) b

/-- The pieces of a spill of `block` at `at_`, and of a fill from `at_` into the frames that the window at `base` needs (R80). -/
def spillPieces (at_ : Addr) (block : List Byte) : List WinPiece :=
  (List.range 4).map (fun i => ⟨false, at_ + BitVec.ofNat 80 (64 * i), natOfBytes ((block.drop (64 * i)).take 64)⟩)
def fillPieces (at_ : Addr) (base : Nat) : List WinPiece :=
  (List.range 4).map (fun i => ⟨true, at_ + BitVec.ofNat 80 (64 * i), 2 * ((base + i / 2) % 15) + i % 2⟩)

/-- A shift owes the pieces of a block, behind those of an earlier one that still wait. -/
def Bank.owePieces (b : Bank) (retreat : Bool) (l : List WinPiece) : Bank :=
  let w := b.win.getD { pieces := [] }
  { b with win := some { w with pieces := w.pieces ++ l, move := some retreat } }

/-- WINDOW_SHIFT (R76, R77): operands core, pos, `flag` a retreat, `v` the return address. The block that a full ring owes is
taken before the link is written, so that the oldest frame is spilled as its caller left it (log 15). -/
def Bank.shiftWindow (b : Bank) (retreat : Bool) (link : Word) : Bank :=
  if retreat then
    let base := (b.wbase + 13) % 15
    let b' := { b with wbase := base }
    if b.res = 0 then (b'.putDepth (b.depth - 1) 0).owePieces true (fillPieces ((b.csrAt 0x018 - 256).setWidth 80) base)
    else b'.putDepth (b.depth - 1) (b.res - 1)
  else
    let base := (b.wbase + 2) % 15
    let block := b.frameBytes (base + 1) ++ b.frameBytes (base + 2)
    let b' := { b with wbase := base, s := mapSet (fun _ => 0) b.s (physS base 47) link, badS := b.badS.filter (· != physS base 47) }
    if b.res = 6 then (b'.putDepth (b.depth + 1) 6).owePieces false (spillPieces ((b.csrAt 0x018).setWidth 80) block)
    else b'.putDepth (b.depth + 1) (b.res + 1)

def execWindowShift (s : State) : Host.Outcome State Fault Refusal :=
  .next (s.modBank s.ev.core s.ev.pos fun b => b.shiftWindow s.ev.flag s.ev.v)

/-- The trap of a spill or fill access that fails (R81, R353): TRANSLATION with the access kind, or WINDOW_SPILL_FAULT with the
underlying cause. Its slot is S0, where the CALL, CALLI or RET stands whose shift owes the block (R22, R25). -/
def winTrap (t : Trap) : Trap :=
  if t.code = 0x10 then { t with slot := 0 } else { code := 0x1C, info := BitVec.ofNat 64 t.code, addr := t.addr, slot := 0 }

/-- WSTK.ADDR moves past a block that is spilled, or back over one that is filled (R80). -/
def Bank.moveWstk (b : Bank) (move : Option Bool) : Bank :=
  match move with
  | some back => b.putCsr 0x018 (if back then b.csrAt 0x018 - 256 else b.csrAt 0x018 + 256)
  | none => b

/-- A failure ends the spills and fills under way: it is raised at the first bundle at the target, once for all the pieces that fail
meanwhile. The shift is complete apart from the block, so that WSTK moves; the pieces `lost` and those not yet accepted wait for the ERET
that retries them (R81). -/
def Bank.winFault (b : Bank) (lost : List WinPiece) (t : Trap) : Bank :=
  let w := b.win.getD { pieces := [] }
  { b.moveWstk w.move with
      async := if b.async.any (fun x => x.code == 0x1C) then b.async else b.async ++ [winTrap t],
      win := none, winKept := b.winKept ++ lost ++ w.pieces }

/-- The engine accepts `piece` as access `a`; with the last, WSTK moves, and the target of a spill may issue in the next clk (R80). -/
def Bank.acceptPiece (b : Bank) (w : WinOp) (rest : List WinPiece) (a : Acc) (clk : Nat) : Bank :=
  let b := { b with accs := b.accs ++ [{ a with id := b.nextId }], nextId := b.nextId + 1, win := some { w with pieces := rest } }
  if rest = [] then
    { b.moveWstk w.move with win := none, wait := if a.kind = .fill then b.wait else some (.clk (clk + 1)) }
  else b

/-- One piece in a clk (R80): it takes its place in the strand's store or load queue. A slab takes no stores (R199), and MMIO no access in
user mode (R238). -/
def State.windowPiece (s : State) (fill : Bool) : State :=
  let c := s.ev.core
  let p := s.ev.pos
  let b := s.bank c p
  match b.win with
  | none => s
  | some w =>
    match w.pieces with
    | [] => s
    | piece :: rest =>
      if piece.fill ≠ fill then s
      else match s.lookup c b.ctx piece.va (needOf 7 64 !fill) (!b.priv) with
        | (s, .error t) => s.modBank c p fun b => b.winFault [] t
        | (s, .ok (pa, peer)) =>
          if peer.isNone && ((!fill && isSlab pa) || (isMmio pa && !b.priv)) then
            s.modBank c p fun b => b.winFault [] { code := 0x11, addr := piece.va }
          else
            let a : Acc := { id := 0, kind := if fill then .fill else .spill, order := s.order, va := piece.va, pa := pa, size := 64,
                             data := if fill then 0 else piece.data, aux := if fill then piece.data else 0, slot := 7, user := !b.priv,
                             mmio := peer.isNone && isMmio pa, peer := peer }
            s.modBank c p fun b => b.acceptPiece w rest a s.clk

/-- WINDOW_SPILL: operands core, pos. -/
def execWindowSpill (s : State) : Host.Outcome State Fault Refusal := .next (s.windowPiece false)
/-- WINDOW_FILL: operands core, pos. The target blocks until the pieces are delivered. -/
def execWindowFill (s : State) : Host.Outcome State Fault Refusal := .next (s.windowPiece true)

/-! ### Events of the core -/

/-- The strand no longer waits for the journal engine: its JVERIFY is asked for afresh, and the piece placed for it, which has its turn all the
same, gives it no result; its JABORT does not hold records back (log 28). -/
def Slab.unask (x : Slab) (c uid ctx : Nat) : Slab :=
  { x with asked := x.asked.filter (fun e => !(e.1 == c && e.2.1 == uid)), results := x.results.filter (fun e => !(e.1 == c && e.2.1 == uid)),
           txn := x.txn.map fun t => if t.owner = ctx then { t with aborting := false } else t }

/-- A trap taken at the next bundle of a strand, which waited for the journal engine (`b` the bank before the trap). -/
def State.unask (s : State) (c : Nat) (b : Bank) : State :=
  match b.wait with
  | some (.journal _) => s.modCluster (clusterOf c) fun k => { k with slab := k.slab.unask c b.uid b.ctx }
  | _ => s


/-- TRAP_ENTRY (R22): the recorded trap enters once nothing exposed is in flight. -/
def execTrapEntry (s : State) : Host.Outcome State Fault Refusal :=
  let b := s.bank s.ev.core s.ev.pos
  match b.entry with
  | some (t, epc) => if b.entryReady then .next (s.enterTrap s.ev.core s.ev.pos t epc) else .next s
  | none => .next s

/-- BANK_EXCHANGE (R94): the banks have changed places; the image of the outgoing one goes to the save area (R291), and the incoming strand sends
its queue operations again. -/
def execBankExchange (s : State) : Host.Outcome State Fault Refusal :=
  let c := s.ev.core
  match (s.core c).issue.exch with
  | none => .next s
  | some (n, due) =>
    if s.clk < due then .next s
    else
      let x := s.core c
      let out := { x.bank n with lastPos := n }
      let x' := ((x.setBank n (x.bank 4)).setBank 4 out)
      let s := s.setCore c { x' with issue := { x'.issue with exch := none } }
      let s := if out.task.isSome then s.saveWrite out.ctx c 0x180000 out.image else s
      .next (s.resendQueues c n)

/-- URGENT_PREEMPTION (R94): the scheduler starts the same exchange at any clk. -/
def execUrgentPreemption (s : State) : Host.Outcome State Fault Refusal :=
  if (s.core s.ev.core).issue.exch.isSome ∨ 4 ≤ s.ev.pos then .next s else .next (s.beginExchange s.ev.core s.ev.pos)

/-- USER_INTERRUPT_ENTRY (R97): at a bundle boundary of the issuing strand where the conditions hold. UICAUSE keeps OVF; LEFT is
read from the queue. The first bundle of the handler issues after one idle clk. -/
def State.uiEntry (s : State) (c p : Nat) : State :=
  let b := s.bank c p
  match b.uiq with
  | [] => s
  | (src, det) :: rest =>
    let upper := (List.range 16).foldl (fun m i => mapSet (fun _ => 0) m (48 + i) (b.sget (48 + i))) ([] : SMap Word)
    let b := b.putCsr 0x021 b.pc
    let b := b.putCsr 0x022 ((b.csrAt 0x022 &&& 0x80000000) ||| BitVec.ofNat 64 (det % 256 * 256 + src % 256))
    let b := { b.putStatus 11 true with uiq := rest, shadow := some upper, uiOrder := s.order + 1, pc := b.csrAt 0x020,
                                        runUi := b.run, run := b.csrAt 0x020, wait := none, walkErr := none, idle := none }
    (s.setBank c p b).modCore c fun x => { x with issue := { x.issue with hold := max x.issue.hold (s.clk + 1) } }

/-- A wait that belongs to a bundle which has issued: the window's spill, an invalidation. -/
def Wait.issued : Wait → Bool
  | .clk _ | .accs _ => true
  | _ => false

def Bank.uiDue (b : Bank) : Bool :=
  !b.wait.any Wait.issued && b.task.isSome && !b.uiq.isEmpty && b.status 12 && !b.inui && !b.exl && !b.inSpec && b.owed.isNone && b.uiReady && b.entry.isNone

def execUserInterruptEntry (s : State) : Host.Outcome State Fault Refusal :=
  let c := s.ev.core
  let p := (s.core c).issue.pos
  if (s.bank c p).uiDue then .next ((s.unask c (s.bank c p)).uiEntry c p) else .next s

/-- The bank of the bundle last issued as it stood before, with what has reached the bank from outside since: results of earlier bundles
land again, and delivered registers keep their values. -/
def Undo.bankOf (u : Undo) (b : Bank) : Bank :=
  let o := u.bank
  let landed := o.flight.filter (fun (l : Landing) => !b.flight.any (fun m => m.order == l.order && m.write == l.write))
  let o := { o with
    flight := landed ++ b.flight.filter (fun (l : Landing) => l.order != u.order),
    accs := b.accs.filter (fun (a : Acc) => a.order != u.order), copies := b.copies.filter (fun (y : Copy) => y.order != u.order),
    nextId := b.nextId, heldFlags := b.heldFlags, heldMx := b.heldMx, uiq := b.uiq, async := b.async, badS := b.badS, win := b.win, winKept := b.winKept, far := [] }
  let o := [0x00A, 0x028, 0x058, 0x059].foldl (fun o i => o.putCsr i (b.csrAt i)) o
  (o.pend.filter (fun r => !b.pend.contains r)).foldl (fun o r =>
    let o := { o with pend := o.pend.filter (· != r) }
    match r with
    | .s i => { o with s := mapSet (fun _ => 0) o.s i (mapGet (fun _ => 0) b.s i) }
    | .sh n => { o with shadow := o.shadow.map fun m => mapSet (fun _ => 0) m n ((b.shadow.map fun k => mapGet (fun _ => 0) k n).getD 0) }
    | .cd n => { o with cd := mapSet (fun _ => 0) o.cd n (b.cdget n) }
    | .q n => o.qput n (b.qget n)
    | _ => o) o

/-- The bundle last issued is taken back, so that a trap is precise at it (R21, R99): its results, its semaphore effects, its engine
commands, its accesses. What it had already sent to memory, to a journal engine or to a die stands (log 67). -/
def State.takeBack (s : State) (c p : Nat) (u : Undo) : State :=
  let s := u.olds.foldl (fun s w => s.applyShared c p w) s
  let taken := ((s.bank c p).copies.filter (fun y => y.order == u.order && y.st != .queued)).map (fun y => (y.ws, y.wt))
  let s := s.modBank c p u.bankOf
  s.modCore c fun x =>
    let taken := taken ++ (x.mrun.filter (fun m => m.order == u.order)).map (fun m => (m.ws, m.wt))
    let sem := (taken.filter (fun e => e.1 != 0)).foldl (fun m e => mapSet (fun _ => 0) m e.1 (mapGet (fun _ => 0) m e.1 + e.2)) x.sem
    let sem := u.waits.foldl (fun m e => mapSet (fun _ => 0) m e.1 (mapGet (fun _ => 0) m e.1 + e.2)) sem
    let sem := u.sigs.foldl (fun m e => mapSet (fun _ => 0) m e.1 (mapGet (fun _ => 0) m e.1 - e.2)) sem
    let sem := u.sets.foldl (fun m e => mapSet (fun _ => 0) m e.1 e.2) sem
    { x with sem := sem, mq := x.mq.filter (fun m => m.order != u.order), mrun := x.mrun.filter (fun m => m.order != u.order),
             issue := { x.issue with undo := none, pos := if p < 4 then p else x.issue.pos, yielded := false } }

/-- A copy begins anew in clk `at_`, with nothing read (R99). -/
def Copy.restart (y : Copy) (at_ : Nat) : Copy :=
  { y with begun := at_, data := [], marks := [], dread := [], dmarks := [], pieces := [], readN := 0, readB := 0, err := none }

/-- Engine commands of a replayed bundle are dispatched after its replay window (R99): those that have begun begin in clk `at_`. -/
def State.delayStarts (s : State) (c order at_ : Nat) : State :=
  let s := s.modCore c fun x => { x with banks := x.banks.map fun e =>
    (e.1, { e.2 with copies := e.2.copies.map fun y => if y.order = order ∧ y.st = .started then y.restart at_ else y }) }
  match (s.core c).mrun.filter (fun m => m.order == order) with
  | [] => s
  | r :: _ =>
    let late := at_ - r.start.getD at_
    let s := s.modCore c fun x =>
      { x with mrun := x.mrun.map fun m => if m.order = order then { m with start := m.start.map (· + late), filled := [] } else m }
    match r.op with
    | .mma _ => s.modCluster (clusterOf c) fun k =>
        { k with lease := { k.lease with busyTo := k.lease.busyTo + late, lastStart := k.lease.lastStart + late } }
    | _ => s

/-- SCRUPLE_REPLAY (R99): the bundle last issued, at this clk or the one before, executes again to the same results; the
next 2 clk are frozen, so that results in flight land and the core issues 2 clk later, and the trace records it. At the eighth detection in
a row the bundle is taken back and raises UE_CONSUMED, location kind 7. -/
def execScrupleReplay (s : State) : Host.Outcome State Fault Refusal :=
  let c := s.ev.core
  let i := (s.core c).issue
  match i.undo with
  | none => .next s
  | some u =>
    if s.clk < i.lastClk ∨ i.lastClk + 1 < s.clk then .next s
    else if 7 ≤ i.replays then
      let s := s.modCore c fun x => { x with issue := { x.issue with replays := 0 } }
      match (s.core c).posOf u.uid with
      | none => .next s
      | some p => .next ((s.takeBack c p u).takeTrap c p { code := 0x18, info := 7 } u.bank.pc)
    else
      let f := max s.clk i.frozen + 2
      let s := s.modCore c fun x =>
        { x with issue := { x.issue with replays := i.replays + 1, lastClk := f - 1, frozen := f, hold := max (i.hold + 2) (f + 1),
                                         frozenFrom := if s.clk ≤ i.frozen then i.frozenFrom else s.clk },
                 banks := x.banks.map fun e => (e.1, { e.2 with flight := e.2.flight.map fun l => { l with due := l.due + 2 } }) }
      .next ((s.delayStarts c u.order (f + 1)).traceEntry (clusterOf c) 4)

end Sys2Proof.Machine
end

