-- ==== Sys2Proof/Machine/Float.lean ====
section
/-!
DEFINITION. Number formats, exact arithmetic, rounding and flags (R103-R109, R116-R120): a finite number is a signed integer
times a power of two, with a mark where a little more of it is left out.
-/

namespace Sys2Proof.Machine

/-! ### Flags (R14) -/

def fIV : BitVec 8 := 1
def fDZ : BitVec 8 := 2
def fOF : BitVec 8 := 4
def fUF : BitVec 8 := 8
def fIX : BitVec 8 := 16
def fAUF : BitVec 8 := 32
def fSAT : BitVec 8 := 64
def fNANB : BitVec 8 := 128

/-- A value with the flags that it raises. -/
abbrev Flagged (α : Type) := α × BitVec 8

/-! ### Formats (R104) -/

/-- A floating-point format: exponent bits, fraction bits, bias, and whether it is E4M3, which has no infinity. -/
structure FFmt where
  exp : Nat
  frac : Nat
  bias : Nat
  e4m3 : Bool := false
  deriving DecidableEq, Repr

def F32 : FFmt := ⟨8, 23, 127, false⟩
def F16 : FFmt := ⟨5, 10, 15, false⟩
def BF16 : FFmt := ⟨8, 7, 127, false⟩
def E4M3 : FFmt := ⟨4, 3, 7, true⟩
def E5M2 : FFmt := ⟨5, 2, 15, false⟩

/-- The format of a type code (R102). -/
def fmtOf (code : Nat) : FFmt :=
  match code with
  | 6 => E4M3
  | 7 => E5M2
  | 8 => F16
  | 9 => BF16
  | _ => F32

/-- The default NaN (R104): exponent all ones, the top fraction bit set; in E4M3 every fraction bit. -/
def FFmt.nan (f : FFmt) : Nat :=
  (2 ^ f.exp - 1) * 2 ^ f.frac + (if f.e4m3 then 2 ^ f.frac - 1 else 2 ^ (f.frac - 1))
def FFmt.signBit (f : FFmt) (neg : Bool) : Nat := if neg then 2 ^ (f.exp + f.frac) else 0
/-- Infinity of a sign; E4M3 has none (R108). -/
def FFmt.inf (f : FFmt) (neg : Bool) : Nat :=
  if f.e4m3 then f.nan else f.signBit neg + (2 ^ f.exp - 1) * 2 ^ f.frac
/-- The largest finite value of a sign. -/
def FFmt.maxFin (f : FFmt) (neg : Bool) : Nat :=
  f.signBit neg + (if f.e4m3 then f.nan - 1 else (2 ^ f.exp - 1) * 2 ^ f.frac - 1)

/-- A value: NaN, an infinity, or (−1)^neg · m · 2^e; with `more`, the magnitude lies strictly between m · 2^e and
(m + 1) · 2^e. -/
inductive FVal where
  | nan
  | inf (neg : Bool)
  | fin (neg : Bool) (m : Nat) (e : Int) (more : Bool)
  deriving DecidableEq, Repr

/-- The value of an encoding (R104). -/
def FFmt.read (f : FFmt) (v : Nat) : FVal :=
  let neg := v.testBit (f.exp + f.frac)
  let e := bitsOf v f.frac f.exp
  let fr := bitsOf v 0 f.frac
  if e = 2 ^ f.exp - 1 ∧ f.e4m3 = false then (if fr = 0 then .inf neg else .nan)
  else if f.e4m3 ∧ e = 15 ∧ fr = 7 then .nan
  else if e = 0 then .fin neg fr (1 - (f.bias : Int) - f.frac) false
  else .fin neg (2 ^ f.frac + fr) ((e : Int) - f.bias - f.frac) false

def FVal.isZero : FVal → Bool
  | .fin _ 0 _ false => true
  | _ => false
def FVal.neg : FVal → Bool
  | .nan => false
  | .inf n => n
  | .fin n _ _ _ => n
def FVal.isNan : FVal → Bool
  | .nan => true
  | _ => false

/-! ### Rounding (R107, R108) -/

/-- A magnitude m · 2^e (and more) in units of 2^q, rounded by mode `rm` for a number of sign `neg`, and whether it is inexact. -/
def roundUnits (rm : Nat) (neg : Bool) (m : Nat) (e : Int) (more : Bool) (q : Int) : Nat × Bool :=
  if q ≤ e then (m * 2 ^ (e - q).toNat, more)
  else
    let k := (q - e).toNat
    let n := m >>> k
    let r := m % 2 ^ k
    let half := 2 ^ (k - 1)
    let inexact := r != 0 || more
    let up : Bool :=
      match rm with
      | 0 => decide (half < r) || (r == half && (more || n % 2 == 1))
      | 1 => false
      | 2 => neg && inexact
      | _ => !neg && inexact
    (if up then n + 1 else n, inexact)

/-- What overflow delivers (R108); `sat` is FCTL.SATCVT of a conversion. -/
def overflow (f : FFmt) (rm : Nat) (sat neg : Bool) : Flagged Nat :=
  if sat then (f.maxFin neg, fSAT ||| fIX)
  else if rm = 0 ∨ (rm = 3 ∧ neg = false) ∨ (rm = 2 ∧ neg = true) then (f.inf neg, fOF ||| fIX)
  else (f.maxFin neg, fOF ||| fIX)

/-- RoundTo(fmt, x, rm) of R107, with the flags of R106 and R108. Overflow is judged as R108's words give it, on the magnitude rounded in the
mode in force: 65,520 to F16 in RTZ raises IX alone, where the worked row raises OF too (log 77). -/
def roundTo (f : FFmt) (rm : Nat) (sat : Bool) (x : FVal) : Flagged Nat :=
  match x with
  | .nan => (f.nan, 0)
  | .inf neg =>
    if f.e4m3 then (if sat then (f.maxFin neg, fSAT) else (f.nan, fIV)) else (f.inf neg, 0)
  | .fin neg m e more =>
    if m = 0 then (f.signBit neg, 0)
    else
      let top : Int := Nat.log2 m + e
      let emin : Int := 1 - f.bias
      let q : Int := max top emin - f.frac
      let (n, ix) := roundUnits rm neg m e more q
      let field : Int := (q + f.frac + f.bias - 1) * 2 ^ f.frac + n
      if (f.maxFin false : Int) < field then overflow f rm sat neg
      else (f.signBit neg + field.toNat, if ix then (if top < emin then fUF ||| fIX else fIX) else 0)

/-- RoundInt(x, rm) of R107, as a signed integer, and whether it is inexact; for finite values. -/
def roundInt (rm : Nat) (neg : Bool) (m : Nat) (e : Int) (more : Bool) : Int × Bool :=
  let (n, ix) := roundUnits rm neg m e more 0
  (if neg then -(n : Int) else n, ix)

/-! ### Exact arithmetic (R105-R107, R126, R127) -/

/-- A finite value as a multiple of 2^e. -/
def unitsAt (neg : Bool) (m : Nat) (e0 e : Int) : Int :=
  let v : Int := (m * 2 ^ (e0 - e).toNat : Nat)
  if neg then -v else v

/-- The exact sum; a sum of zero from operands of opposite sign is +0.0, and −0.0 in RDN (R105). -/
def fAdd (rm : Nat) (a b : FVal) : Flagged FVal :=
  match a, b with
  | .nan, _ | _, .nan => (.nan, 0)
  | .inf p, .inf q => if p = q then (.inf p, 0) else (.nan, fIV)
  | .inf p, _ => (.inf p, 0)
  | _, .inf q => (.inf q, 0)
  | .fin p m e s, .fin q n f t =>
    let g := min e f
    let v := unitsAt p m e g + unitsAt q n f g
    if v = 0 then (.fin (if p = q then p else rm == 2) 0 0 false, 0)
    else (.fin (decide (v < 0)) v.natAbs g (s || t), 0)

def FVal.flip : FVal → FVal
  | .nan => .nan
  | .inf n => .inf (!n)
  | .fin n m e s => .fin (!n) m e s

/-- The exact product; ∞·0 raises IV. -/
def fMul (a b : FVal) : Flagged FVal :=
  match a, b with
  | .nan, _ | _, .nan => (.nan, 0)
  | .inf p, x | x, .inf p => if x.isZero then (.nan, fIV) else (.inf (p != x.neg), 0)
  | .fin p m e _, .fin q n f _ => (.fin (p != q) (m * n) (e + f) false, 0)

/-- The exact a·b + c; IV for ∞·0 whatever c holds (R107). -/
def fFma (rm : Nat) (a b c : FVal) : Flagged FVal :=
  let (p, f) := fMul a b
  if f ≠ 0 then (.nan, f) else fAdd rm p c

/-- Bits of a non-zero number. -/
def bitLen (n : Nat) : Nat := if n = 0 then 0 else Nat.log2 n + 1

/-- a / b (R127). -/
def fDiv (a b : FVal) : Flagged FVal :=
  let neg := a.neg != b.neg
  match a, b with
  | .nan, _ | _, .nan => (.nan, 0)
  | .inf _, .inf _ => (.nan, fIV)
  | .inf _, _ => (.inf neg, 0)
  | _, .inf _ => (.fin neg 0 0 false, 0)
  | .fin _ m e _, .fin _ n f _ =>
    if n = 0 then (if m = 0 then (.nan, fIV) else (.inf neg, fDZ))
    else if m = 0 then (.fin neg 0 0 false, 0)
    else
      let k := 64 + bitLen n
      let v := m * 2 ^ k
      (.fin neg (v / n) (e - f - k) (v % n != 0), 0)

/-- The integer square root of a number below 4^n, bit by bit. -/
def isqrt : Nat → Nat → Nat → Nat
  | 0, _, r => r
  | n + 1, v, r => if (r + 2 ^ n) * (r + 2 ^ n) ≤ v then isqrt n v (r + 2 ^ n) else isqrt n v r

/-- √a (R127). -/
def fSqrt (a : FVal) : Flagged FVal :=
  match a with
  | .nan => (.nan, 0)
  | .inf neg => if neg then (.nan, fIV) else (.inf false, 0)
  | .fin neg m e _ =>
    if m = 0 then (.fin neg 0 0 false, 0)
    else if neg then (.nan, fIV)
    else
      let k : Nat := 128 + (e % 2).toNat
      let v := m * 2 ^ k
      let r := isqrt ((bitLen v + 1) / 2) v 0
      (.fin false r ((e - k) / 2) (r * r != v), 0)

/-- 1 / √a (R127). -/
def fRsqrt (a : FVal) : Flagged FVal :=
  match a with
  | .nan => (.nan, 0)
  | .inf neg => if neg then (.nan, fIV) else (.fin false 0 0 false, 0)
  | .fin neg m e _ =>
    if m = 0 then (.inf neg, fDZ)
    else if neg then (.nan, fIV)
    else
      let m' := if e % 2 = 0 then m else 2 * m
      let e' := if e % 2 = 0 then e else e - 1
      let k := 2 * (64 + bitLen m')
      let v := 2 ^ k / m'
      let r := isqrt (bitLen v / 2 + 1) v 0
      (.fin false r (-(k / 2 : Nat) - e' / 2) (r * r * m' != 2 ^ k), 0)

/-! ### Series (log 16): 320 fraction bits, far more than the 24 that any destination keeps -/

def seriesBits : Nat := 320
def seriesOne : Nat := 2 ^ seriesBits

/-- Σ over k of y^(2k+1) / (2k+1), from the k-th term on; `p` is y^(2k+1), `y2` is y². -/
def atanhTerms : Nat → Nat → Nat → Nat → Nat
  | 0, _, _, _ => 0
  | n + 1, k, p, y2 => p / (2 * k + 1) + atanhTerms n (k + 1) (p * y2 / seriesOne) y2
/-- ln((1+y)/(1−y)) for 0 ≤ y ≤ 1/3. -/
def lnRatio (y : Nat) : Nat := 2 * atanhTerms 110 0 y (y * y / seriesOne)
def ln2 : Nat := lnRatio (seriesOne / 3)
/-- Σ over k of x^k / k!, from the k-th term on; `t` is the term. -/
def expTerms : Nat → Nat → Nat → Nat → Nat
  | 0, _, _, _ => 0
  | n + 1, k, t, x => t + expTerms n (k + 1) (t * x / seriesOne / (k + 1)) x
/-- e^x for 0 ≤ x < 1. -/
def expSmall (x : Nat) : Nat := expTerms 96 0 seriesOne x

/-- 2^(a) for a = v · 2^−320 of magnitude below 2^11; the value is exact for an integer a only. -/
def exp2Units (v : Int) : FVal :=
  let i := v / (seriesOne : Int)
  let f := (v % (seriesOne : Int)).toNat
  if f = 0 then .fin false 1 i false
  else .fin false (expSmall (f * ln2 / seriesOne)) (i - seriesBits) true

/-- A finite value in units of 2^−320 (those of R104 are exact). -/
def seriesUnits (neg : Bool) (m : Nat) (e : Int) : Int :=
  if 0 ≤ e + seriesBits then unitsAt neg m e (-(seriesBits : Int)) else 0

/-- 2^a (R127). -/
def fExp2 (a : FVal) : FVal :=
  match a with
  | .nan => .nan
  | .inf neg => if neg then .fin false 0 0 false else .inf false
  | .fin neg m e _ =>
    if m = 0 then .fin false 1 0 false
    else if 10 ≤ Nat.log2 m + e then (if neg then .fin false 1 (-1100) true else .fin false 1 1100 true)
    else exp2Units (seriesUnits neg m e)

/-- e^a (R161, XEXP). -/
def fExp (a : FVal) : FVal :=
  match a with
  | .nan => .nan
  | .inf neg => if neg then .fin false 0 0 false else .inf false
  | .fin neg m e _ =>
    if m = 0 then .fin false 1 0 false
    else if 10 ≤ Nat.log2 m + e then (if neg then .fin false 1 (-1100) true else .fin false 1 1100 true)
    else
      let v := seriesUnits neg m e
      let i := v / (ln2 : Int)
      let f := (v % (ln2 : Int)).toNat
      .fin false (expSmall f) (i - seriesBits) true

/-- log2 a (R127). -/
def fLog2 (a : FVal) : Flagged FVal :=
  match a with
  | .nan => (.nan, 0)
  | .inf neg => if neg then (.nan, fIV) else (.inf false, 0)
  | .fin neg m e _ =>
    if m = 0 then (.inf true, fDZ)
    else if neg then (.nan, fIV)
    else
      let l := Nat.log2 m
      let i : Int := l + e
      let x := m * seriesOne / 2 ^ l
      if x = seriesOne then
        (if i = 0 then .fin false 0 0 false else .fin (decide (i < 0)) i.natAbs 0 false, 0)
      else
        let y := (x - seriesOne) * seriesOne / (x + seriesOne)
        let v : Int := i * seriesOne + (lnRatio y * seriesOne / ln2 : Nat)
        (.fin (decide (v < 0)) v.natAbs (-(seriesBits : Int)) true, 0)

/-! ### Operations on encodings -/

/-- An operation's exact value, rounded; the flags of both. -/
def deliver (f : FFmt) (rm : Nat) (sat : Bool) (r : Flagged FVal) : Flagged Nat :=
  let (v, fl) := roundTo f rm sat r.1
  (v, r.2 ||| fl)

/-- The order of two values that are no NaN: −1, 0, 1; −0.0 and +0.0 are equal. -/
def fCmp (a b : FVal) : Int :=
  match a, b with
  | .inf p, .inf q => if p = q then 0 else if p then -1 else 1
  | .inf p, _ => if p then -1 else 1
  | _, .inf q => if q then 1 else -1
  | .fin p m e _, .fin q n f _ =>
    let g := min e f
    let d := unitsAt p m e g - unitsAt q n f g
    if d < 0 then -1 else if d = 0 then 0 else 1
  | .nan, _ | _, .nan => 0

/-- The smaller (or larger) of two encodings (R126): −0.0 below +0.0; one NaN gives the other operand, two the default NaN. -/
def fPick (f : FFmt) (large : Bool) (a b : Nat) : Nat :=
  let x := f.read a
  let y := f.read b
  if x.isNan && y.isNan then f.nan
  else if x.isNan then b
  else if y.isNan then a
  else
    let c := fCmp x y
    let c := if c ≠ 0 then c else if x.neg && !y.neg then -1 else if y.neg && !x.neg then 1 else 0
    if large then (if c < 0 then b else a) else (if 0 < c then b else a)

/-- RoundF32 of a value. -/
def roundF32 (x : FVal) : Flagged Nat := roundTo F32 0 false x

/-- Fma32(a, b, c) (R107). -/
def fma32 (a b c : Nat) : Flagged Nat := deliver F32 0 false (fFma 0 (F32.read a) (F32.read b) (F32.read c))

/-- GainMul(g2, g1) (R118). -/
def gainMul (g2 g1 : Nat) : Flagged Nat :=
  match fMul (F32.read g2) (F32.read g1) with
  | (.fin neg m e _, _) =>
    if m ≠ 0 ∧ (Nat.log2 m : Int) + e < -126 then (F32.signBit neg, fAUF) else roundF32 (.fin neg m e false)
  | r => deliver F32 0 false r

/-- Compose(g2, b2, g1, b1) on AFF elements of 64 bits: map 1 first, then map 2 (R117, R119). -/
def compose (m2 m1 : Nat) : Flagged Nat :=
  let (g, f) := gainMul (m2 % 2 ^ 32) (m1 % 2 ^ 32)
  let (b, f') := fma32 (m2 % 2 ^ 32) (m1 / 2 ^ 32) (m2 / 2 ^ 32)
  (g % 2 ^ 32 + (b % 2 ^ 32) * 2 ^ 32, f ||| f')

/-- Applying a map to a value (R120). -/
def applyMap (m c : Nat) : Flagged Nat := fma32 (m % 2 ^ 32) c (m / 2 ^ 32)

/-! ### Conversions (R103, R109) -/

/-- Clamp to the range of an integer of `w` bits; SAT when the clamp changes the value. -/
def clampInt (w : Nat) (signed : Bool) (x : Int) : Flagged Int :=
  let lo : Int := if signed then -(2 ^ (w - 1) : Nat) else 0
  let hi : Int := if signed then (2 ^ (w - 1) : Nat) - 1 else (2 ^ w : Nat) - 1
  if x < lo then (lo, fSAT) else if hi < x then (hi, fSAT) else (x, 0)

/-- A float to an integer (R109). The value is tested against the range after RoundInt, a DESIGN CHOICE (log 74): 127.4 to I8 sets IX alone. -/
def fToInt (w : Nat) (signed : Bool) (rm : Nat) (x : FVal) : Flagged Nat :=
  let lo : Int := if signed then -(2 ^ (w - 1) : Nat) else 0
  let hi : Int := if signed then (2 ^ (w - 1) : Nat) - 1 else (2 ^ w : Nat) - 1
  match x with
  | .nan => (0, fIV)
  | .inf neg => (wrapInt w (if neg then lo else hi), fSAT ||| fIX)
  | .fin neg m e more =>
    let (n, ix) := roundInt rm neg m e more
    if n < lo then (wrapInt w lo, fSAT ||| fIX)
    else if hi < n then (wrapInt w hi, fSAT ||| fIX)
    else (wrapInt w n, if ix then fIX else 0)

/-- An integer as a value. -/
def fOfInt (x : Int) : FVal := .fin (decide (x < 0)) x.natAbs 0 false

/-- The integer that an encoding of an integer code holds. -/
def intOf (code v : Nat) : Int :=
  let w := tyWidth (BitVec.ofNat 4 code)
  if tySigned (BitVec.ofNat 4 code) then signedOf w v else ((v % 2 ^ w : Nat) : Int)

/-- One element from type code `src` to type code `to`, neither of them DX (R103, R108, R109, R133). -/
def convert (src dest rm : Nat) (sat : Bool) (v : Nat) : Flagged Nat :=
  let w := tyWidth (BitVec.ofNat 4 dest)
  let signed := tySigned (BitVec.ofNat 4 dest)
  if src ≤ 5 then
    if dest ≤ 5 then
      let (x, f) := clampInt w signed (intOf src v)
      (wrapInt w x, f)
    else roundTo (fmtOf dest) rm sat (fOfInt (intOf src v))
  else if dest ≤ 5 then fToInt w signed rm ((fmtOf src).read v)
  else roundTo (fmtOf dest) rm sat ((fmtOf src).read v)

/-! ### DX blocks (R111-R115) -/

/-- SH and MMAX of a DX width (8 or 4 bits). -/
def dxShift (w : Nat) : Int := if w = 8 then 132 else 128
def dxMax (w : Nat) : Nat := if w = 8 then 63 else 3

/-- The value of a DX element against its two exponents (R111). -/
def dxRead (w el e0 e1 : Nat) : FVal :=
  let sel := el.testBit (w - 1)
  let e := if sel then e1 else e0
  if e = 255 then .nan
  else .fin (el.testBit (w - 2)) (el % 2 ^ (w - 2)) ((e : Int) - dxShift w) false

/-- RoundMag(x, e) (R113). -/
def roundMag (w rm : Nat) (x : FVal) (e : Nat) : Nat :=
  match x with
  | .fin neg m f more => (roundUnits rm neg m f more ((e : Int) - dxShift w)).1
  | _ => 0

/-- E1 of R113 for the finite elements of a block. -/
def dxTop (w rm : Nat) (xs : List FVal) : Nat :=
  let tops := xs.filterMap (fun x => match x with
    | .fin _ m e _ => if m = 0 then none else some ((Nat.log2 m : Int) + e)
    | _ => none)
  match tops with
  | [] => 0
  | t :: ts =>
    let e := ts.foldl max t + 127
    let past := xs.any (fun x => match x with
      | .fin neg m f more => decide (dxMax w < (roundUnits rm neg m f more (e - dxShift w)).1)
      | _ => false)
    let e := if past then e + 1 else e
    (min (max e 0) 254).toNat

/-- A finite element against E0, or E1 where E0 does not hold it and `useE1` (R113). -/
def dxElem (w rm : Nat) (e0 e1 : Nat) (onlyE0 : Bool) (x : FVal) : Flagged Nat :=
  match x with
  | .fin neg m e more =>
    let g := roundMag w rm x e0
    let sel := !onlyE0 && decide (dxMax w < g)
    let raw := if sel then roundMag w rm x e1 else g
    let mg := min raw (dxMax w)
    let used := if sel then e1 else e0
    let fl : BitVec 8 := (if raw ≠ mg then fSAT else 0)
      ||| (if m ≠ 0 ∧ mg = 0 then fUF else 0)
      ||| (if more ∨ unitsAt false m e (min e ((used : Int) - dxShift w)) ≠
            unitsAt false mg ((used : Int) - dxShift w) (min e ((used : Int) - dxShift w)) then fIX else 0)
    ((if sel then 2 ^ (w - 1) else 0) + (if neg then 2 ^ (w - 2) else 0) + mg, fl)
  | _ => (2 ^ (w - 1), 0)

/-- DX quantization of a block of 32 values: the elements, E0, E1, flags (R113, R114). -/
def dxQuantize (w rm g : Nat) (xs : List FVal) : (List Nat × Nat × Nat) × BitVec 8 :=
  let finite := xs.all (fun x => match x with | .fin _ _ _ _ => true | _ => false)
  let top := dxTop w rm xs
  let gap := if g = 0 then (if w = 8 then 4 else 2) else g
  let e0 := if finite then top - gap else top
  let e1 := if finite then top else 255
  let els := xs.map (fun x => dxElem w rm e0 e1 (!finite) x)
  let fl := els.foldl (fun f e => f ||| e.2) (0 : BitVec 8)
  let fl := if xs.any (fun x => match x with | .inf _ => true | _ => false) then fl ||| fIV else fl
  ((els.map (·.1), e0, e1), fl)

/-! ### The Hadamard stage (R116) -/

/-- y[i] of a run of n values: the exact sum over √n, rounded once. -/
def hadamardAt (xs : List FVal) (i : Nat) : Flagged Nat :=
  let terms := xs.mapIdx (fun j x => if popParity (i &&& j) then x.flip else x)
  let sum := terms.foldl (fun (acc : Flagged FVal) x =>
    let (v, f) := fAdd 0 acc.1 x
    (v, acc.2 ||| f)) (FVal.fin true 0 0 false, 0)
  match sum with
  | (.fin neg m e _, f) =>
    if xs.length = 16 then deliver F32 0 false (.fin neg m (e - 2) false, f)
    else
      match fSqrt (.fin false (m * m) (2 * e - 5) false) with
      | (.fin _ r q more, _) => deliver F32 0 false (.fin neg r q more, f)
      | r => deliver F32 0 false r
  | r => deliver F32 0 false r
where
  popParity (n : Nat) : Bool := ((List.range 6).filter (fun k => n.testBit k)).length % 2 == 1

/-- The Hadamard transform of a run of 16 or 32 F32 encodings (R116). A run that holds a NaN raises nothing, be there infinities of both signs
in it or not: a DESIGN CHOICE (log 74). -/
def hadamard (xs : List Nat) : Flagged (List Nat) :=
  let vs := xs.map F32.read
  if vs.any FVal.isNan then (xs.map (fun _ => F32.nan), 0)
  else
    let ys := (List.range xs.length).map (fun i => hadamardAt vs i)
    (ys.map (·.1), ys.foldl (fun f y => f ||| y.2) 0)

end Sys2Proof.Machine
end

