-- ==== Sys2Proof/Machine/Operands.lean ====
section
/-!
DEFINITION. Operand forms: the vector window (R92, R95), elements and guards (R12, R102, R124), tiles and frames (R92, R162-R168,
R172), semaphore references (R92), element and slice indices (R132, R138, R169).
-/

namespace Sys2Proof.Machine

/-! ### Vector registers -/

/-- VBASE.BASE and VLIM.LIM (R91). -/
def Bank.vbase (b : Bank) : Nat := fieldOf (b.csrAt 0x010) 3 8
def Bank.vlim (b : Bank) : Nat := fieldOf (b.csrAt 0x011) 0 12
/-- The physical register of vector `n`, and whether the reference is legal (R92). -/
def Bank.vphys (b : Bank) (n : Nat) : Nat := 8 * b.vbase + n
def Bank.vok (b : Bank) (n : Nat) : Bool := decide (n < b.vlim) && decide (b.vphys n ≤ 2047)

/-- A physical vector register. -/
def Core.vreg (x : Core) (i : Nat) : VReg := mapGet (fun _ => 0) x.vfile i
/-- Vector register `n` of the acting strand's window. -/
def State.vget (s : State) (n : Nat) : VReg := s.cr.vreg (s.bk.vphys n)

def Core.vtagAt (x : Core) (g : Nat) : VGroup := mapGet (fun _ => ({} : VGroup)) x.vtag g
/-- The bank that owns group `g` (R95), where its task is still on the core. -/
def Core.vowner (x : Core) (g : Nat) : Option Nat :=
  match (x.vtagAt g).uid with
  | some u => if (x.posOf u).isSome then some u else none
  | none => none

/-- Whether a bundle of task `uid` that names group `g` must wait for its exchange (R95): another bank owns it, and it is not saved yet. -/
def State.groupAway (s : State) (c uid g : Nat) : Bool :=
  match (s.core c).vowner g with
  | some u => u != uid && ((s.core c).vtagAt g).dirty
  | none => false

/-- Whether group `g` does not hold what task `uid` of context `ctx` is to find there (R95, R328): another bank owns it, or the context's
save area holds it, or it carries the tag of another world. -/
def State.groupStale (s : State) (c uid ctx g : Nat) : Bool :=
  let t := (s.core c).vtagAt g
  match (s.core c).vowner g with
  | some u => u != uid
  | none => t.uid != some uid && ((s.ctx ctx).saved.contains (c, 256 + g) || (decide (t.world ≠ s.worldOf ctx) && t.uid.isSome))

/-- The registers of group `g` that a background save under way has saved (R95). -/
def Core.savedOf (x : Core) (g : Nat) : Nat := match x.groupSave with | some (h, k, _) => if h = g then k else 0 | none => 0

/-- The exchange of a group starts, once (R95): the save, or what a background save has left of it, and what is restored or zeroed take 8
clk each, at 256 bytes per clk. -/
def State.askGroup (s : State) (g : Nat) : State :=
  if s.cr.groupMoves.any (fun m => m.1 == g) then s
  else
    let fill := (s.ctx s.bk.ctx).saved.contains (s.cur.core, 256 + g) || decide ((s.cr.vtagAt g).world ≠ s.worldOf s.bk.ctx)
    s.modCr fun x => { x with groupMoves := x.groupMoves ++ [(g, s.bk.uid, s.clk + (8 - s.cr.savedOf g) + (if fill then 8 else 0))] }

/-- Whether a word that the mask takes part of is uncorrectable (R101); `ErrLoc.vector` numbers 64-bit words. -/
def Core.vbad (x : Core) (i : Nat) (mask : VReg) : Bool :=
  x.bad.any (fun l => match l with
    | .vector _ w => w / 32 == i && (mask.extractLsb' (64 * (w % 32)) 64 != 0)
    | _ => false)

/-- The first register of a list that lies outside the window (R92). -/
def State.vRange (s : State) (ns : List Nat) : Option Trap :=
  (ns.find? (fun n => !s.bk.vok n)).map (fun n => rangeTrap 0 n)

/-- The checks on the vector registers that a slot names, in field order, with the bits that it reads of each: the window, the
group's owner, uncorrectable words (R92, R95, R101). -/
def State.vneed (s : State) (ns : List (Nat × VReg)) (r : Try) : Try :=
  match s.vRange (ns.map (·.1)) with
  | some t => .trap t
  | none =>
    match ns.find? (fun n => s.groupAway s.cur.core s.bk.uid (s.bk.vphys n.1 / 8)) with
    | some n => .block (.vgroup (s.bk.vphys n.1 / 8)) (s.askGroup (s.bk.vphys n.1 / 8))
    | none =>
      match ns.find? (fun n => s.cr.vbad (s.bk.vphys n.1) n.2) with
      | some n => .trap (ueTrap 1 (s.bk.vphys n.1))
      | none => r

/-! ### Elements -/

/-- The elements of a register, `w` bits each (R102). -/
def elems (w : Nat) (v : VReg) : List Nat := (List.range (2048 / w)).map (fun i => bitsOf v.toNat (w * i) w)
/-- Numbers of `w` bits packed from the lowest on. -/
def packBits (w : Nat) : List Nat → Nat
  | [] => 0
  | x :: xs => x % 2 ^ w + 2 ^ w * packBits w xs
def packV (w : Nat) (xs : List Nat) : VReg := BitVec.ofNat 2048 (packBits w xs)

/-- Whether element i is active: its guard bit is that of its lowest byte (R11, R12, R124). -/
def State.active (s : State) (g : Guard) (w i : Nat) : Bool := (s.guardBits g).getLsbD (i * w / 8)
/-- The bits of the active elements. -/
def State.activeMask (s : State) (g : Guard) (w : Nat) : VReg :=
  packV w ((List.range (2048 / w)).map (fun i => if s.active g w i then 2 ^ w - 1 else 0))

/-- The bits that a merge keeps of its destination: those of the elements that are not active, read as a source (R124, log 68). -/
def State.keepMask (s : State) (g : Guard) (w : Nat) : VReg := ~~~(s.activeMask g w)

/-- A vector slot: no active element makes it a no-op (R124). -/
def State.vslot (s : State) (g : Guard) (w : Nat) (r : Try) : Host.Outcome State Fault Refusal :=
  if (List.range (2048 / w)).any (fun i => s.active g w i) then s.settle r else .next s

/-- The write of a whole vector register, with flags, latency `n` (R124). -/
def State.landV (s : State) (vd : BitVec 11) (v : VReg) (n : Nat) (flags : BitVec 8 := 0) : State :=
  s.land (.v (s.bk.vphys vd.toNat) v (BitVec.allOnes 2048)) n flags

/-- The effect of R124: active elements take f(i), the others the value held at issue; flags come from active elements. -/
def State.elementwise (s : State) (g : Guard) (w : Nat) (vd : BitVec 11) (lat : Nat) (f : Nat → Flagged Nat) : State :=
  let old := elems w (s.vget vd.toNat)
  let res := (List.range (2048 / w)).map (fun i => if s.active g w i then f i else (old.getD i 0, 0))
  s.landV vd (packV w (res.map (·.1))) lat (res.foldl (fun fl r => fl ||| r.2) 0)

/-- The rounding mode in force (R107, R123). -/
def State.rm (s : State) (m : BitVec 3) : Nat := if m.toNat = 0 then fieldOf (s.bk.csrAt 0x008) 0 2 else m.toNat % 4
/-- FCTL.SATCVT (R14). -/
def State.satcvt (s : State) : Bool := (s.bk.csrAt 0x008).getLsbD 3

/-- An immediate or register element index (R132, R138); a register value counts modulo n. -/
def State.elemIndex (s : State) (ty : BitVec 4) (j : ElemIndex) : Nat :=
  match j with
  | .imm k => k.toNat
  | .reg b => (s.sr b).toNat % tyCount ty

/-! ### Tiles -/

/-- FRAMES and TILES of TFMASK (R91). -/
def Bank.frameGranted (b : Bank) (f : Nat) : Bool := decide (f < 16) && (b.csrAt 0x014).getLsbD (16 + f)
def Bank.tileOk (b : Bank) (t : Nat) : Bool := (b.csrAt 0x014).getLsbD t
def Bank.tshape (b : Bank) (t : Nat) : Word := b.csrAt (0x040 + t)
/-- FRAME, FMT, COLS, ROWS, VALID of a TSHAPE word (R14). -/
def shFrame (w : Word) : Nat := fieldOf w 20 5
def shFmt (w : Word) : Nat := fieldOf w 16 4
def shCols (w : Word) : Nat := fieldOf w 8 8
def shRows (w : Word) : Nat := fieldOf w 0 8
def shValid (w : Word) : Bool := w.getLsbD 25
/-- Bytes of a tile element. -/
def shSize (w : Word) : Nat := if shFmt w = 0xB then 8 else 4

/-- TILE_SHAPE (R25): [3:0] tile, [63:32] shape word. -/
def shapeTrap (t : Nat) (w : Word) : Trap :=
  { code := 0x08, info := BitVec.ofNat 64 (t + (w.toNat % 2 ^ 32) * 2 ^ 32) }

/-- The tiles that an M command names. -/
def MCmd.tiles (m : MCmd) : List Nat := match m.op with | .mma f => [f.td] | .mrep l => l.map (·.td) | _ => []
/-- An M-slot command of the core that names frame `f` has issued and not completed (R165). -/
def Core.frameBusy (x : Core) (f : Nat) : Bool := (x.mq ++ x.mrun).any (fun m => m.shapes.any (fun w => shFrame w == f))
/-- The same of tile `t` of a strand, wherever it is mapped now. -/
def Core.tileNamed (x : Core) (uid t : Nat) : Bool := (x.mq ++ x.mrun).any (fun m => m.uid == uid && m.tiles.contains t)
def Core.owns (x : Core) (f ctx : Nat) : Bool := mapGet (fun _ => none) x.frameOwner f == some ctx
/-- Context `ctx` may use frame `f` now: it owns it, and no exchange takes it away (R172). -/
def Core.mayUse (x : Core) (f ctx : Nat) : Bool := x.owns f ctx && !x.frameMoves.any (fun m => m.1 == f)

/-- The exchange of a frame starts, once (R172, R175): a dirty frame is saved, or its background save ends, and then it is restored or
zeroed, 256 clk each. -/
def State.askFrame (s : State) (c ctx f : Nat) : State :=
  let x := s.core c
  if x.frameMoves.any (fun m => m.1 == f) then s
  else
    let saved := match x.frameSaves.find? (fun e => e.1 == f) with | some e => e.2 | none => s.clk + 256
    s.setCore c { x with frameMoves := x.frameMoves ++ [(f, ctx, if x.frameDirty.contains f then saved + 256 else s.clk + 256)] }

/-- The checks of R168 on the tiles that a slot names, the wait for a busy tile (R165), the checks of the slot's entry, which stand on what
the bundle finds once no tile is busy, the wait for a frame (R172); then the words read. -/
def State.tneed (s : State) (vs : List (Nat × VReg)) (ts : List Nat) (entry : Option Trap) (reads : List (Nat × Nat)) (r : Try) :
    Try :=
  match s.vRange (vs.map (·.1)) with
  | some t => .trap t
  | none =>
    match ts.find? (fun t => !s.bk.tileOk t) with
    | some t => .trap (rangeTrap 1 t)
    | none =>
      match ts.find? (fun t => !shValid (s.bk.tshape t)) with
      | some t => .trap (causeTrap 0x07 (BitVec.ofNat 64 t))
      | none =>
        let frames := ts.map (fun t => shFrame (s.bk.tshape t))
        if frames.any s.cr.frameBusy || ts.any (s.cr.tileNamed s.bk.uid) then .block (.tiles frames ts) s
        else
          match entry with
          | some t => .trap t
          | none =>
            match frames.find? (fun f => !s.cr.mayUse f s.bk.ctx) with
            | some f =>
              .block (.frames f) ((frames.filter (fun f => !s.cr.owns f s.bk.ctx)).foldl (fun s f => s.askFrame s.cur.core s.bk.ctx f) s)
            | none =>
              s.vneed vs (match reads.findSome? (fun x => s.cr.accumBad x.1 x.2) with
                | some o => .trap (ueTrap 4 o)
                | none => r)

/-! ### Semaphores -/

/-- The references of a slot are null or lie in the window (R92). -/
def State.semNeed (s : State) (ns : List Nat) (r : Try) : Try :=
  match ns.find? (fun n => !s.bk.semOk n) with
  | some n => .trap (rangeTrap 2 n)
  | none => r

end Sys2Proof.Machine
end

