-- ==== Sys2Proof/Machine/Exchange.lean ====
section
/-!
DEFINITION. Vector groups and tile frames that pass between owners through the save area (R95, R172, R291, R328).
-/

namespace Sys2Proof.Machine

/-- The 2,048 bytes of vector group `g` (R95). -/
def Core.groupBytes (x : Core) (g : Nat) : List Byte := (List.range 8).flatMap (fun i => bytesOfNat 256 (x.vreg (8 * g + i)).toNat)
/-- Whether a mark of a core concerns vector group `g`, or frame `f` (R101, R163). -/
def inGroup (g : Nat) (l : ErrLoc) : Bool := match l with | .vector _ w => w / 256 == g | _ => false
def inFrame (f : Nat) (l : ErrLoc) : Bool := match l with | .accum _ o => o / 65536 == f | _ => false
/-- A group written whole is encoded afresh. -/
def Core.putGroup (x : Core) (g : Nat) (v : List Byte) : Core :=
  { x with bad := x.bad.filter (fun l => !inGroup g l), vfile := (List.range 8).foldl (fun m i =>
      mapSet (fun _ => 0) m (8 * g + i) (BitVec.ofNat 2048 (natOfBytes ((v.drop (256 * i)).take 256)))) x.vfile }
/-- Words that are saved carry their error marks with them, and bring them back when they are restored (R101). -/
def Ctx.keepMarks (k : Ctx) (c : Nat) (p : ErrLoc → Bool) (marks : List ErrLoc) : Ctx :=
  { k with savedBad := k.savedBad.filter (fun l => !(p l && (match l with | .vector e _ | .accum e _ => e == c | _ => false))) ++ marks }
def Ctx.marksOf (k : Ctx) (c : Nat) (p : ErrLoc → Bool) : List ErrLoc :=
  k.savedBad.filter (fun l => p l && (match l with | .vector e _ | .accum e _ => e == c | _ => false))

/-- The registers of group `g` from `k` on are written to its owner's save area, which then holds the group, with its error marks (R95,
R101). -/
def State.saveRest (s : State) (c g k : Nat) : State :=
  let t := (s.core c).vtagAt g
  let s := s.saveWrite t.ctx c (0x100000 + 2048 * g + 256 * k) (((s.core c).groupBytes g).drop (256 * k))
  let marks := (s.core c).bad.filter (inGroup g)
  let s := s.modCtx t.ctx fun x => { x with saved := ((c, 256 + g) :: x.saved).eraseDups }.keepMarks c (inGroup g) marks
  s.modCore c fun x => { x with groupSave := x.groupSave.filter (fun e => e.1 != g),
                                vtag := mapSet (fun _ => ({} : VGroup)) x.vtag g { t with dirty := false } }

/-- Save a dirty group of its owner, or what a background save has left of it (R95). -/
def State.saveGroup (s : State) (c g : Nat) : State :=
  let t := (s.core c).vtagAt g
  if t.dirty && t.uid.isSome && !(s.ctx t.ctx).dead then s.saveRest c g ((s.core c).savedOf g) else s

/-- VECTOR_GROUP_EXCHANGE for task `uid` of context `ctx` (R95): saved, then restored where a saved copy exists; one that carries the tag of
another world is zeroed instead (R328). -/
def State.exchangeGroup (s : State) (c uid ctx g : Nat) : State :=
  let s := s.saveGroup c g
  let t := (s.core c).vtagAt g
  let w := s.worldOf ctx
  let s :=
    if t.world ≠ w ∧ t.uid.isSome then s.modCore c fun x => x.putGroup g (List.replicate 2048 0)
    else if (s.ctx ctx).saved.contains (c, 256 + g) then
      let (s, v, ue) := s.saveRead ctx c (0x100000 + 2048 * g) 2048
      let marks := (s.ctx ctx).marksOf c (inGroup g) ++ ((List.range 256).filter (fun i => ue.getD i false)).map (fun i => .vector c (256 * g + i))
      s.modCore c fun x => let y := x.putGroup g v; { y with bad := y.bad ++ marks }
    else s
  s.modCore c fun x => { x with vtag := mapSet (fun _ => ({} : VGroup)) x.vtag g ⟨some uid, ctx, 0, false, w⟩ }

/-- The groups that a bundle of the acting strand names, which hold something else and are saved already, change hands without a block
(R95). -/
def State.bringGroups (s : State) (gs : List Nat) : State :=
  gs.eraseDups.foldl (fun s g =>
    if s.groupStale s.cur.core s.bk.uid s.bk.ctx g && !s.groupAway s.cur.core s.bk.uid g then
      s.exchangeGroup s.cur.core s.bk.uid s.bk.ctx g
    else s) s

/-- Save a dirty frame to its owner's slot (R172). -/
def State.saveFrame (s : State) (c f : Nat) : State :=
  match mapGet (fun _ => none) (s.core c).frameOwner f with
  | some o =>
    if (s.core c).frameDirty.contains f then
      let s := s.saveWrite o c (0x10000 * f) ((s.core c).accumBytes (65536 * f) 65536)
      let marks := (s.core c).bad.filter (inFrame f)
      let s := s.modCtx o fun x => { x with saved := ((c, f) :: x.saved).eraseDups }.keepMarks c (inFrame f) marks
      s.modCore c fun x => { x with frameDirty := x.frameDirty.filter (· != f) }
    else s
  | none => s

/-- FRAME_EXCHANGE (R172): frame `f` passes to context `ctx`. -/
def State.exchangeFrame (s : State) (c ctx f : Nat) : State :=
  if (s.core c).owns f ctx then s
  else
    let s := s.saveFrame c f
    let held := (s.ctx ctx).saved.contains (c, f)
    let (s, v, ue) : State × List Byte × List Bool := if held then s.saveRead ctx c (0x10000 * f) 65536 else (s, [], [])
    let marks := (if held then (s.ctx ctx).marksOf c (inFrame f) else []) ++
      ((List.range 8192).filter (fun i => ue.getD i false)).map (fun i => .accum c (65536 * f + 8 * i))
    s.modCore c fun x =>
      { x with bad := x.bad.filter (fun l => !inFrame f l) ++ marks,
               accum := mapSetList (fun _ => 0) (mapClear x.accum (65536 * f) 65536) (65536 * f) v,
               frameOwner := mapSet (fun _ => none) x.frameOwner f (some ctx),
               frameSaves := x.frameSaves.filter (fun e => e.1 != f), frameDirty := x.frameDirty.filter (· != f) }

/-- VECTOR_GROUP_EXCHANGE: operands core, pos, n. -/
def execVectorGroupExchange (s : State) : Host.Outcome State Fault Refusal :=
  let c := s.ev.core
  let g := s.ev.n
  match (s.core c).groupMoves.find? (fun m => m.1 == g && decide (m.2.2 ≤ s.clk)) with
  | none => .next s
  | some m =>
    let s := s.modCore c fun x => { x with groupMoves := x.groupMoves.filter (fun k => k.1 != g) }
    match (s.core c).posOf m.2.1 with
    | some p => .next (s.exchangeGroup c m.2.1 (s.bank c p).ctx g)
    | none => .next s

/-- Whether the spill engine may save group `g` in the background (R95): it is dirty, and its owner is in the shadow bank. -/
def State.saveable (s : State) (c g : Nat) : Bool :=
  let t := (s.core c).vtagAt g
  t.dirty && (match t.uid with | some u => (s.core c).posOf u == some 4 | none => false) && !(s.ctx t.ctx).dead

/-- Whether this is a port clk that no bundle and no exchange uses, and in which the engine has saved nothing yet (R95). -/
def Core.portIdle (x : Core) (now : Nat) : Bool :=
  x.portClk != now && x.groupMoves.isEmpty && x.groupSave.all (fun e => e.2.2 != now)

/-- VECTOR_GROUP_BACKGROUND_SAVE (R95): operands core, n. In an idle port clk the engine saves the next register of the group, 256 bytes;
with the eighth the group is saved. It saves one group at a time, and gives one up whose owner has come back. -/
def execVectorGroupBackgroundSave (s : State) : Host.Outcome State Fault Refusal :=
  let c := s.ev.core
  let g := s.ev.n
  let x := s.core c
  let s := match x.groupSave with
    | some e => if s.saveable c e.1 then s else s.modCore c fun x => { x with groupSave := none }
    | none => s
  let x := s.core c
  if s.saveable c g = false ∨ x.portIdle s.clk = false ∨ x.groupSave.any (fun e => e.1 != g) = true then .next s
  else
    let k := x.savedOf g
    if 7 ≤ k then .next (s.saveRest c g k)
    else
      let s := s.saveWrite (x.vtagAt g).ctx c (0x100000 + 2048 * g + 256 * k) (((x.groupBytes g).drop (256 * k)).take 256)
      .next (s.modCore c fun x => { x with groupSave := some (g, k + 1, s.clk) })

/-- FRAME_EXCHANGE: operands core, n, ctx. -/
def execFrameExchange (s : State) : Host.Outcome State Fault Refusal :=
  let c := s.ev.core
  let f := s.ev.n
  match (s.core c).frameMoves.find? (fun m => m.1 == f && decide (m.2.2 ≤ s.clk)) with
  | none => .next s
  | some m =>
    let s := s.modCore c fun x => { x with frameMoves := x.frameMoves.filter (fun k => k.1 != f) }
    if (s.ctx m.2.1).dead then .next s else .next (s.exchangeFrame c m.2.1 f)

/-- Whether a task of context `ctx` stands in a position of the core. -/
def Core.resident (x : Core) (ctx : Nat) : Bool :=
  [0, 1, 2, 3].any (fun p => match (x.bank p).task with | some t => t.ctx == ctx | none => false)

/-- FRAME_BACKGROUND_SAVE (R172, R175): operands core, n. The save of a dirty frame whose owner is not resident begins in idle port clk; 256
clk later its bytes are in the save area. -/
def execFrameBackgroundSave (s : State) : Host.Outcome State Fault Refusal :=
  let c := s.ev.core
  let f := s.ev.n
  let x := s.core c
  match x.frameSaves.find? (fun e => e.1 == f) with
  | some e =>
    if e.2 ≤ s.clk then .next ((s.saveFrame c f).modCore c fun x => { x with frameSaves := x.frameSaves.filter (fun e => e.1 != f) })
    else .next s
  | none =>
    match mapGet (fun _ => none) x.frameOwner f with
    | some o =>
      if x.resident o || !x.frameDirty.contains f || x.frameMoves.any (fun m => m.1 == f) then .next s
      else .next (s.modCore c fun x => { x with frameSaves := x.frameSaves ++ [(f, s.clk + 256)] })
    | none => .next s

end Sys2Proof.Machine
end

