-- ==== Sys2Proof/Machine/Vector.lean ====
section
/-!
DEFINITION. Vector arithmetic, logic, shifts, compares, selection, reductions, permutes, conversions and moves (R123-R134,
R138).
-/

namespace Sys2Proof.Machine

/-! ### Element operations -/

/-- A two-operand form of R126: integers wrap, floats round once. -/
def bin (ty rm : Nat) (fi : Int → Int → Int) (ff : FVal → FVal → Flagged FVal) (a b : Nat) : Flagged Nat :=
  if ty ≤ 5 then (wrapInt (tyWidth (BitVec.ofNat 4 ty)) (fi (intOf ty a) (intOf ty b)), 0)
  else deliver (fmtOf ty) rm false (ff ((fmtOf ty).read a) ((fmtOf ty).read b))

/-- VFMA and VFMS (R126). -/
def mulAdd (ty rm : Nat) (minus : Bool) (a b c : Nat) : Flagged Nat :=
  if ty ≤ 5 then
    let p := intOf ty a * intOf ty b
    (wrapInt (tyWidth (BitVec.ofNat 4 ty)) (if minus then p - intOf ty c else p + intOf ty c), 0)
  else
    let f := fmtOf ty
    deliver f rm false (fFma rm (f.read a) (f.read b) (if minus then (f.read c).flip else f.read c))

/-- VMUL.hi: the high w bits of the product (R126). -/
def mulHi (ty a b : Nat) : Nat :=
  let w := tyWidth (BitVec.ofNat 4 ty)
  wrapInt w ((intOf ty a * intOf ty b) / (2 ^ w : Nat))

/-- VMIN and VMAX (R126). -/
def pick (ty : Nat) (large : Bool) (a b : Nat) : Nat :=
  if ty ≤ 5 then
    if large then (if intOf ty a < intOf ty b then b else a) else (if intOf ty b < intOf ty a then b else a)
  else fPick (fmtOf ty) large a b

/-- VABS: the sign bit cleared; integers wrap, N types unchanged (R126). -/
def absElem (ty a : Nat) : Nat :=
  let w := tyWidth (BitVec.ofNat 4 ty)
  if ty ≤ 5 then (if intOf ty a < 0 then wrapInt w (-(intOf ty a)) else a) else a % 2 ^ (w - 1)
/-- VNEG: the sign bit changed; integers wrap (R126). -/
def negElem (ty a : Nat) : Nat :=
  let w := tyWidth (BitVec.ofNat 4 ty)
  if ty ≤ 5 then wrapInt w (-(intOf ty a)) else a ^^^ 2 ^ (w - 1)

/-- A saturating sum (R126). -/
def satElem (ty : Nat) (x : Int) : Flagged Nat :=
  let w := tyWidth (BitVec.ofNat 4 ty)
  let (v, f) := clampInt w (tySigned (BitVec.ofNat 4 ty)) x
  (wrapInt w v, f)

/-- One operand of a float type, rounded (R127). -/
def un (ty rm : Nat) (ff : FVal → Flagged FVal) (a : Nat) : Flagged Nat :=
  deliver (fmtOf ty) rm false (ff ((fmtOf ty).read a))

/-- Shifts of w bits by a count (R128). -/
def shlElem (w a n : Nat) : Nat := if w ≤ n then 0 else (a <<< n) % 2 ^ w
def shrElem (w a n : Nat) : Nat := if w ≤ n then 0 else a >>> n
def sarElem (w a n : Nat) : Nat := wrapInt w (signedOf w a / (2 ^ (min n w) : Nat))

/-- The compares (R129): 0 equal, 1 below, 2 at most, 3 not equal; a NaN is unordered. -/
def cmpElem (ty kind a b : Nat) : Bool :=
  if ty ≤ 5 then
    match kind with
    | 0 => intOf ty a == intOf ty b
    | 1 => decide (intOf ty a < intOf ty b)
    | 2 => decide (intOf ty a ≤ intOf ty b)
    | _ => intOf ty a != intOf ty b
  else
    let x := (fmtOf ty).read a
    let y := (fmtOf ty).read b
    if x.isNan || y.isNan then kind == 3
    else
      match kind with
      | 0 => fCmp x y == 0
      | 1 => decide (fCmp x y < 0)
      | 2 => decide (fCmp x y ≤ 0)
      | _ => fCmp x y != 0

/-! ### Shared shapes -/

/-- The count of a shift: element i of a register, or an immediate (R128). -/
def State.shiftCount (s : State) (w : Nat) (c : ShiftCount) (i : Nat) : Nat :=
  match c with
  | .imm n => n.toNat
  | .vec vb => (elems w (s.vget vb.toNat)).getD i 0

/-- Forms of one, two and three vector sources (R124, R126). The words of vD that the merge keeps count as read: an uncorrectable one raises
UE_CONSUMED, a DESIGN CHOICE (R101, log 68). -/
def State.v1 (s : State) (g : Guard) (ty : BitVec 4) (vd va : BitVec 11) (lat : Nat) (f : Nat → Flagged Nat) :
    Host.Outcome State Fault Refusal :=
  let w := tyWidth ty
  let m := s.activeMask g w
  s.vslot g w (s.vneed [(vd.toNat, s.keepMask g w), (va.toNat, m)]
    (let a := elems w (s.vget va.toNat)
     .ok (s.elementwise g w vd lat (fun i => f (a.getD i 0)))))

def State.v2 (s : State) (g : Guard) (ty : BitVec 4) (vd va vb : BitVec 11) (lat : Nat) (f : Nat → Nat → Flagged Nat) :
    Host.Outcome State Fault Refusal :=
  let w := tyWidth ty
  let m := s.activeMask g w
  s.vslot g w (s.vneed [(vd.toNat, s.keepMask g w), (va.toNat, m), (vb.toNat, m)]
    (let a := elems w (s.vget va.toNat)
     let b := elems w (s.vget vb.toNat)
     .ok (s.elementwise g w vd lat (fun i => f (a.getD i 0) (b.getD i 0)))))

def State.v3 (s : State) (g : Guard) (ty : BitVec 4) (vd va vb vc : BitVec 11) (lat : Nat) (f : Nat → Nat → Nat → Flagged Nat) :
    Host.Outcome State Fault Refusal :=
  let w := tyWidth ty
  let m := s.activeMask g w
  s.vslot g w (s.vneed [(vd.toNat, s.keepMask g w), (va.toNat, m), (vb.toNat, m), (vc.toNat, m)]
    (let a := elems w (s.vget va.toNat)
     let b := elems w (s.vget vb.toNat)
     let c := elems w (s.vget vc.toNat)
     .ok (s.elementwise g w vd lat (fun i => f (a.getD i 0) (b.getD i 0) (c.getD i 0)))))

/-- A shift (R128). -/
def State.vshift (s : State) (g : Guard) (ty : BitVec 4) (vd va : BitVec 11) (c : ShiftCount) (f : Nat → Nat → Nat → Nat) :
    Host.Outcome State Fault Refusal :=
  let w := tyWidth ty
  let m := s.activeMask g w
  let cnt : List (Nat × VReg) := match c with | .vec vb => [(vb.toNat, m)] | .imm _ => []
  s.vslot g w (s.vneed ([(vd.toNat, s.keepMask g w), (va.toNat, m)] ++ cnt)
    (let a := elems w (s.vget va.toNat)
     .ok (s.elementwise g w vd 2 (fun i => (f w (a.getD i 0) (s.shiftCount w c i), 0)))))

/-- A compare (R129): every predicate bit of an active element's bytes takes its result. -/
def State.vcompare (s : State) (g : Guard) (ty : BitVec 4) (pd : BitVec 4) (va vb : BitVec 11) (kind : Nat) :
    Host.Outcome State Fault Refusal :=
  let w := tyWidth ty
  let m := s.activeMask g w
  s.vslot g w (s.vneed [(va.toNat, m), (vb.toNat, m)]
    (let a := elems w (s.vget va.toNat)
     let b := elems w (s.vget vb.toNat)
     let old := (s.pr pd).toNat
     let k := w / 8
     let bits := (List.range (2048 / w)).map (fun i =>
       if s.active g w i then (if cmpElem ty.toNat kind (a.getD i 0) (b.getD i 0) then 2 ^ k - 1 else 0)
       else bitsOf old (k * i) k)
     .ok (s.landP pd (BitVec.ofNat 256 (packBits k bits)) 2)))

/-- One level of the tree of R131. -/
def treeLevel (op : Nat → Nat → Flagged Nat) : List (Option Nat) → List (Option Nat) × BitVec 8
  | a :: b :: xs =>
    let (r, f) := treeLevel op xs
    match a, b with
    | some x, some y =>
      let (v, g) := op x y
      (some v :: r, f ||| g)
    | some x, none => (some x :: r, f)
    | none, y => (y :: r, f)
  | xs => (xs, 0)

/-- The tree of log2 n levels (R131). -/
def treeReduce (op : Nat → Nat → Flagged Nat) : Nat → List (Option Nat) → Option Nat × BitVec 8
  | 0, xs => (xs.head?.join, 0)
  | n + 1, xs =>
    let (ys, f) := treeLevel op xs
    let (r, g) := treeReduce op n ys
    (r, f ||| g)

/-- A reduction (R131): the guard chooses the elements; the destination is written whole. -/
def State.vreduce (s : State) (g : Guard) (ty : BitVec 4) (vd va : BitVec 11) (op : Nat → Nat → Flagged Nat) :
    Host.Outcome State Fault Refusal :=
  let w := tyWidth ty
  s.vslot g w (s.vneed [(vd.toNat, 0), (va.toNat, s.activeMask g w)]
    (let a := (elems w (s.vget va.toNat)).mapIdx (fun i x => if s.active g w i then some x else none)
     let (r, f) := treeReduce op (Nat.log2 (2048 / w)) a
     .ok (s.landV vd (BitVec.ofNat 2048 (r.getD 0)) 6 f)))

/-! ### Conversions (R133, R134) -/

/-- The elements of a DX pair as values, and whether an exponent byte is 0xFF (R112, R115). -/
def dxPair (w : Nat) (even odd : VReg) : List FVal × Bool :=
  let n := 2048 / w
  let ex := elems 8 odd
  let els := (List.range n).map (fun i =>
    dxRead w (bitsOf even.toNat (w * i) w) (ex.getD (2 * (i / 32)) 0) (ex.getD (2 * (i / 32) + 1) 0))
  (els, (ex.take (n / 16)).any (· == 255))

/-- Elements of a type code widened to values. -/
def valuesOf (code : Nat) (v : VReg) : List FVal := (elems (tyWidth (BitVec.ofNat 4 code)) v).map (fmtOf code).read

/-- Blocks of 32 of a list. -/
def blocks32 : Nat → List FVal → List (List FVal)
  | 0, _ => []
  | n + 1, xs => xs.take 32 :: blocks32 n (xs.drop 32)

/-- Quantize blocks into a DX pair from block `first` on: payload, exponents, flags; the bytes above the exponents are zero
(R112, R134). -/
def dxStore (w rm gap first : Nat) (even odd : VReg) (xs : List FVal) : (VReg × VReg) × BitVec 8 :=
  let n := 2048 / w
  let bl := (blocks32 (xs.length / 32) xs).map (dxQuantize w rm gap)
  let els := bl.flatMap (fun b => b.1.1)
  let payload := (List.range n).map (fun i =>
    if 32 * first ≤ i ∧ i < 32 * first + els.length then els.getD (i - 32 * first) 0 else bitsOf even.toNat (w * i) w)
  let exps := (List.range (n / 16)).map (fun i =>
    let j := i / 2
    if first ≤ j ∧ j < first + bl.length then
      let b := (bl.getD (j - first) (([], 0, 0), 0)).1
      if i % 2 = 0 then b.2.1 else b.2.2
    else bitsOf odd.toNat (8 * i) 8)
  ((packV w payload, packV 8 exps), bl.foldl (fun f b => f ||| b.2) 0)

/-- The bits of elements [lo, hi) of `w` bits. -/
def bitsBetween (w lo hi : Nat) : VReg := BitVec.ofNat 2048 (2 ^ (w * hi) - 2 ^ (w * lo))

/-- VCVT to a DX format (R134): the other blocks of the pair, payload and exponents, are read to be kept. -/
def State.cvtToDx (s : State) (ty : BitVec 4) (rm : Nat) (vd va : BitVec 11) (src : BitVec 4) (part gapx : Nat) : Try :=
  let ns := tyCount src
  let exps := bitsBetween 8 0 (2048 / tyWidth ty / 16)
  s.vneed [(vd.toNat, ~~~bitsBetween (tyWidth ty) (part * ns) (part * ns + ns)),
           (vd.toNat + 1, exps &&& ~~~bitsBetween 8 (part * ns / 16) (part * ns / 16 + ns / 16)), (va.toNat, BitVec.allOnes 2048)]
    (let w := tyWidth ty
     let ns := tyCount src
     let xs := valuesOf src.toNat (s.vget va.toNat)
     let ((e, o), f) := dxStore w rm gapx (part * ns / 32) (s.vget vd.toNat) (s.vget (vd.toNat + 1)) xs
     .ok ((s.landV vd e 3 f).land (.v (s.bk.vphys (vd.toNat + 1)) o (BitVec.allOnes 2048)) 3))

/-- The source element that destination element i takes, if it takes one (R133). -/
def cvtSource (ns nd part i : Nat) : Option Nat :=
  if nd < ns then some (part * nd + i)
  else if part * ns ≤ i ∧ i < part * ns + ns then some (i - part * ns)
  else none

/-- The bits of vD that a conversion keeps: elements that are not active, and those without a source element (R124, R133). -/
def State.cvtKeep (s : State) (g : Guard) (ty src : BitVec 4) (part : Nat) : VReg :=
  let w := tyWidth ty
  packV w ((List.range (2048 / w)).map (fun i =>
    if s.active g w i ∧ (cvtSource (tyCount src) (tyCount ty) part i).isSome then 0 else 2 ^ w - 1))

/-- VCVT from a DX format (R134). -/
def State.cvtFromDx (s : State) (g : Guard) (ty : BitVec 4) (rm : Nat) (vd va : BitVec 11) (src : BitVec 4) (part : Nat) : Try :=
  s.vneed [(vd.toNat, s.cvtKeep g ty src part), (va.toNat, BitVec.allOnes 2048), (va.toNat + 1, BitVec.allOnes 2048)]
    (let (xs, nanb) := dxPair (tyWidth src) (s.vget va.toNat) (s.vget (va.toNat + 1))
     let old := elems (tyWidth ty) (s.vget vd.toNat)
     let s' := s.elementwise g (tyWidth ty) vd 3 (fun i =>
       match cvtSource (tyCount src) (tyCount ty) part i with
       | some j => roundTo (fmtOf ty.toNat) rm s.satcvt (xs.getD j .nan)
       | none => (old.getD i 0, 0))
     .ok (if nanb then s'.land .none 3 fNANB else s'))

/-- VCVT between formats that are not DX (R133). -/
def State.cvtPlain (s : State) (g : Guard) (ty : BitVec 4) (rm : Nat) (vd va : BitVec 11) (src : BitVec 4) (part : Nat) : Try :=
  let ns := tyCount src
  let nd := tyCount ty
  let used := (List.range nd).filterMap (fun i => if s.active g (tyWidth ty) i then cvtSource ns nd part i else none)
  let mask := packV (tyWidth src) ((List.range ns).map (fun j => if used.contains j then 2 ^ tyWidth src - 1 else 0))
  s.vneed [(vd.toNat, s.cvtKeep g ty src part), (va.toNat, mask)]
    (let xs := elems (tyWidth src) (s.vget va.toNat)
     let old := elems (tyWidth ty) (s.vget vd.toNat)
     .ok (s.elementwise g (tyWidth ty) vd 3 (fun i =>
       match cvtSource ns nd part i with
       | some j => convert src.toNat ty.toNat rm s.satcvt (xs.getD j 0)
       | none => (old.getD i 0, 0))))

/-! ### The meanings -/

/-- VADD (R126) -/
def execVadd (g : Guard) (ty : BitVec 4) (m : BitVec 3) (vd va vb : BitVec 11) (s : State) : Host.Outcome State Fault Refusal :=
  s.v2 g ty vd va vb 2 (bin ty.toNat (s.rm m) (· + ·) (fAdd (s.rm m)))

/-- VSUB (R126) -/
def execVsub (g : Guard) (ty : BitVec 4) (m : BitVec 3) (vd va vb : BitVec 11) (s : State) : Host.Outcome State Fault Refusal :=
  s.v2 g ty vd va vb 2 (bin ty.toNat (s.rm m) (· - ·) (fun a b => fAdd (s.rm m) a b.flip))

/-- VMUL (R126) -/
def execVmul (g : Guard) (ty : BitVec 4) (m : BitVec 3) (vd va vb : BitVec 11) (s : State) : Host.Outcome State Fault Refusal :=
  s.v2 g ty vd va vb 4 (bin ty.toNat (s.rm m) (· * ·) fMul)

/-- VMUL.hi (R126) -/
def execVmulHi (g : Guard) (ty : BitVec 4) (vd va vb : BitVec 11) (s : State) : Host.Outcome State Fault Refusal :=
  s.v2 g ty vd va vb 4 (fun a b => (mulHi ty.toNat a b, 0))

/-- VFMA (R126) -/
def execVfma (g : Guard) (ty : BitVec 4) (m : BitVec 3) (vd va vb vc : BitVec 11) (s : State) : Host.Outcome State Fault Refusal :=
  s.v3 g ty vd va vb vc 4 (mulAdd ty.toNat (s.rm m) false)

/-- VFMS (R126) -/
def execVfms (g : Guard) (ty : BitVec 4) (m : BitVec 3) (vd va vb vc : BitVec 11) (s : State) : Host.Outcome State Fault Refusal :=
  s.v3 g ty vd va vb vc 4 (mulAdd ty.toNat (s.rm m) true)

/-- VMIN (R126): MOD beyond its check is ignored -/
def execVmin (g : Guard) (ty : BitVec 4) (_m : BitVec 3) (vd va vb : BitVec 11) (s : State) : Host.Outcome State Fault Refusal :=
  s.v2 g ty vd va vb 2 (fun a b => (pick ty.toNat false a b, 0))

/-- VMAX (R126): MOD beyond its check is ignored -/
def execVmax (g : Guard) (ty : BitVec 4) (_m : BitVec 3) (vd va vb : BitVec 11) (s : State) : Host.Outcome State Fault Refusal :=
  s.v2 g ty vd va vb 2 (fun a b => (pick ty.toNat true a b, 0))

/-- VABS (R126) -/
def execVabs (g : Guard) (ty : BitVec 4) (vd va : BitVec 11) (s : State) : Host.Outcome State Fault Refusal :=
  s.v1 g ty vd va 2 (fun a => (absElem ty.toNat a, 0))

/-- VNEG (R126) -/
def execVneg (g : Guard) (ty : BitVec 4) (vd va : BitVec 11) (s : State) : Host.Outcome State Fault Refusal :=
  s.v1 g ty vd va 2 (fun a => (negElem ty.toNat a, 0))

/-- VDIV (R127) -/
def execVdiv (g : Guard) (ty : BitVec 4) (m : BitVec 3) (vd va vb : BitVec 11) (s : State) : Host.Outcome State Fault Refusal :=
  s.v2 g ty vd va vb 12 (bin ty.toNat (s.rm m) (fun a _ => a) fDiv)

/-- VSQRT (R127) -/
def execVsqrt (g : Guard) (ty : BitVec 4) (m : BitVec 3) (vd va : BitVec 11) (s : State) : Host.Outcome State Fault Refusal :=
  s.v1 g ty vd va 12 (un ty.toNat (s.rm m) fSqrt)

/-- VRCP (R127) -/
def execVrcp (g : Guard) (ty : BitVec 4) (m : BitVec 3) (vd va : BitVec 11) (s : State) : Host.Outcome State Fault Refusal :=
  s.v1 g ty vd va 8 (un ty.toNat (s.rm m) (fun a => fDiv (.fin false 1 0 false) a))

/-- VRSQ (R127) -/
def execVrsq (g : Guard) (ty : BitVec 4) (m : BitVec 3) (vd va : BitVec 11) (s : State) : Host.Outcome State Fault Refusal :=
  s.v1 g ty vd va 8 (un ty.toNat (s.rm m) fRsqrt)

/-- VEXP2 (R127) -/
def execVexp2 (g : Guard) (ty : BitVec 4) (m : BitVec 3) (vd va : BitVec 11) (s : State) : Host.Outcome State Fault Refusal :=
  s.v1 g ty vd va 8 (un ty.toNat (s.rm m) (fun a => (fExp2 a, 0)))

/-- VLOG2 (R127) -/
def execVlog2 (g : Guard) (ty : BitVec 4) (m : BitVec 3) (vd va : BitVec 11) (s : State) : Host.Outcome State Fault Refusal :=
  s.v1 g ty vd va 8 (un ty.toNat (s.rm m) fLog2)

/-- VADDS (R126) -/
def execVadds (g : Guard) (ty : BitVec 4) (vd va vb : BitVec 11) (s : State) : Host.Outcome State Fault Refusal :=
  s.v2 g ty vd va vb 2 (fun a b => satElem ty.toNat (intOf ty.toNat a + intOf ty.toNat b))

/-- VSUBS (R126) -/
def execVsubs (g : Guard) (ty : BitVec 4) (vd va vb : BitVec 11) (s : State) : Host.Outcome State Fault Refusal :=
  s.v2 g ty vd va vb 2 (fun a b => satElem ty.toNat (intOf ty.toNat a - intOf ty.toNat b))

/-- VAND (R128) -/
def execVand (g : Guard) (ty : BitVec 4) (vd va vb : BitVec 11) (s : State) : Host.Outcome State Fault Refusal :=
  s.v2 g ty vd va vb 2 (fun a b => (a &&& b, 0))

/-- VOR (R128) -/
def execVor (g : Guard) (ty : BitVec 4) (vd va vb : BitVec 11) (s : State) : Host.Outcome State Fault Refusal :=
  s.v2 g ty vd va vb 2 (fun a b => (a ||| b, 0))

/-- VXOR (R128) -/
def execVxor (g : Guard) (ty : BitVec 4) (vd va vb : BitVec 11) (s : State) : Host.Outcome State Fault Refusal :=
  s.v2 g ty vd va vb 2 (fun a b => (a ^^^ b, 0))

/-- VNOT (R128) -/
def execVnot (g : Guard) (ty : BitVec 4) (vd va : BitVec 11) (s : State) : Host.Outcome State Fault Refusal :=
  s.v1 g ty vd va 2 (fun a => (2 ^ tyWidth ty - 1 - a, 0))

/-- VSHL (R128) -/
def execVshl (g : Guard) (ty : BitVec 4) (vd va : BitVec 11) (cnt : ShiftCount) (s : State) : Host.Outcome State Fault Refusal :=
  s.vshift g ty vd va cnt shlElem

/-- VSHR (R128) -/
def execVshr (g : Guard) (ty : BitVec 4) (vd va : BitVec 11) (cnt : ShiftCount) (s : State) : Host.Outcome State Fault Refusal :=
  s.vshift g ty vd va cnt shrElem

/-- VSAR (R128) -/
def execVsar (g : Guard) (ty : BitVec 4) (vd va : BitVec 11) (cnt : ShiftCount) (s : State) : Host.Outcome State Fault Refusal :=
  s.vshift g ty vd va cnt sarElem

/-- VCEQ (R129) -/
def execVceq (g : Guard) (ty : BitVec 4) (pd : BitVec 4) (va vb : BitVec 11) (s : State) : Host.Outcome State Fault Refusal :=
  s.vcompare g ty pd va vb 0

/-- VCLT (R129) -/
def execVclt (g : Guard) (ty : BitVec 4) (pd : BitVec 4) (va vb : BitVec 11) (s : State) : Host.Outcome State Fault Refusal :=
  s.vcompare g ty pd va vb 1

/-- VCLE (R129) -/
def execVcle (g : Guard) (ty : BitVec 4) (pd : BitVec 4) (va vb : BitVec 11) (s : State) : Host.Outcome State Fault Refusal :=
  s.vcompare g ty pd va vb 2

/-- VCNE (R129) -/
def execVcne (g : Guard) (ty : BitVec 4) (pd : BitVec 4) (va vb : BitVec 11) (s : State) : Host.Outcome State Fault Refusal :=
  s.vcompare g ty pd va vb 3

/-- VSEL (R130): the predicate is read at issue -/
def execVsel (g : Guard) (ty : BitVec 4) (vd : BitVec 11) (pc : BitVec 4) (va vb : BitVec 11) (s : State) : Host.Outcome State Fault Refusal :=
  let w := tyWidth ty
  let m := s.activeMask g w
  s.vslot g w (s.vneed [(vd.toNat, s.keepMask g w), (va.toNat, m), (vb.toNat, m)]
    (let a := elems w (s.vget va.toNat)
     let b := elems w (s.vget vb.toNat)
     .ok (s.elementwise g w vd 2 (fun i => (if (s.pr pc).getLsbD (i * (w / 8)) then a.getD i 0 else b.getD i 0, 0)))))

/-- VMOV (R130) -/
def execVmov (g : Guard) (ty : BitVec 4) (vd va : BitVec 11) (s : State) : Host.Outcome State Fault Refusal :=
  s.v1 g ty vd va 2 (fun a => (a, 0))

/-- VBCAST (R130) -/
def execVbcast (g : Guard) (ty : BitVec 4) (vd : BitVec 11) (a : BitVec 6) (s : State) : Host.Outcome State Fault Refusal :=
  let w := tyWidth ty
  s.vslot g w (s.vneed [(vd.toNat, s.keepMask g w)] (.ok (s.elementwise g w vd 2 (fun _ => ((s.sr a).toNat % 2 ^ w, 0)))))

/-- VIOTA (R130) -/
def execViota (g : Guard) (ty : BitVec 4) (m : BitVec 3) (vd : BitVec 11) (a : BitVec 6) (s : State) : Host.Outcome State Fault Refusal :=
  let w := tyWidth ty
  s.vslot g w (s.vneed [(vd.toNat, s.keepMask g w)] (.ok (s.elementwise g w vd 2 (fun i =>
    let x := (s.sr a).toInt + i
    if tyInt ty then (wrapInt w x, 0) else roundTo (fmtOf ty.toNat) (s.rm m) false (fOfInt x)))))

/-- VREDADD (R131) -/
def execVredadd (g : Guard) (ty : BitVec 4) (m : BitVec 3) (vd va : BitVec 11) (s : State) : Host.Outcome State Fault Refusal :=
  s.vreduce g ty vd va (bin ty.toNat (s.rm m) (· + ·) (fAdd (s.rm m)))

/-- VREDMAX (R131) -/
def execVredmax (g : Guard) (ty : BitVec 4) (vd va : BitVec 11) (s : State) : Host.Outcome State Fault Refusal :=
  s.vreduce g ty vd va (fun a b => (pick ty.toNat true a b, 0))

/-- VREDMIN (R131) -/
def execVredmin (g : Guard) (ty : BitVec 4) (vd va : BitVec 11) (s : State) : Host.Outcome State Fault Refusal :=
  s.vreduce g ty vd va (fun a b => (pick ty.toNat false a b, 0))

/-- VPERM (R132) -/
def execVperm (g : Guard) (ty : BitVec 4) (vd va vb : BitVec 11) (s : State) : Host.Outcome State Fault Refusal :=
  let w := tyWidth ty
  s.vslot g w (s.vneed [(vd.toNat, s.keepMask g w), (va.toNat, BitVec.allOnes 2048), (vb.toNat, s.activeMask g w)]
    (let a := elems w (s.vget va.toNat)
     let b := elems w (s.vget vb.toNat)
     .ok (s.elementwise g w vd 4 (fun i => (a.getD (b.getD i 0) 0, 0)))))

/-- VSHUF (R132) -/
def execVshuf (g : Guard) (ty : BitVec 4) (vd va vb vc : BitVec 11) (s : State) : Host.Outcome State Fault Refusal :=
  let w := tyWidth ty
  s.vslot g w (s.vneed [(vd.toNat, s.keepMask g w), (va.toNat, BitVec.allOnes 2048), (vb.toNat, BitVec.allOnes 2048), (vc.toNat, s.activeMask g w)]
    (let ab := elems w (s.vget va.toNat) ++ elems w (s.vget vb.toNat)
     let c := elems w (s.vget vc.toNat)
     .ok (s.elementwise g w vd 4 (fun i => (ab.getD (c.getD i 0) 0, 0)))))

/-- VROT (R132) -/
def execVrot (g : Guard) (ty : BitVec 4) (vd va : BitVec 11) (j : ElemIndex) (s : State) : Host.Outcome State Fault Refusal :=
  let w := tyWidth ty
  s.vslot g w (s.vneed [(vd.toNat, s.keepMask g w), (va.toNat, BitVec.allOnes 2048)]
    (let a := elems w (s.vget va.toNat)
     let k := s.elemIndex ty j
     .ok (s.elementwise g w vd 4 (fun i => (a.getD ((i + k) % (2048 / w)) 0, 0)))))

/-- VCVT (R133, R134) -/
def execVcvt (g : Guard) (ty : BitVec 4) (m : BitVec 3) (vd va : BitVec 11) (src : BitVec 4) (part : BitVec 3) (gapx : BitVec 4) (s : State) : Host.Outcome State Fault Refusal :=
  if tyDx ty then s.settle (s.cvtToDx ty (s.rm m) vd va src part.toNat gapx.toNat)
  else if tyDx src then s.vslot g (tyWidth ty) (s.cvtFromDx g ty (s.rm m) vd va src part.toNat)
  else s.vslot g (tyWidth ty) (s.cvtPlain g ty (s.rm m) vd va src part.toNat)

/-- VMVS (R138) -/
def execVmvs (g : Guard) (ty : BitVec 4) (d : BitVec 6) (va : BitVec 11) (j : ElemIndex) (s : State) : Host.Outcome State Fault Refusal :=
  let w := tyWidth ty
  let k := s.elemIndex ty j
  if s.active g w k then
    s.settle (s.vneed [(va.toNat, bitsBetween w k (k + 1))]
      (let x := (elems w (s.vget va.toNat)).getD k 0
       .ok (s.landS d (if tySigned ty then BitVec.ofInt 64 (signedOf w x) else BitVec.ofNat 64 x) 3)))
  else .next s

/-- VINS (R138) -/
def execVins (g : Guard) (ty : BitVec 4) (vd : BitVec 11) (a : BitVec 6) (j : ElemIndex) (s : State) : Host.Outcome State Fault Refusal :=
  let w := tyWidth ty
  let k := s.elemIndex ty j
  if s.active g w k then
    s.settle (s.vneed [(vd.toNat, ~~~bitsBetween w k (k + 1))]
      (let v := (elems w (s.vget vd.toNat)).mapIdx (fun i x => if i = k then (s.sr a).toNat % 2 ^ w else x)
       .ok (s.landV vd (packV w v) 3)))
  else .next s

end Sys2Proof.Machine
end

