-- ==== Sys2Proof/Machine/Transform.lean ====
section
/-!
DEFINITION. The transform slot (R161): whole-register instructions without a guard.
-/

namespace Sys2Proof.Machine

/-- Every bit of a register. -/
def vAll : VReg := BitVec.allOnes 2048

/-- Register `n + i` for i below k, all read. -/
def regsFrom (n k : Nat) (mask : VReg) : List (Nat × VReg) := (List.range k).map (fun i => (n + i, mask))

/-- XNOP is in `execXnop`; XEXP (R161): e^a for each element. -/
def execXexp (vd va : BitVec 11) (bf : BitVec 1) (s : State) : Host.Outcome State Fault Refusal :=
  let code := if bf = 1 then 9 else 10
  let w := if bf = 1 then 16 else 32
  s.settle (s.vneed [(vd.toNat, 0), (va.toNat, vAll)]
    (let rs := (elems w (s.vget va.toNat)).map (fun a => roundTo (fmtOf code) (s.rm 0) false (fExp ((fmtOf code).read a)))
     .ok (s.landV vd (packV w (rs.map (·.1))) 6 (rs.foldl (fun f r => f ||| r.2) 0))))

/-- The element that moves to element i of a transposed block of m rows. -/
def transposeFrom (m i : Nat) : Nat := m * m * (i / (m * m)) + m * (i % m) + (i % (m * m)) / m

/-- XTRN (R161): blocks of 8 × 8 words, 16 × 16 bytes, or two of 8 × 8 halfwords. -/
def execXtrn (vd va : BitVec 11) (w : BitVec 2) (s : State) : Host.Outcome State Fault Refusal :=
  let bits := if w.toNat = 0 then 32 else if w.toNat = 1 then 8 else 16
  let m := if w.toNat = 1 then 16 else 8
  s.settle (s.vneed [(vd.toNat, 0), (va.toNat, vAll)]
    (let a := elems bits (s.vget va.toNat)
     .ok (s.landV vd (packV bits ((List.range (2048 / bits)).map (fun i => a.getD (transposeFrom m i) 0))) 4)))

/-- The codes of a pair of XCVT: source and target. -/
def xcvtPair (p : Nat) : Nat × Nat :=
  match p with
  | 0 => (10, 9)
  | 1 => (10, 8)
  | 2 => (9, 10)
  | _ => (8, 10)

/-- XCVT (R161): narrowing writes half of vD, widening reads half of vA. -/
def execXcvt (vd va : BitVec 11) (pair : BitVec 3) (part : BitVec 1) (s : State) : Host.Outcome State Fault Refusal :=
  let (src, dest) := xcvtPair pair.toNat
  let p := 64 * part.toNat
  let half := bitsBetween 16 p (p + 64)
  s.settle (s.vneed [(vd.toNat, if src = 10 then ~~~half else 0), (va.toNat, if src = 10 then vAll else half)]
    (if src = 10 then
       let a := elems 32 (s.vget va.toNat)
       let old := elems 16 (s.vget vd.toNat)
       let rs := (List.range 128).map (fun i =>
         if p ≤ i ∧ i < p + 64 then convert src dest (s.rm 0) s.satcvt (a.getD (i - p) 0) else (old.getD i 0, 0))
       .ok (s.landV vd (packV 16 (rs.map (·.1))) 3 (rs.foldl (fun f r => f ||| r.2) 0))
     else
       let a := elems 16 (s.vget va.toNat)
       let rs := (List.range 64).map (fun i => convert src dest (s.rm 0) s.satcvt (a.getD (p + i) 0))
       .ok (s.landV vd (packV 32 (rs.map (·.1))) 3 (rs.foldl (fun f r => f ||| r.2) 0))))

/-- Runs of n elements of a list of m · n. -/
def runsOf (n : Nat) : Nat → List Nat → List (List Nat)
  | 0, _ => []
  | m + 1, xs => xs.take n :: runsOf n m (xs.drop n)

/-- XHAD (R116, R161). -/
def execXhad (vd va : BitVec 11) (h : BitVec 1) (s : State) : Host.Outcome State Fault Refusal :=
  let n := if h = 1 then 32 else 16
  s.settle (s.vneed [(vd.toNat, 0), (va.toNat, vAll)]
    (let rs := (runsOf n (64 / n) (elems 32 (s.vget va.toNat))).map hadamard
     .ok (s.landV vd (packV 32 (rs.flatMap (·.1))) 5 (rs.foldl (fun f r => f ||| r.2) 0))))

/-- XQNT (R161): four or eight registers of F32 values into a DX pair. -/
def execXqnt (vd va : BitVec 11) (f : BitVec 1) (gapx : BitVec 3) (s : State) : Host.Outcome State Fault Refusal :=
  let w := if f = 1 then 4 else 8
  let k := if f = 1 then 8 else 4
  s.settle (s.vneed (regsFrom vd.toNat 2 0 ++ regsFrom va.toNat k vAll)
    (let xs := (List.range k).flatMap (fun i => valuesOf 10 (s.vget (va.toNat + i)))
     let ((e, o), fl) := dxStore w (s.rm 0) gapx.toNat 0 0 0 xs
     .ok ((s.landV vd e 4 fl).land (.v (s.bk.vphys (vd.toNat + 1)) o vAll) 4)))

/-- XDQN (R161): a DX pair into four or eight registers of F32 values. -/
def execXdqn (vd va : BitVec 11) (f : BitVec 1) (s : State) : Host.Outcome State Fault Refusal :=
  let w := if f = 1 then 4 else 8
  let k := if f = 1 then 8 else 4
  s.settle (s.vneed (regsFrom vd.toNat k 0 ++ regsFrom va.toNat 2 vAll)
    (let (xs, nanb) := dxPair w (s.vget va.toNat) (s.vget (va.toNat + 1))
     let bits := xs.map (fun x => (roundF32 x).1)
     let s' := (List.range k).foldl (fun s' i =>
       s'.land (.v (s.bk.vphys (vd.toNat + i)) (packV 32 ((bits.drop (64 * i)).take 64)) vAll) 3) s
     .ok (if nanb then s'.land .none 3 fNANB else s')))

end Sys2Proof.Machine
end

