-- ==== Sys2Proof/Machine/Copy.lean ====
section
/-!
DEFINITION. The copy engine: descriptors (R145-R149), addressing and padding (R150, R151), packed blocks (R152), the stage pipeline
(R153, R154), descriptor instructions (R155), copy commands (R156-R159) and the decoder FIFO (R160).
-/

namespace Sys2Proof.Machine

/-! ### The descriptor (R145-R147) -/

/-- A copy descriptor's fields. -/
structure Desc where
  raw : Nat
  src : Nat
  srck : Nat
  dstk : Nat
  dst : Nat
  efmt : Nat
  rank : Nat
  dim : List Nat
  sstr : List Int
  dstr : List Int
  text : List Nat
  org : List Nat
  pad : Nat
  micro : Nat
  xratio : Nat
  delta : Nat
  jrec : Nat
  deriving DecidableEq, Repr

/-- A field at a byte offset (R146). -/
def descField (v off bits : Nat) : Nat := bitsOf v (8 * off) bits

def Desc.parse (d : CDesc) : Desc :=
  let v := d.toNat
  { raw := v, src := descField v 0x00 80, srck := descField v 0x0A 8, dstk := descField v 0x0B 8, dst := descField v 0x0C 80,
    efmt := descField v 0x16 8, rank := descField v 0x17 8,
    dim := (List.range 4).map (fun i => descField v (0x18 + 2 * i) 16),
    sstr := (List.range 4).map (fun i => signedOf 32 (descField v (0x20 + 4 * i) 32)),
    dstr := (List.range 4).map (fun i => signedOf 32 (descField v (0x30 + 4 * i) 32)),
    text := (List.range 4).map (fun i => descField v (0x40 + 2 * i) 16),
    org := (List.range 4).map (fun i => descField v (0x48 + 2 * i) 16),
    pad := descField v 0x50 32, micro := descField v 0x54 64, xratio := descField v 0x5C 16, delta := descField v 0x60 80,
    jrec := descField v 0x70 80 }

/-- The fields of MICRO (R147). -/
def Desc.cvt (d : Desc) : Nat := bitsOf d.micro 0 4
def Desc.rnd (d : Desc) : Nat := bitsOf d.micro 4 2
def Desc.had (d : Desc) : Nat := bitsOf d.micro 6 2
def Desc.useDelta (d : Desc) : Bool := bitOf d.micro 8
def Desc.swze (d : Desc) : Bool := bitOf d.micro 9
def Desc.swz (d : Desc) : Nat := bitsOf d.micro 10 3
def Desc.trn (d : Desc) : Bool := bitOf d.micro 13
def Desc.pack (d : Desc) : Bool := bitOf d.micro 14
def Desc.crc (d : Desc) : Bool := bitOf d.micro 15
def Desc.gapx (d : Desc) : Nat := bitsOf d.micro 16 4
def Desc.packed (d : Desc) : Bool := decide (2 ≤ d.srck)
/-- Whether the source lies in the scratchpad. -/
def Desc.srcScratch (d : Desc) : Bool := d.srck == 1 || d.srck == 3
def Desc.d (x : Desc) (i : Nat) : Nat := x.dim.getD i 1

def isDx (code : Nat) : Bool := code == 12 || code == 13
/-- Bytes of an element of a code that is not DX. -/
def codeBytes (code : Nat) : Nat := tyWidth (BitVec.ofNat 4 code) / 8
/-- Payload bytes of a DX block: 32 for DX8, 16 for DX4 (R148). -/
def blockBytes (code : Nat) : Nat := if code = 12 then 32 else 16

/-- Whether stage 5 changes the stream, and the output format (R153). -/
def Desc.inF32 (d : Desc) : Bool := d.useDelta || d.had != 0
def Desc.out (d : Desc) : Nat := if d.cvt = 0 then d.efmt else d.cvt
/-- The clk that the enabled stages and an unpack add to a copy (R147, R152). -/
def Desc.latency (d : Desc) : Nat :=
  let add (on : Bool) (n : Nat) : Nat := if on then n else 0
  add d.crc 4 + add d.pack 4 + add d.trn 16 + add d.swze 2 + add d.useDelta 24 + add (d.had == 1 || d.had == 2) 6
    + add (d.cvt != 0 || d.inF32) 8 + add d.packed 4
/-- An identity: stages 3 and 4 off and the target equal to the source format. -/
def Desc.identity (d : Desc) : Bool := !d.inF32 && d.out == d.efmt

/-- Elements of the tile. -/
def Desc.count (d : Desc) : Nat := d.d 0 * d.d 1 * d.d 2 * d.d 3
/-- Payload bytes of `n` elements of a code. -/
def payloadBytes (code n : Nat) : Nat := if code = 13 then n / 2 else n * codeBytes code
/-- Extents in destination order: dimensions 0 and 1 swap under TRN (R153). -/
def Desc.outDim (d : Desc) (i : Nat) : Nat := if d.trn then (if i = 0 then d.d 1 else if i = 1 then d.d 0 else d.d i) else d.d i

/-! ### The checks at issue (R148, R149) -/

/-- Pairs of formats that R133 forbids. -/
def pairForbidden (src dest : Nat) : Bool :=
  (isDx src && isDx dest) || (isDx dest && decide (src ≤ 5)) || (isDx src && decide (dest ≤ 5))

/-- Whether DSTR describes a dense tile (R152): each stride is the size of the dimensions below it. -/
def Desc.dense (d : Desc) : Bool :=
  let es : Int := if isDx d.out then 0 else codeBytes d.out
  let row : Int := payloadBytes d.out (d.outDim 0)
  let want : List Int := [es, row, row * d.outDim 1, row * d.outDim 1 * d.outDim 2]
  (List.range 4).all (fun i => decide (d.rank ≤ i) || (d.dstr.getD i 0 == want.getD i 0))

/-- The byte offsets of the fields that fail (R149). Of R148 the demands on DSTR hold where the output is DX, those on SSTR, ORG and TEXT where
the source is; a failing DSTR reports the offset of the SSTR beside it, the lowest that the rule names (log 77). -/
def Desc.failures (d : Desc) : List Nat :=
  let f (bad : Bool) (off : Nat) : List Nat := if bad then [off] else []
  let dxs := isDx d.efmt
  let dxo := isDx d.out
  let byte (o : Nat) := descField d.raw o 8 != 0
  let mbz := ([0x5E, 0x5F] ++ (List.range 6).map (0x6A + ·) ++ (List.range 6).map (0x7A + ·)).filter byte
  let high := (List.range 4).flatMap (fun i =>
    let up := decide (d.rank ≤ i)
    let srcPlane := i == 3 && dxs
    let dstPlane := i == 3 && dxo
    f (d.d i == 0 || (up && d.d i != 1)) (0x18 + 2 * i)
      ++ f (up && !srcPlane && d.sstr.getD i 0 != 0) (0x20 + 4 * i) ++ f (up && !dstPlane && d.dstr.getD i 0 != 0) (0x30 + 4 * i)
      ++ f (up && d.text.getD i 0 != 0) (0x40 + 2 * i) ++ f (up && d.org.getD i 0 != 0) (0x48 + 2 * i))
  let dst :=
    match d.dstk with
    | 1 => d.dst / 2 ^ 20 != 0
    | 2 => bitsOf d.dst 6 2 != 0 || d.dst / 2 ^ 23 != 0
    | 3 => d.dst / 2 ^ 11 != 0
    | _ => false
  let unit (code : Nat) : Int := blockBytes code
  let dx :=
    f ((dxs || dxo) && decide (3 < d.rank)) 0x17
      ++ f ((dxs && d.sstr.getD 0 0 != 0) || (dxo && d.dstr.getD 0 0 != 0)) 0x20
      ++ f (dxs && (d.d 0 % 32 != 0 || d.org.getD 0 0 % 32 != 0 || d.text.getD 0 0 % 32 != 0)) 0x18
      ++ f (dxo && d.d 0 % 32 != 0) 0x18
      ++ f ([1, 2].any (fun i => (dxs && d.sstr.getD i 0 % unit d.efmt != 0) || (dxo && d.dstr.getD i 0 % unit d.out != 0))) 0x24
      ++ f (dxo && d.dstk == 2 && d.dstr.getD 3 0 != 0) 0x3C
  let floats := decide (6 ≤ d.efmt)
  let run := if d.had = 1 then 16 else 32
  let micro :=
    bitsOf d.micro 20 44 != 0 || d.cvt == 11 || decide (14 ≤ d.cvt) || d.had == 3 || (d.swz != 0 && !d.swze)
      || (d.inF32 && !floats) || ((d.had == 1 || d.had == 2) && d.d 0 % run != 0)
      || (d.inF32 && pairForbidden 10 d.out) || (!d.identity && !d.inF32 && pairForbidden d.efmt d.out)
      || (d.trn && (decide (d.rank < 2) || dxo))
      || (d.swze && payloadBytes d.out (d.outDim 0) % (16 * 2 ^ d.swz) != 0)
      || (d.pack && (decide (2 ≤ d.dstk) || !d.dense || d.dst % 256 != 0))
      || (d.dstk == 3 && (bitsOf d.micro 0 4 != 0 || bitsOf d.micro 6 10 != 0))
  let packedRule := if d.packed then (List.range 4).flatMap (fun i =>
    f (d.sstr.getD i 0 != 0 || d.text.getD i 0 != 0 || d.org.getD i 0 != 0) 0x54) else []
  f (d.srcScratch && d.src / 2 ^ 20 != 0) 0x00 ++ f (decide (3 < d.srck)) 0x0A ++ f (decide (3 < d.dstk)) 0x0B ++ f dst 0x0C
    ++ f (decide (13 < d.efmt) || d.efmt == 11) 0x16 ++ f (d.rank == 0 || decide (4 < d.rank)) 0x17 ++ high ++ dx ++ packedRule
    ++ f micro 0x54 ++ f (if d.dstk = 3 then decide (d.xratio < 0x100) || decide (0x700 < d.xratio) else d.xratio != 0) 0x5C
    ++ f (!d.useDelta && d.delta != 0) 0x60 ++ mbz
    ++ f (decide (2 ^ 24 < payloadBytes d.out d.count) || (d.dstk == 3 && decide (16384 < payloadBytes d.out d.count))) 0x18

/-! ### Places of elements (R148, R150) -/

/-- The higher indices of the tile's rows, source order: (i1, i2, i3), i1 fastest. -/
def Desc.rows (d : Desc) : List (Nat × Nat × Nat) :=
  (List.range (d.d 3)).flatMap (fun i3 => (List.range (d.d 2)).flatMap (fun i2 => (List.range (d.d 1)).map (fun i1 => (i1, i2, i3))))

/-- Whether element (i0, i1, i2, i3) is in bounds (R150); of a packed source every element is (R152). -/
def Desc.inBounds (d : Desc) (i0 : Nat) (r : Nat × Nat × Nat) : Bool :=
  d.packed || (List.range 4).all (fun k =>
    decide (d.rank ≤ k) ||
      decide (d.org.getD k 0 + (if k = 0 then i0 else if k = 1 then r.1 else if k = 2 then r.2.1 else r.2.2) < d.text.getD k 0))

/-- Σ over d ≥ 1 of t_d · SSTR[d], without dimension 3 where it holds the plane offset. -/
def Desc.srcRow (d : Desc) (r : Nat × Nat × Nat) : Int :=
  let t (k i : Nat) : Int := d.org.getD k 0 + i
  t 1 r.1 * d.sstr.getD 1 0 + t 2 r.2.1 * d.sstr.getD 2 0 + (if isDx d.efmt then 0 else t 3 r.2.2 * d.sstr.getD 3 0)

/-- The reads of a row, in order: each in-bounds element, or the payload and exponents of each in-bounds block (R148, R150).
Addresses are relative to SRC. -/
def Desc.rowReads (d : Desc) (r : Nat × Nat × Nat) : List (Int × Nat) :=
  if isDx d.efmt then
    (List.range (d.d 0 / 32)).flatMap (fun j =>
      if d.inBounds (32 * j) r then
        let o := d.srcRow r + (((d.org.getD 0 0 / 32 + j) * blockBytes d.efmt : Nat) : Int)
        [(o, blockBytes d.efmt), (d.sstr.getD 3 0 + 2 * (o / (blockBytes d.efmt : Nat)), 2)]
      else [])
  else
    (List.range (d.d 0)).filterMap (fun i0 =>
      if d.inBounds i0 r then
        some (d.srcRow r + ((d.org.getD 0 0 + i0 : Nat) : Int) * d.sstr.getD 0 0, codeBytes d.efmt)
      else none)

/-- Blocks of a packed source (R152). -/
def Desc.packedBlocks (d : Desc) : Nat := (payloadBytes d.efmt d.count + 223) / 224

/-- The reads of a copy in order, relative to SRC: those of its rows, or the blocks of a packed source. -/
def Desc.reads (d : Desc) : List (Int × Nat) :=
  if d.packed then (List.range d.packedBlocks).map (fun n => (((256 * n : Nat) : Int), 256)) else d.rows.flatMap d.rowReads

/-- How many reads give the first `e` elements in dense source order. -/
def Desc.readsFor (d : Desc) (e : Nat) : Nat :=
  if d.packed then (payloadBytes d.efmt e + 223) / 224
  else
    let part := match d.rows[e / d.d 0]? with
      | some r =>
        if isDx d.efmt then 2 * ((List.range ((e % d.d 0 + 31) / 32)).filter (fun j => d.inBounds (32 * j) r)).length
        else ((List.range (e % d.d 0)).filter (fun i => d.inBounds i r)).length
      | none => 0
    ((d.rows.take (e / d.d 0)).map (fun r => (d.rowReads r).length)).sum + part

/-- How many reads the first `b` bytes of destination row `q` rest on: a transpose takes whole planes, a swizzle its span, a run or a block
its 32 elements (R153, R154). -/
def Desc.readsForRow (d : Desc) (q b : Nat) : Nat :=
  if d.trn then d.readsFor ((q / d.outDim 1 + 1) * d.d 0 * d.d 1)
  else
    let span := 16 * 2 ^ d.swz
    let b := if d.swze then (b + span - 1) / span * span else b
    let e := if d.out = 13 then 2 * b else (b + codeBytes d.out - 1) / codeBytes d.out
    let e := if isDx d.out || isDx d.efmt || d.had != 0 then (e + 31) / 32 * 32 else e
    d.readsFor (q * d.d 0 + min e (d.d 0))

/-- Bytes of a destination row, and how many reads the first `n` bytes of the output stream rest on. -/
def Desc.rowBytes (d : Desc) : Nat := payloadBytes d.out (d.outDim 0)
def Desc.readsForStream (d : Desc) (n : Nat) : Nat :=
  if n = 0 then 0
  else
    let n := min n (d.rowBytes * (d.outDim 1 * d.outDim 2 * d.outDim 3))
    d.readsForRow ((n - 1) / d.rowBytes) ((n - 1) % d.rowBytes + 1)

/-- The offset of destination row (i1, i2, i3) from DST. -/
def Desc.dstRow (d : Desc) (r : Nat × Nat × Nat) : Int :=
  (r.1 : Int) * d.dstr.getD 1 0 + (r.2.1 : Int) * d.dstr.getD 2 0 + (if isDx d.out then 0 else (r.2.2 : Int) * d.dstr.getD 3 0)

/-- The destination rows. -/
def Desc.outRows (d : Desc) : List (Nat × Nat × Nat) :=
  (List.range (d.outDim 3)).flatMap (fun i3 =>
    (List.range (d.outDim 2)).flatMap (fun i2 => (List.range (d.outDim 1)).map (fun i1 => (i1, i2, i3))))

/-- The writes of the payload of a destination row: offset from DST and the bytes of the row that go there. -/
def Desc.rowPlaces (d : Desc) (r : Nat × Nat × Nat) : List (Int × Nat × Nat) :=
  if isDx d.out then [(d.dstRow r, 0, payloadBytes d.out (d.outDim 0))]
  else
    let e : Nat := codeBytes d.out
    (List.range (d.outDim 0)).map (fun (i : Nat) => (d.dstRow r + ((i : Nat) : Int) * d.dstr.getD 0 0, (e * i : Nat), e))

/-- Where the exponents of a destination block go (R148): the plane of DSTR[3], or the slot's sidecar. -/
def Desc.expPlace (d : Desc) (r : Nat × Nat × Nat) (j : Nat) : Int :=
  let o := d.dstRow r + ((j * blockBytes d.out : Nat) : Int)
  if d.dstk = 2 then 32768 + 2 * ((o + (bitsOf d.dst 8 15 : Nat)) / (blockBytes d.out : Nat)) - (bitsOf d.dst 8 15 : Nat)
  else d.dstr.getD 3 0 + 2 * (o / (blockBytes d.out : Nat))

/-- The lowest offset outside the scratchpad among those of some accesses (R149): the first byte outside of an element that lies across the
end (log 77). -/
def lowestOutside (xs : List (Int × Nat)) : Option Int :=
  (xs.filter (fun x => decide (x.1 < 0) || decide ((Config.scratchBytes : Int) < x.1 + x.2))).foldl
    (fun (m : Option Int) (x : Int × Nat) =>
      let o : Int := if x.1 < 0 then x.1 else max x.1 ((Config.scratchBytes : Nat) : Int)
      match m with | none => some o | some y => some (min o y)) none

/-- The scratchpad accesses of a descriptor, at absolute offsets (R149). A packed end is checked in whole blocks of 256 bytes (log 77). -/
def Desc.scratchSpans (d : Desc) : List (Int × Nat) :=
  let src : List (Int × Nat) := if d.srcScratch then
      if d.packed then (List.range d.packedBlocks).map (fun n => (((d.src + 256 * n : Nat) : Int), 256))
      else d.rows.flatMap (fun r => (d.rowReads r).map (fun x => ((d.src : Int) + x.1, x.2)))
    else []
  let dst : List (Int × Nat) := if d.dstk = 1 then
      if d.pack then (List.range ((payloadBytes d.out d.count + 223) / 224)).map (fun n => (((d.dst + 256 * n : Nat) : Int), 256))
      else d.outRows.flatMap (fun r =>
        (d.rowPlaces r).map (fun x => ((d.dst : Int) + x.1, x.2.2)) ++
          (if isDx d.out then (List.range (d.outDim 0 / 32)).map (fun j => ((d.dst : Int) + d.expPlace r j, 2)) else []))
    else []
  src ++ dst

/-- Whether a core has claimed a slot for a context (R179, R180). -/
def State.claimed (s : State) (o c ctx : Nat) : Bool :=
  let x := (s.cluster (clusterOf c)).slot o
  x.claim == some (c, ctx) && decide (x.since ≤ s.clk)
/-- OSLOT (R25). -/
def oslotTrap (o : Nat) : Trap := causeTrap 0x0F (BitVec.ofNat 64 o)

/-- Vector registers of a decoder-FIFO destination. -/
def Desc.fifoRegs (d : Desc) : Nat := (payloadBytes d.out d.count + 255) / 256

/-- The causes of a copy at issue, in the order of R149's list (log 77). -/
def State.copyTrap (s : State) (cdn : Nat) (d : Desc) : Option Trap :=
  match d.failures with
  | f :: fs => some (causeTrap 0x21 (BitVec.ofNat 64 (cdn + 256 * fs.foldl min f)))
  | [] =>
    match lowestOutside d.scratchSpans with
    | some x => some (causeTrap 0x09 (BitVec.ofInt 64 x))
    | none =>
      if d.dstk = 2 ∧ s.claimed (d.dst % 64) s.cur.core s.bk.ctx = false then
        some (oslotTrap (d.dst % 64))
      else if d.dstk = 3 then
        (s.vRange ((List.range d.fifoRegs).map (fun i => d.dst + i))).map (fun t => { t with decode := false })
      else none

/-! ### The stream (R150-R153) -/

/-- A row of the stream: element codes and, for a DX format, the exponents of its blocks. -/
structure Row where
  els : List Nat
  exps : List (Nat × Nat) := []
  deriving DecidableEq, Repr

/-- The elements of `n` payload bytes of a code. -/
def elemsOfBytes (code : Nat) (bs : List Byte) : List Nat :=
  if code = 13 then bs.flatMap (fun b => [b.toNat % 16, b.toNat / 16])
  else
    let e := codeBytes code
    (List.range (bs.length / e)).map (fun i => natOfBytes ((bs.drop (e * i)).take e))
/-- The payload bytes of elements of a code. -/
def bytesOfElems (code : Nat) (xs : List Nat) : List Byte :=
  if code = 13 then (List.range (xs.length / 2)).map (fun i => BitVec.ofNat 8 (xs.getD (2 * i) 0 + 16 * xs.getD (2 * i + 1) 0))
  else xs.flatMap (fun x => bytesOfNat (codeBytes code) x)

/-- A row from what its reads gave, with padding where an element or block is out of bounds (R150); the rest of the reads. -/
def Desc.rowOf (d : Desc) (r : Nat × Nat × Nat) (data : List (List Byte)) : Row × List (List Byte) :=
  if isDx d.efmt then
    (List.range (d.d 0 / 32)).foldl (fun (acc : Row × List (List Byte)) j =>
      if d.inBounds (32 * j) r then
        let pl := acc.2.headD []
        let ex := (acc.2.drop 1).headD []
        (⟨acc.1.els ++ elemsOfBytes d.efmt pl, acc.1.exps ++ [((ex.getD 0 0).toNat, (ex.getD 1 0).toNat)]⟩, acc.2.drop 2)
      else
        (⟨acc.1.els ++ List.replicate 32 (if d.efmt = 12 then d.pad % 256 else d.pad % 16),
          acc.1.exps ++ [(bitsOf d.pad 16 8, bitsOf d.pad 24 8)]⟩, acc.2)) (⟨[], []⟩, data)
  else
    (List.range (d.d 0)).foldl (fun (acc : Row × List (List Byte)) i0 =>
      if d.inBounds i0 r then (⟨acc.1.els ++ [natOfBytes (acc.2.headD [])], []⟩, acc.2.drop 1)
      else (⟨acc.1.els ++ [d.pad % 2 ^ (8 * codeBytes d.efmt)], []⟩, acc.2)) (⟨[], []⟩, data)

/-- The rows of the tile in source order. -/
def Desc.rowsOf (d : Desc) : List (Nat × Nat × Nat) → List (List Byte) → List Row
  | [], _ => []
  | r :: rs, data =>
    let (row, rest) := d.rowOf r data
    row :: d.rowsOf rs rest

/-- A packed block unpacked (R152): its 224 bytes, and whether it failed its check. -/
def unpackBlock (b : List Byte) : List Byte × Bool :=
  let mask := natOfBytes (b.take 28)
  let count := natOfBytes ((b.drop 28).take 2)
  let ones := ((List.range 224).filter (fun j => bitOf mask j)).length
  if count ≠ ones ∨ natOfBytes ((b.drop 30).take 2) ≠ 0 then (List.replicate 224 0, true)
  else
    ((List.range 224).map (fun j =>
      if bitOf mask j then b.getD (32 + ((List.range j).filter (fun k => bitOf mask k)).length) 0 else 0), false)

/-- The packed block of 224 bytes (R152). -/
def packBlock (u : List Byte) : List Byte :=
  let nz := (List.range 224).filter (fun j => u.getD j 0 != 0)
  let mask := nz.foldl (fun m j => m + 2 ^ j) 0
  let data := nz.map (fun j => u.getD j 0)
  bytesOfNat 28 mask ++ bytesOfNat 2 nz.length ++ [0, 0] ++ data ++ List.replicate (224 - nz.length) 0

/-- The blocks of a byte stream, the last filled with zero bytes. -/
def packStream : Nat → List Byte → List (List Byte)
  | 0, _ => []
  | n + 1, bs => packBlock (bs.take 224) :: packStream n (bs.drop 224)

/-- The rows of a packed source from its unpacked bytes. A packed stream holds no exponent plane: the blocks of a packed DX source have
exponents 0, and an identity copy of it writes no exponent bytes, a DESIGN CHOICE (R112, R152, log 74). -/
def Desc.rowsOfBytes (d : Desc) (bs : List Byte) : List Row :=
  let n := payloadBytes d.efmt (d.d 0)
  (List.range (d.d 1 * d.d 2 * d.d 3)).map (fun i => ⟨elemsOfBytes d.efmt ((bs.drop (n * i)).take n), []⟩)

/-- The values of a row (R115), and NANB for a DX exponent of 0xFF. -/
def Desc.values (d : Desc) (row : Row) : Flagged (List FVal) :=
  if isDx d.efmt then
    let w := if d.efmt = 12 then 8 else 4
    (row.els.mapIdx (fun i x => let e := row.exps.getD (i / 32) (0, 0); dxRead w x e.1 e.2),
      if row.exps.any (fun e => e.1 == 255 || e.2 == 255) then fNANB else 0)
  else (row.els.map (fmtOf d.efmt).read, 0)

/-- The F32 elements that enter stages 3 and 4: those of an F32 source as they stand, others widened (R153). -/
def Desc.widened (d : Desc) (row : Row) : Flagged (List Nat) :=
  if d.efmt = 10 then (row.els, 0)
  else let (v, f) := d.values row; (v.map (fun x => (roundF32 x).1), f)

/-- Stage 3 on a row of F32 elements whose first has linear index `base` (R153): those that no entry touches keep their bits. -/
def deltaRow (entries : List (Nat × Nat)) (base : Nat) (xs : List Nat) : Flagged (List Nat) :=
  let rs := xs.mapIdx (fun i x =>
    match entries.find? (fun e => e.1 == base + i) with
    | some e => deliver F32 0 false (fAdd 0 (F32.read x) (F32.read e.2))
    | none => (x, 0))
  (rs.map (·.1), rs.foldl (fun f r => f ||| r.2) 0)

/-- Stage 4 on a row of F32 elements (R116). -/
def hadamardRow (n : Nat) (xs : List Nat) : Flagged (List Nat) :=
  let rs := (runsOf n (xs.length / n) xs).map hadamard
  (rs.flatMap (·.1), rs.foldl (fun f r => f ||| r.2) 0)

/-- Stage 5 on a row of values (R153). -/
def Desc.toOut (d : Desc) (v : List FVal) : Flagged Row :=
  if isDx d.out then
    let w := if d.out = 12 then 8 else 4
    let bl := (blocks32 (v.length / 32) v).map (dxQuantize w d.rnd d.gapx)
    (⟨bl.flatMap (fun b => b.1.1), bl.map (fun b => b.1.2)⟩, bl.foldl (fun f b => f ||| b.2) 0)
  else
    let rs := v.map (fun x => if d.out ≤ 5 then fToInt (8 * codeBytes d.out) (tySigned (BitVec.ofNat 4 d.out)) d.rnd x
      else roundTo (fmtOf d.out) d.rnd true x)
    (⟨rs.map (·.1), []⟩, rs.foldl (fun f r => f ||| r.2) 0)

/-- Stages 3 to 5 on a row, which behave as SATCVT = 1 (R153). -/
def Desc.stages (d : Desc) (entries : List (Nat × Nat)) (base : Nat) (row : Row) : Flagged Row :=
  if d.identity then (row, 0)
  else if d.inF32 then
    let (x, f0) := d.widened row
    let (x, f1) := if d.useDelta then deltaRow entries base x else (x, 0)
    let (x, f2) := if d.had = 0 then (x, 0) else hadamardRow (if d.had = 1 then 16 else 32) x
    let (o, f3) := if d.out = 10 then (⟨x, []⟩, 0) else d.toOut (x.map F32.read)
    (o, f0 ||| f1 ||| f2 ||| f3)
  else if !isDx d.efmt && !isDx d.out then
    let rs := row.els.map (fun x => convert d.efmt d.out d.rnd true x)
    (⟨rs.map (·.1), []⟩, rs.foldl (fun f r => f ||| r.2) 0)
  else
    let (v, f0) := d.values row
    let (o, f1) := d.toOut v
    (o, f0 ||| f1)

/-- Stage 6 (R153): dimensions 0 and 1 swap within each plane of rows. -/
def transposeRows (n0 n1 : Nat) : Nat → List Row → List Row
  | 0, _ => []
  | n + 1, rs =>
    let plane := rs.take n1
    (List.range n0).map (fun i => ⟨plane.map (fun r => r.els.getD i 0), []⟩) ++ transposeRows n0 n1 n (rs.drop n1)

/-- Stage 8 on the bytes of a row with index r along dimension 1 (R154). -/
def swizzleRow (span r : Nat) (bs : List Byte) : List Byte :=
  let m := span / 16
  (List.range bs.length).map (fun b =>
    let seg := b / span
    let j := (b % span) / 16
    bs.getD (seg * span + 16 * (j ^^^ (r % m)) + b % 16) 0)

/-- What a copy writes: offsets from DST with bytes and how many reads those rest on, the CRC where it runs, flags (R153). -/
structure Written where
  items : List (Int × List Byte × Nat)
  stream : List Byte
  crc : Option Nat
  flags : BitVec 8
  deriving DecidableEq, Repr

/-- The pipeline from the rows of the tile on. -/
def Desc.pipeline (d : Desc) (entries : List (Nat × Nat)) (rows : List Row) : Written :=
  let st := rows.mapIdx (fun i r => d.stages entries (i * d.d 0) r)
  let fl := st.foldl (fun f r => f ||| r.2) 0
  let out := st.map (·.1)
  let out := if d.trn then transposeRows (d.d 0) (d.d 1) (d.d 2 * d.d 3) out else out
  let plain := out.map (fun r => bytesOfElems d.out r.els)
  let crc := if d.crc then some (crc32c plain.flatten).toNat else none
  let bytes := plain.zip d.outRows
  let bytes := bytes.map (fun x => if d.swze then swizzleRow (16 * 2 ^ d.swz) x.2.1 x.1 else x.1)
  let exps := if isDx d.out then ((out.zip d.outRows).mapIdx (fun q x =>
      x.1.exps.mapIdx (fun j e =>
        (d.expPlace x.2 j, [BitVec.ofNat 8 e.1, BitVec.ofNat 8 e.2], d.readsForRow q (blockBytes d.out * (j + 1)))))).flatten else []
  let stream := bytes.flatten
  let items : List (Int × List Byte × Nat) :=
    if d.pack then (packStream ((stream.length + 223) / 224) stream).mapIdx (fun n b =>
      (((256 * n : Nat) : Int), b, d.readsForStream (224 * (n + 1))))
    else ((bytes.zip d.outRows).mapIdx (fun q x => (d.rowPlaces x.2).map (fun p =>
      (p.1, (x.1.drop p.2.1).take p.2.2, d.readsForRow q (p.2.1 + p.2.2))))).flatten
  { items := items ++ exps, stream := stream, crc := crc, flags := fl }

/-! ### The engine's events (R251) -/

/-- The parts of `n` bytes at `a`, cut where aligned 16-byte chunks meet: address and length. -/
def chunkParts (a : Int) (n : Nat) : List (Int × Nat) :=
  (List.range (n / 16 + 2)).filterMap (fun (i : Nat) =>
    let lo : Int := max a (16 * (a / 16 + i))
    let hi : Int := min (a + n) (16 * (a / 16 + i + 1))
    if lo < hi then some (lo, (hi - lo).toNat) else none)

/-- A write event: its parts, each an address and bytes, and the reads it rests on. -/
structure WriteEvent where
  parts : List (Int × List Byte)
  need : Nat
  deriving DecidableEq, Repr

/-- A part joins the event of the chunk before it in the order of the output where both lie in one chunk. -/
def joinParts : List (Int × List Byte × Nat) → List WriteEvent
  | [] => []
  | (a, b, k) :: ps =>
    match joinParts ps with
    | e :: es =>
      if (e.parts.headD (0, [])).1 / 16 = a / 16 then { parts := (a, b) :: e.parts, need := max k e.need } :: es
      else { parts := [(a, b)], need := k } :: e :: es
    | [] => [{ parts := [(a, b)], need := k }]

/-- The write events of a copy, in the order of its output (R251): the aligned chunks of its destination, a whole packed block, or 16-byte
chunks of the stream that the decoder FIFO passes on. Addresses are absolute, within the slot, or places in the stream. -/
def Desc.writes (d : Desc) (w : Written) : List WriteEvent :=
  let base : Int := if d.dstk = 2 then (bitsOf d.dst 8 15 : Nat) else (d.dst : Int)
  if d.dstk = 3 then
    (List.range ((w.stream.length + 15) / 16)).map (fun i =>
      let part := (w.stream.drop (16 * i)).take 16
      ⟨[(((16 * i : Nat) : Int), part)], d.readsForStream (16 * i + part.length)⟩)
  else if d.pack then w.items.map (fun x => ⟨[(base + x.1, x.2.1)], x.2.2⟩)
  else joinParts (w.items.flatMap (fun x => (chunkParts (base + x.1) x.2.1.length).map (fun p =>
    (p.1, (x.2.1.drop (p.1 - (base + x.1)).toNat).take p.2, x.2.2))))

/-- Units of 128 bytes that a copy moves (R157): as many as the larger of its ends has, or 256-byte steps of the FIFO's output where a packed
source feeds it (R160, log 19). -/
def Desc.unitCount (d : Desc) (w : Written) : Nat :=
  let out := ((d.writes w).map (fun e => (e.parts.map (fun p => p.2.length)).sum)).sum
  let src := if d.packed then 0 else (d.reads.map (·.2)).sum
  let n := if d.dstk = 3 && d.packed then (out + 255) / 256 else (max out src + 127) / 128
  max 1 n

/-! ### Access to the ends -/

/-- Bytes of scratchpad source, chunk by chunk: the chunks that R253 fixed at issue, then the store as it stands. -/
def Core.copySource (x : Core) (own : List (Nat × Nat)) (off n : Nat) : List Byte :=
  (List.range n).map (fun i =>
    let o := off + i
    match own.find? (fun e => e.1 == o / 16) with
    | some e => BitVec.ofNat 8 (bitsOf e.2 (8 * (o % 16)) 8)
    | none => mapGet (fun _ => 0) x.scratch o)

/-- Where `n` bytes of global memory that a copy reads (kind 8) or writes (kind 9) lie, and at which peer (R229, R353): a failure, or none
where the access must wait for a refresh (R212). MMIO is denied to copies (log 20). -/
def State.copyPlace (s : State) (c : Nat) (y : Copy) (kind : Nat) (va : Addr) (n : Nat) :
    State × Except (Option Trap) (Nat × Option Nat) :=
  match s.lookup c y.ctx va (needOf kind n) y.user with
  | (s, .error t) => (s, .error (some t))
  | (s, .ok (pa, some x)) =>
    (s, if (s.peer x).fenced then .error (some { code := 0x1A, info := BitVec.ofNat 64 x, addr := va }) else .ok (pa, some x))
  | (s, .ok (pa, none)) =>
    (s, if isMmio pa || (kind == 9 && isSlab pa) then .error (some { code := 0x11, info := BitVec.ofNat 64 kind, addr := va })
        else if s.refreshing pa then .error none else .ok (pa, none))

/-- Bytes of a peer that a copy reads (R348): those that the answer to a piece of it holds; a piece `base`, `size` that covers them is asked
for where none has been. Nothing is given while the answer is out. -/
def State.copyFar (s : State) (c x : Nat) (y : Copy) (va pa n base size : Nat) : State × Copy × Option (List Byte) :=
  match y.pieces.find? (fun q => decide (q.va ≤ va) && decide (va + n ≤ q.va + q.size)) with
  | some q => (s, y, q.bytes.map (fun bs => (bs.drop (va - q.va)).take n))
  | none =>
    let s := (s.askPeer c x (.copyRead y.id y.asked) { pa := pa - (va - base), size := size, write := false, data := 0 }).1
    (s, { y with pieces := y.pieces ++ [{ tok := y.asked, va := base, size := size }], asked := y.asked + 1 }, none)

/-- Chunks that a copy has read, of its source or of its delta stream, with the uncorrectable spans among them. -/
def Copy.got (y : Copy) (delta : Bool) (new : List (Nat × List Byte)) (bad : List (Nat × Nat × Nat)) : Copy :=
  let add (l : List (Nat × List Byte)) := l ++ new.filter (fun e => !l.any (fun o => o.1 == e.1))
  if delta then { y with dread := add y.dread, dmarks := y.dmarks ++ bad } else { y with data := add y.data, marks := y.marks ++ bad }

/-- The chunk of the scratchpad that a copy reads, with the uncorrectable words in it. -/
def Core.readChunk (x : Core) (y : Copy) (k : Nat) : Copy :=
  let bad := x.bad.filterMap (fun l => match l with
    | .scratch _ o =>
      let (a, n) := x.scratchUnit o
      if a < 16 * k + 16 ∧ 16 * k < a + n then some (a, a + n, 2) else none
    | _ => none)
  y.got false [(k, x.copySource y.own (16 * k) 16)] bad

/-- The outcome of a read of a copy: the state, the copy, and a failure, or that the read must wait (some none). -/
abbrev CopyRead := State × Copy × Option (Option Trap)

/-- The chunk of global memory around `va` that a copy reads, with the uncorrectable words in it: from a slab the whole 256-byte beat, which is
served against one state (R199), and from a peer the 128-byte piece that it lies in (R348). -/
def State.readChunk (s : State) (c : Nat) (y : Copy) (delta : Bool) (va : Addr) : CopyRead :=
  match s.copyPlace c y 8 va (16 - va.toNat % 16) with
  | (s, .error t) => (s, y, some t)
  | (s, .ok (pa, some x)) =>
    let k := va.toNat / 16
    match s.copyFar c x y (16 * k) (pa / 16 * 16) 16 (k / 8 * 128) 128 with
    | (s, y, some bs) => (s, y.got delta [(k, bs)] [], none)
    | (s, y, none) => (s, y, some none)
  | (s, .ok (pa, none)) =>
    let n := if isSlab pa then 256 else 16
    let base := pa / n * n
    let vbase := va.toNat / n * n
    let (s', bs, _) := s.readPhys c y.ctx base n
    let bad := (s.badSpans base n).map (fun e => (vbase + e.1 - base, vbase + e.1 + e.2 - base, if isSlab pa then 6 else 8))
    (s', y.got delta ((List.range (n / 16)).map (fun i => (vbase / 16 + i, (bs.drop (16 * i)).take 16))) bad, none)

/-- A part of a read: its chunk is read unless it has been; an uncorrectable word among its bytes fails the copy (R101, R199). -/
def State.readPart (s : State) (c : Nat) (y : Copy) (d : Desc) (delta : Bool) (a n : Nat) : CopyRead :=
  let scratch := !delta && d.srcScratch
  let got : CopyRead := if (if delta then y.dread else y.data).any (fun e => e.1 == a / 16) then (s, y, none)
    else if scratch then (s, (s.core c).readChunk y (a / 16), none)
    else s.readChunk c y delta (BitVec.ofNat 80 a)
  match got with
  | (s, y, some t) => (s, y, some t)
  | (s, y, none) =>
    match (if delta then y.dmarks else y.marks).find? (fun e => decide (e.1 < a + n) && decide (a < e.2.1)) with
    | some (lo, _, kind) => (s, y, some (some (ueTrap kind (if scratch then lo else max lo a))))
    | none => (s, y, none)

def State.readParts (s : State) (c : Nat) (y : Copy) (d : Desc) (delta : Bool) : List (Int × Nat) → CopyRead
  | [] => (s, y, none)
  | (a, n) :: ps =>
    match s.readPart c y d delta (a % 2 ^ 80).toNat n with
    | (s, y, none) => s.readParts c y d delta ps
    | r => r

/-- `n` bytes at `va` of the packed block that ends at `stop`, page by page; of a peer the block is one piece (R152, R348). -/
def State.readSpan (s : State) (c : Nat) (y : Copy) (stop : Nat) : Nat → Addr → Nat → State × Copy × Except (Option Trap) (List Byte)
  | 0, _, _ => (s, y, .ok [])
  | fuel + 1, va, n =>
    if n = 0 then (s, y, .ok [])
    else
      let k := min n (4096 - va.toNat % 4096)
      let part : State × Copy × Except (Option Trap) (List Byte) :=
        match s.copyPlace c y 8 va k with
        | (s, .error t) => (s, y, .error t)
        | (s, .ok (pa, some x)) =>
          match s.copyFar c x y va.toNat pa k va.toNat (min (stop - va.toNat) (4096 - va.toNat % 4096)) with
          | (s, y, some bs) => (s, y, .ok bs)
          | (s, y, none) => (s, y, .error none)
        | (s, .ok (pa, none)) =>
          let (s, bs, ue) := s.readPhys c y.ctx pa k
          (s, y, if ue then .error (some (memTrap pa va)) else .ok bs)
      match part with
      | (s, y, .error t) => (s, y, .error t)
      | (s, y, .ok bs) =>
        match s.readSpan c y stop fuel (va + BitVec.ofNat 80 k) (n - k) with
        | (s, y, .ok more) => (s, y, .ok (bs ++ more))
        | r => r

/-- Block `k` of a packed source, read whole in one event: bytes 0 to 31 and DATA (R152, R251). -/
def State.readBlock (s : State) (c : Nat) (y : Copy) (d : Desc) (k : Nat) : CopyRead :=
  let a := d.src + 256 * k
  let get (s : State) (y : Copy) (a n : Nat) : State × Copy × Except (Option Trap) (List Byte) :=
    if d.srcScratch then
      match (s.core c).scratchBad a n with
      | some o => (s, y, .error (some (ueTrap 2 o)))
      | none => (s, y, .ok ((s.core c).copySource y.own a n))
    else s.readSpan c y (d.src + 256 * k + 256) 3 (BitVec.ofNat 80 a) n
  if y.data.any (fun e => e.1 == k) then (s, y, none)
  else
    match get s y a 32 with
    | (s, y, .error t) => (s, y, some t)
    | (s, y, .ok h) =>
      match get s y (a + 32) (min (natOfBytes ((h.drop 28).take 2)) 224) with
      | (s, y, .error t) => (s, y, some t)
      | (s, y, .ok dat) => (s, y.got false [(k, h ++ dat)] [], none)

/-- The reads of a copy up to the given ones, in order, up to a failure, or one that must wait; `readB` counts their bytes (R157, R158). -/
def State.readTo (s : State) (c : Nat) (y : Copy) (d : Desc) : List (Int × Nat) → CopyRead
  | [] => (s, y, none)
  | (o, n) :: xs =>
    match if d.packed then s.readBlock c y d y.readN else s.readParts c y d false (chunkParts ((d.src : Int) + o) n) with
    | (s, z, none) =>
      let size := if d.packed then ((z.data.find? (fun e => e.1 == z.readN)).map (·.2.length)).getD 0 else n
      s.readTo c { z with readN := z.readN + 1, readB := z.readB + size } d xs
    | r => r

/-- What each read of a copy gave; zero bytes for those still to come. -/
def Copy.given (y : Copy) (d : Desc) : List (List Byte) :=
  if d.packed then (List.range d.packedBlocks).map (fun k => ((y.data.find? (fun e => e.1 == k)).map (·.2)).getD (List.replicate 32 0))
  else d.reads.map (fun r => (List.range r.2).map (fun i =>
    let a := (((d.src : Int) + r.1 + i) % 2 ^ 80).toNat
    (((y.data.find? (fun e => e.1 == a / 16)).map (·.2)).getD []).getD (a % 16) 0))

/-- Entry `k` of the delta stream as it has been read (R153); none while a chunk of it is still to be read. -/
def Copy.deltaEntry (y : Copy) (d : Desc) (k : Nat) : Option Nat :=
  let bs := (List.range 8).map (fun i =>
    let a := (d.delta + 8 * k + i) % 2 ^ 80
    (y.dread.find? (fun e => e.1 == a / 16)).map (fun e => e.2.getD (a % 16) 0))
  if bs.all (·.isSome) then some (natOfBytes (bs.map (·.getD 0))) else none

/-- The delta stream as far as it has been read, at most `fuel` entries from entry `k` on: its entries with rising indices below the count, whether
one was skipped, and the entry that is still to be read (R153). -/
def Copy.deltas (y : Copy) (d : Desc) : Nat → Nat → Option Nat → List (Nat × Nat) × Bool × Option Nat
  | 0, _, _ => ([], false, none)
  | fuel + 1, k, last =>
    match y.deltaEntry d k with
    | none => ([], false, some k)
    | some v =>
      let idx := v % 2 ^ 32
      if idx = 0xFFFFFFFF then ([], false, none)
      else
        let skip := (match last with | some l => decide (idx ≤ l) | none => false) || decide (d.count ≤ idx)
        let (es, sk, more) := y.deltas d fuel (k + 1) (some idx)
        (if skip then es else (idx, v / 2 ^ 32) :: es, sk || skip, more)
def Copy.deltaStream (y : Copy) (d : Desc) : List (Nat × Nat) × Bool × Option Nat :=
  if d.useDelta then y.deltas d 65536 0 none else ([], false, none)

/-- At most `n` entries of the delta stream are read, chunk by chunk, up to its end (R153, R251). -/
def State.readDeltas (s : State) (c : Nat) (d : Desc) : Nat → Copy → CopyRead
  | 0, y => (s, y, none)
  | n + 1, y =>
    match (y.deltaStream d).2.2 with
    | none => (s, y, none)
    | some k =>
      match s.readParts c y d true (chunkParts ((d.delta + 8 * k : Nat) : Int) 8) with
      | (s, y, none) => s.readDeltas c d n y
      | r => r

/-! ### Descriptor instructions (R155) -/

/-- CDSET (R155) -/
def execCdset (g : Guard) (n : BitVec 5) (a : BitVec 6) (off : BitVec 7) (sz : BitVec 2) (s : State) :
    Host.Outcome State Fault Refusal :=
  s.guarded g (.ok (s.land (.cdb n.toNat off.toNat (bytesOfNat (2 ^ sz.toNat) (s.sr a).toNat)) 1))
/-- CDADR (R155) -/
def execCdadr (g : Guard) (n : BitVec 5) (aa : BitVec 4) (off : BitVec 7) (s : State) : Host.Outcome State Fault Refusal :=
  s.guarded g (.ok (s.land (.cdb n.toNat off.toNat (bytesOfNat 10 (s.ar aa).toNat)) 1))
/-- CDRD (R155) -/
def execCdrd (g : Guard) (d : BitVec 6) (n : BitVec 5) (off : BitVec 7) (sz : BitVec 2) (s : State) :
    Host.Outcome State Fault Refusal :=
  s.guarded g (.ok (s.landS d (BitVec.ofNat 64 (bitsOf (s.bk.cdget n.toNat).toNat (8 * off.toNat) (8 * 2 ^ sz.toNat))) 1))

/-! ### Copy commands (R156, R159) -/

/-- The chunks whose value R253 fixes: those that the strand stored to since its last EFENCE, each as it was before the first such
store or as it is now, and as they are now those that it stored to before. -/
def State.ownChunks (s : State) : List (Nat × Nat) :=
  let now (k : Nat) : Nat := natOfBytes (s.cr.scratchBytes (16 * k) 16)
  s.bk.old.map (fun e => (e.1, if Config.chooses (s.fresh + e.1) then e.2 else now e.1)) ++
    (s.bk.fenced.filter (fun k => !s.bk.old.any (fun e => e.1 == k))).map (fun k => (k, now k))

/-- The layout byte of an operand-slot destination, from the issue clk on (R154, R178). -/
def State.setLayout (s : State) (d : Desc) : State :=
  if d.dstk = 2 then
    s.modCluster (clusterOf s.cur.core) fun k =>
      let o := d.dst % 64
      let x := k.slot o
      k.setSlot o { x with layout := if d.swze then 1 + d.swz else 0 }
  else s

/-- The accesses that an engine command issued now must follow (R252). -/
def Bank.efenced (b : Bank) : List Nat :=
  match (b.accs.filter (fun a => a.kind == .efence)).map (·.id) with
  | [] => []
  | i :: is =>
    let last := is.foldl max i
    let held := match b.spec with | some r => r.held | none => []
    ((b.accs ++ b.staged ++ held).filter (fun a => decide (a.id < last))).map (·.id)

/-- A copy command: its snapshot and the mappings in force. -/
def State.newCopy (s : State) (cdn ws wt ss si cm : Nat) (deferred : Bool) : Copy :=
  let b := s.bk
  { id := s.cr.nextId, cdn := cdn, desc := b.cdget cdn, ws := b.semPhys ws, wt := wt, ss := b.semPhys ss, si := si, cm := cm,
    vbase := b.vbase, vlim := b.vlim, ctx := b.ctx, user := !b.priv, order := s.order, efence := b.efenced, deferred := deferred,
    own := s.ownChunks }

/-- Join the copy queue, or the deferred list (R156, R159): a full list starts at once, and costs a guarded task its guard. -/
def Bank.addCopy (b : Bank) (y : Copy) : Bank :=
  if y.deferred then
    if b.deferred.length < 64 then { b with deferred := b.deferred ++ [y] }
    else
      let b := { b with deferred := b.deferred ++ [y] }
      if b.guarded then b.loseGuard else { b with copies := b.copies ++ b.deferred, deferred := [] }
  else { b with copies := b.copies ++ [y] }

/-- The waits of the copies that a command queued now are tested in this clk (R157). -/
def State.tryCopies (s : State) (ids : List Nat) : State :=
  { s with agenda := s.agenda ++ ids.map (fun i => (.copyStart, { core := s.cur.core, id := i })) }

/-- A copy names its JREC record (R301). -/
def Bank.nameRecord (b : Bank) (pa : Nat) (va : Addr) : Bank :=
  { b with task := b.task.map fun t => { t with named := t.named ++ [(pa, va)] } }

/-- The common meaning of COPY, COPYN and COPYD. -/
def State.copyCommand (s : State) (cd : BitVec 5) (ws wt ss si cm : Nat) (next : Bool) (asked : Bool) : Try :=
  let d := Desc.parse (s.bk.cdget cd.toNat)
  s.semNeed [ws, ss]
    (match s.copyTrap cd.toNat d with
     | some t => .trap t
     | none =>
       let deferred := asked || (s.bk.guarded && d.dstk == 0)
       if 16 ≤ s.bk.copies.length then .block .copies s
       else
         let y := s.newCopy cd.toNat ws wt ss si cm deferred
         let before := s.bk.copies.length
         let s := ((s.setLayout d).modCr fun x => { x with nextId := x.nextId + 1 }).modBk fun b => b.addCopy y
         let s := ({ s with fresh := s.fresh + 50000 } : State).tryCopies ((s.bk.copies.drop before).map (·.id))
         .ok (if next then s.land (.cdb cd.toNat 0x4A (bytesOfNat 2 (d.org.getD 1 0 + d.d 1))) 1 else s))

/-- COPY (R156) -/
def execCopy (cd : BitVec 5) (ws : BitVec 8) (wt : BitVec 4) (ss : BitVec 8) (si : BitVec 4) (cm : BitVec 2) (s : State) :
    Host.Outcome State Fault Refusal :=
  s.engineSlot 0x01 (s.copyCommand cd ws.toNat wt.toNat ss.toNat si.toNat cm.toNat false false)
/-- COPYN (R156) -/
def execCopyn (cd : BitVec 5) (ws : BitVec 8) (wt : BitVec 4) (ss : BitVec 8) (si : BitVec 4) (cm : BitVec 2) (s : State) :
    Host.Outcome State Fault Refusal :=
  s.engineSlot 0x02 (s.copyCommand cd ws.toNat wt.toNat ss.toNat si.toNat cm.toNat true false)
/-- COPYD (R156, R159) -/
def execCopyd (cd : BitVec 5) (wt : BitVec 4) (ss : BitVec 8) (si : BitVec 4) (cm : BitVec 2) (s : State) :
    Host.Outcome State Fault Refusal :=
  s.engineSlot 0x03 (s.copyCommand cd 0 wt.toNat ss.toNat si.toNat cm.toNat false true)

/-! ### Events of the engine (R157, R158, R160) -/

/-- The bank of a core that holds copy `id`, wherever it stands (R20). -/
def Core.copyPos (x : Core) (id : Nat) : Option Nat := (x.banks.find? (fun e => e.2.copies.any (fun y => y.id == id))).map (·.1)

/-- Change copy `id` of a core. -/
def State.modCopy (s : State) (c p id : Nat) (f : Copy → Copy) : State :=
  s.modBank c p fun b => { b with copies := b.copies.map fun y => if y.id = id then f y else y }

/-- The copy that an event names, and its bank. -/
def State.copyAt (s : State) (c id : Nat) : Option (Nat × Copy) :=
  match (s.core c).copyPos id with
  | some p => ((s.bank c p).copies.find? (fun y => y.id == id)).map (fun y => (p, y))
  | none => none

/-- Whether every access before the command's EFENCE has performed (R252). -/
def Bank.fenceOpen (b : Bank) (ids : List Nat) : Bool :=
  let held := match b.spec with | some r => r.held | none => []
  (b.accs ++ b.staged ++ held).all (fun a => !ids.contains a.id || a.st == .performed || a.idles)

/-- Whether copy `y` may start: the first of its strand that has not, its wait succeeds, its EFENCE is behind it, and its bundle is
not being replayed (R99). -/
def State.copyReady (s : State) (c p : Nat) (y : Copy) : Bool :=
  let b := s.bank c p
  (b.copies.find? (fun x => x.st == .queued)).map (·.id) == some y.id && y.st == .queued && (s.core c).semReady y.ws y.wt
    && b.fenceOpen y.efence && !s.replayHeld c y.order

/-- COPY_START (R157): the wait is taken, and the copy joins the engine's rotation. Operands core, id. -/
def execCopyStart (s : State) : Host.Outcome State Fault Refusal :=
  let c := s.ev.core
  match s.copyAt c s.ev.id with
  | none => .next s
  | some (p, y) =>
    if s.copyReady c p y = false then .next s
    else
      let turn := (s.core c).nextId
      .next ((s.modCore c fun x => { (x.takeSem y.ws y.wt) with nextId := x.nextId + 1 }).modCopy c p y.id fun y =>
        { y with st := .started, begun := s.clk, turn := turn })

/-- CPSTAT of a copy (R157). -/
def Copy.cpstat (y : Copy) : Word :=
  BitVec.ofNat 64 ((y.written % 2 ^ 25) * 2 ^ 39 + (y.readB % 2 ^ 25) * 2 ^ 14 + y.cdn * 2 ^ 9 + y.deferred.toNat * 16 + y.stat)

/-- Queue a user interrupt and the other completion effects, in the order of R157. -/
def State.copyEffects (s : State) (c p : Nat) (y : Copy) : State :=
  let b := s.bank c p
  let s := s.modBank c p fun b => (if y.err.isSome then b else b.addFlags y.flags).putCsr 0x058 y.cpstat
  let s := match y.crc with
    | some v => if y.err.isSome then s else s.modBank c p fun b => b.putCsr 0x059 (BitVec.ofNat 64 v)
    | none => s
  let s := s.saveMerged c p
  if y.err.isSome then s
  else
    let s := s.modCore c fun x => x.signal y.ss y.si b.uid
    let s :=
      if y.cm % 2 = 1 then
        let va : Addr := BitVec.ofNat 80 (Desc.parse y.desc).jrec
        match s.lookup c y.ctx va (needOf 3 64) y.user with
        | (s, .ok (pa, none)) =>
          let s := s.modBank c p fun b => b.nameRecord pa va
          if s.bad pa 64 then s.modBank c p fun b => { b with async := b.async ++ [{ memTrap pa va with slot := 6 }] }
          else if b.guarded then
            s.modBank c p fun b =>
              let b := b.enqueueAcc { id := b.nextId, kind := .jdec, order := y.order, va := va, pa := pa, size := 64 } true
              { b with nextId := b.nextId + 1 }
          else s.joinDec va pa y.ctx
        | (s, .ok (_, some _)) => s.modBank c p fun b => { b with async := b.async ++ [{ code := 0x11, info := 3, addr := va, slot := 6 }] }
        | (s, .error t) => s.modBank c p fun b => { b with async := b.async ++ [{ t with slot := 6 }] }
      else s
    if 2 ≤ y.cm then s.modBank c p fun b => b.pushUi 1 y.cdn else s

/-- Completion effects of a strand's copies occur in issue order (R157). -/
def State.finishCopies (s : State) (c p : Nat) : Nat → State
  | 0 => s
  | n + 1 =>
    match (s.bank c p).copies with
    | y :: ys =>
      if y.st = .written then
        let s := s.modBank c p fun b => { b with copies := ys }
        (s.copyEffects c p y).finishCopies c p n
      else s
    | [] => s

/-- A word of operand memory that is written whole loses its error mark (R177). -/
def Cluster.healOperand (k : Cluster) (o off n : Nat) : Cluster :=
  { k with bad := k.bad.filter (fun l => match l with
    | .operand _ w => !(w / 65536 == o && decide (off ≤ 8 * (w % 65536 / 8)) && decide (8 * (w % 65536 / 8) + 8 ≤ off + n))
    | _ => true) }

/-- Bytes into an operand slot: payload offsets 0-32,767, sidecar 32,768-36,863; others belong to no slot byte (log 21). -/
def Cluster.writeSlot (k : Cluster) (o : Nat) (off : Int) (bs : List Byte) : Cluster :=
  if off < 0 ∨ 36864 < off + bs.length then k
  else
    let x := k.slot o
    (k.setSlot o { x with bytes := mapSetList (fun _ => 0) x.bytes off.toNat bs }).healOperand
      o off.toNat bs.length

/-- Bytes of the decoder FIFO's output from place `n` of the stream on, into the window's registers (R160). -/
def State.writeFifo (s : State) (c uid : Nat) (y : Copy) (d : Desc) (n : Nat) (bs : List Byte) : State :=
  let r := 8 * y.vbase + d.dst + n / 256
  let s := if s.groupStale c uid y.ctx (r / 8) then s.exchangeGroup c uid y.ctx (r / 8) else s
  s.modCore c fun x =>
    let sh := 8 * (n % 256)
    let m := BitVec.ofNat 2048 (2 ^ (8 * bs.length) - 1) <<< sh
    let x := x.healVector r m
    let x := { x with vfile := mapSet (fun _ => 0) x.vfile r (merge (x.vreg r) (BitVec.ofNat 2048 (natOfBytes bs) <<< sh) m) }
    x.dirtyGroup (r / 8) uid y.ctx

/-- What a copy has read stands in the decoder FIFO where that is its destination: the last 16 KiB of it (R160), with the world's tag (R328). -/
def State.fillFifo (s : State) (c : Nat) (y : Copy) (d : Desc) : State :=
  if d.dstk = 3 then
    let bs := ((y.given d).take y.readN).flatten
    s.modCore c fun x => { x with fifo := bs.drop (bs.length - 16384), fifoWorld := s.worldOf y.ctx }
  else s

/-- A write event at the end of a copy that lies in the core or its cluster. -/
def State.writeNear (s : State) (c uid : Nat) (y : Copy) (d : Desc) (a : Int) (bs : List Byte) : State :=
  match d.dstk with
  | 1 => s.modCore c fun x => { x.healScratch a.toNat (bs.map some) with scratch := mapSetList (fun _ => 0) x.scratch a.toNat bs }
  | 2 => s.modCluster (clusterOf c) fun k => k.writeSlot (d.dst % 64) a bs
  | _ => s.writeFifo c uid y d a.toNat bs

/-- The contiguous runs of bytes among those of a line that are given, each with its offset. -/
def byteRuns : List (Option Byte) → Nat → List (Nat × List Byte)
  | [], _ => []
  | none :: l, i => byteRuns l (i + 1)
  | some b :: l, i =>
    match byteRuns l (i + 1) with
    | (j, bs) :: rs => if j = i + 1 then (i, b :: bs) :: rs else (i, [b]) :: (j, bs) :: rs
    | [] => [(i, [b])]

/-- The bytes of a write event. -/
def OutPart.size (o : OutPart) : Nat := (o.parts.map (fun e => e.2.length)).sum
/-- The piece of a peer's memory that a write event lies in: 128 bytes, or a packed block (R348). -/
def OutPart.line (o : OutPart) (d : Desc) : Int := (o.parts.headD (0, [])).1 / (if d.pack then 256 else 128)
/-- A write event has come about; WRITTEN counts its bytes (R158). -/
def Copy.wrote (y : Copy) (o : OutPart) : Copy := { y with out := y.out.filter (fun q => q.n != o.n), written := y.written + o.size }

/-- The write events of a piece leave for a peer, one request for each run of bytes (R348). -/
def State.writeFar (s : State) (c x : Nat) (y : Copy) (d : Desc) (o : OutPart) (pa : Nat) : State × Copy :=
  let span : Nat := if d.pack then 256 else 128
  let base : Int := o.line d * span
  let mine (q : OutPart) : Bool := q.toks.isNone && q.line d == o.line d
  let ps := (y.out.filter mine).flatMap (·.parts)
  let byte (i : Nat) : Option Byte := ps.foldl (fun v e =>
    if e.1 ≤ base + i ∧ base + i < e.1 + e.2.length then e.2[(base + i - e.1).toNat]? else v) none
  let runs := byteRuns ((List.range span).map byte) 0
  let pbase := pa - ((o.parts.headD (0, [])).1 - base).toNat
  let s := (runs.zipIdx).foldl (fun s e => (s.askPeer c x (.copyWrite y.id (y.asked + e.2))
    { pa := pbase + e.1.1, size := e.1.2.length, write := true, data := BitVec.ofNat 2048 (natOfBytes e.1.2) }).1) s
  let toks := (List.range runs.length).map (y.asked + ·)
  (s, { y with out := y.out.map (fun q => if mine q then { q with toks := some toks } else q), asked := y.asked + runs.length })

/-- A write event of a copy comes about, fails, or must wait (R158, R212, R251). -/
def State.writeOut (s : State) (c uid : Nat) (y : Copy) (d : Desc) (o : OutPart) : State × Copy :=
  if d.dstk = 0 then
    match s.copyPlace c y 9 (BitVec.ofInt 80 (o.parts.headD (0, [])).1) o.size with
    | (s, .error none) => (s, y)
    | (s, .error (some t)) => (s, { y with err := some t, out := [] })
    | (s, .ok (pa, some x)) => s.writeFar c x y d o pa
    | (s, .ok (pa, none)) =>
      let a0 := (o.parts.headD (0, [])).1
      (o.parts.foldl (fun s e => s.writePhys y.ctx (((pa : Int) + (e.1 - a0)).toNat) e.2) s, y.wrote o)
  else (o.parts.foldl (fun s e => s.writeNear c uid y d e.1 e.2) s, y.wrote o)

/-- The write events of copy `id` that are due, in order; `upto` names the one that alone is to come about, or none. -/
def State.flushOut (s : State) (c id : Nat) (only : Option Nat) : State :=
  match s.copyAt c id with
  | none => s
  | some (p, y) =>
    let uid := (s.bank c p).uid
    let d := Desc.parse y.desc
    let due := match only with | some k => (y.out.drop k).take 1 | none => y.out
    let (s, y) := due.foldl (fun (r : State × Copy) o =>
      if r.2.err.isNone && r.2.out.any (fun q => q.n == o.n && q.toks.isNone) then r.1.writeOut c uid r.2 d o else r) (s, y)
    s.modCopy c p id fun _ => y

/-- The first packed block that expands past XRATIO (R160). -/
def xratioBad (d : Desc) (blocks : List (List Byte)) : Option Nat :=
  (List.range blocks.length).find? (fun i =>
    decide (d.xratio * (32 + natOfBytes (((blocks.getD i []).drop 28).take 2)) < 224 * 256))

/-- The rows that a copy's reads give, with its status bits PKBAD and OOB (R150-R152). -/
def Desc.source (d : Desc) (data : List (List Byte)) : List Row × Nat :=
  if d.packed then
    let us := data.map (fun b => unpackBlock (b ++ List.replicate (256 - b.length) 0))
    (d.rowsOfBytes (us.flatMap (·.1)), if us.any (·.2) then 8 else 0)
  else
    let total := d.rows.flatMap (fun r => (List.range (d.d 0)).map (fun i => d.inBounds i r))
    let oob := if total.all (fun b => !b) then 1 else if total.all (fun b => b) then 0 else 2
    (d.rowsOf d.rows data, oob)

/-- Whether the destination can be written now: a slot that is being zeroed delays it (R179). -/
def State.destOpen (s : State) (c : Nat) (y : Copy) : Bool :=
  let d := Desc.parse y.desc
  decide (d.dstk ≠ 2) || ((s.cluster (clusterOf c)).slot (d.dst % 64)).zeroing.isNone

/-- A copy that the engine serves. -/
def Copy.runs (y : Copy) : Bool := y.st == .started && y.err.isNone && y.fate.isNone

/-- Whether the next unit of copy `y` can move (R157): the first 5 clk after its start and what its stages add, or later. Data from global
memory arrives when its path delivers it, and the banks of a scratchpad end serve a bundle of this clk first (R136). -/
def State.unitReady (s : State) (c : Nat) (y : Copy) : Bool :=
  let d := Desc.parse y.desc
  let near := d.srcScratch || d.reads.isEmpty
  let busy := (d.srcScratch || d.dstk == 1) && (s.core c).issue.lastClk == s.clk
  y.runs && decide (y.begun + 5 + d.latency ≤ s.clk) && y.out.all (·.toks.isSome) && s.destOpen c y
    && (near || Config.chooses (s.fresh + 2 * y.id)) && !(busy && Config.chooses (s.fresh + 2 * y.id + 1))

/-- The running copies of a core, each with its bank, in the order in which they started. -/
def Core.running (x : Core) : List (Nat × Copy) :=
  (sortByOrder (x.banks.flatMap (fun e => (e.2.copies.filter (·.runs)).map (fun y => (y.turn, (e.1, y)))))).map (·.2)

/-- The copy whose turn it is among those that are ready, given in the order of their starts: the next after the one that was served last
(R157). -/
def nextTurn (last : Nat) (ready : List (Nat × Copy)) : Option (Nat × Copy) :=
  match ready.find? (fun e => decide (last < e.2.turn)) with
  | some e => some e
  | none => ready.head?

/-- Chunks or blocks of the source that a copy reads ahead out of order, by a free choice (R251); one that fails or must wait is left to its
turn. -/
def State.readAnywhere (s : State) (c : Nat) (y : Copy) (d : Desc) : State × Copy :=
  let parts := if d.packed then (List.range d.packedBlocks).map (fun (k : Nat) => ((k : Int), 0))
    else (d.reads.drop y.readN).flatMap (fun r => chunkParts ((d.src : Int) + r.1) r.2)
  let s0 : State := { s with fresh := s.fresh + parts.length }
  (parts.zipIdx).foldl (fun (r : State × Copy) e =>
    if Config.chooses (s.fresh + e.2) then
      let (s', y', _) := if d.packed then r.1.readBlock c r.2 d e.1.1.toNat else r.1.readPart c r.2 d false (e.1.1 % 2 ^ 80).toNat e.1.2
      (s', y')
    else r) (s0, y)

/-- A copy reads ahead of its units in any clk after its start: chunks of its source out of order, a free number of entries of its delta
stream, and a free number of its reads in order (R251, log 19). -/
def State.readAhead (s : State) (c : Nat) (e : Nat × Copy) : State :=
  if s.clk < e.2.begun then s
  else
    let d := Desc.parse e.2.desc
    let (s, y) := s.readAnywhere c e.2 d
    let m := (Config.freeWord s.fresh).toNat % 65537
    let n := (Config.freeWord (s.fresh + 1)).toNat % (d.reads.length - y.readN + 1)
    match ({ s with fresh := s.fresh + 2 } : State).readDeltas c d m y with
    | (s, y, some (some t)) => s.modCopy c e.1 y.id fun _ => { y with err := some t }
    | (s, y, _) =>
      let (s, y, t) := s.readTo c y d ((d.reads.drop y.readN).take n)
      (s.fillFifo c y d).modCopy c e.1 y.id fun _ => { y with err := t.getD none }

/-- What a copy has to write, from what it has read. -/
def Copy.output (y : Copy) (d : Desc) : Written × Nat :=
  let (rows, stat) := d.source (y.given d)
  let (entries, skipped, _) := y.deltaStream d
  (d.pipeline entries rows, stat + if skipped then 4 else 0)

/-- The write events of one unit: those of its share, but for what lies past a block that expands past XRATIO (R157, R160). -/
def Copy.unitWrites (y : Copy) (d : Desc) (w : Written) (upto : Nat) : List WriteEvent × Bool :=
  let es := ((d.writes w).take upto).drop y.wroteN
  match if d.dstk = 3 ∧ d.packed = true then xratioBad d ((y.given d).take y.readN) else none with
  | some i =>
    (es.filter (fun e => decide ((e.parts.headD (0, [])).1 < 224 * i)), es.any (fun e => decide (((224 * i : Nat) : Int) ≤ (e.parts.headD (0, [])).1)))
  | none => (es, false)

/-- Unit `y.units` of a copy moves (R157): the delta stream, its share of the reads and what its share of the writes rests on, then those writes
are due. After the last one the copy completes. -/
def State.moveUnit (s : State) (c p : Nat) (y : Copy) : State :=
  let d := Desc.parse y.desc
  let keep (s : State) (y : Copy) (t : Option Trap) : State := s.modCopy c p y.id fun _ => { y with err := t }
  match s.readDeltas c d 65537 y with
  | (s, y, some t) => keep s y t
  | (s, y, none) =>
    let w := (y.output d).1
    let n := d.unitCount w
    let j := y.units + 1
    let total := (d.writes w).length
    let upto := if n ≤ j then total else total * j / n
    let need := ((d.writes w).take upto).foldl (fun m e => max m e.need) (d.reads.length * min j n / n)
    match s.readTo c y d ((d.reads.take need).drop y.readN) with
    | (s, y, some t) => keep s y t
    | (s, y, none) =>
      let (w, stat) := y.output d
      let (es, past) := y.unitWrites d w upto
      let due := es.mapIdx (fun i e => ({ n := y.asked + i, parts := e.parts } : OutPart))
      let fate := if past then some (some { code := 0x0C, info := BitVec.ofNat 64 y.cdn }) else if n ≤ j then some none else none
      keep (s.fillFifo c y d) { y with units := j, wroteN := upto, out := y.out ++ due, asked := y.asked + due.length, stat := stat,
                                       crc := w.crc, flags := w.flags, fate := fate } none

/-- What follows the last write event of a copy: it completes in this clk, or fails (R157, R160). -/
def State.settleCopy (s : State) (c id : Nat) : State :=
  match s.copyAt c id with
  | some (p, y) =>
    match y.fate with
    | some f =>
      if y.st ≠ .started ∨ y.err.isSome = true ∨ y.out ≠ [] then s
      else match f with
        | some t => s.modCopy c p id fun y => { y with err := some t }
        | none =>
          ((s.modCopy c p id fun y => { y with st := .written }).finishCopies c p ((s.bank c p).copies.length + 1)).dropIdle c
    | none => s
  | none => s

/-- The engine's turn in a clk (R157): the running copies read ahead, and one unit moves, whose writes are due in this clk. -/
def State.engineTurn (s : State) (c : Nat) : State :=
  let s := (s.core c).running.foldl (fun s e => s.readAhead c e) s
  let run := (s.core c).running
  let ready := run.filter (fun e => s.unitReady c e.2)
  let s := { s with fresh := s.fresh + 2 * ((run.map (·.2.id)).foldl max 0 + 1) }
  match nextTurn (s.core c).lastTurn ready with
  | none => s
  | some (p, y) => (s.modCore c fun x => { x with lastTurn := y.turn }).moveUnit c p y

/-- The copies of a core that have started, in the order of their starts. -/
def Core.startedCopies (x : Core) : List Nat :=
  (sortByOrder (x.banks.flatMap (fun e => (e.2.copies.filter (fun y => y.st == .started)).map (fun y => (y.turn, y.id))))).map (·.2)

/-- COPY_COMPLETE (R157, R251): operands core, n, id. n = 0: the engine's turn; n = 1: the end of the clk, by which every write event that is due
and has not to wait has come about, and a copy whose last one has completes; n = 2 + k: the k-th write event that is due of copy `id` comes
about earlier in the clk. -/
def execCopyComplete (s : State) : Host.Outcome State Fault Refusal :=
  let c := s.ev.core
  match s.ev.n with
  | 0 => .next (s.engineTurn c)
  | 1 => .next ((s.core c).startedCopies.foldl (fun s i => (s.flushOut c i none).settleCopy c i) s)
  | k + 2 => .next (s.flushOut c s.ev.id (some k))

/-- The recorded failure of a copy (R158): it stops; its only completion effect is CPSTAT; its cause is raised at the strand's
next bundle. -/
def State.failCopy (s : State) (c p : Nat) (y : Copy) (t : Trap) : State :=
  let s := s.modCopy c p y.id fun y => { y with st := .written, err := some t }
  let s := s.modBank c p fun b => { b with async := b.async ++ [{ t with slot := 6, decode := false }] }
  (s.finishCopies c p ((s.bank c p).copies.length + 1)).dropIdle c

/-- COPY_FAULT: operands core, id. The failure that a read or a write found. -/
def execCopyFault (s : State) : Host.Outcome State Fault Refusal :=
  let c := s.ev.core
  match s.copyAt c s.ev.id with
  | some (p, y) =>
    match y.st, y.err with
    | .started, some t => .next (s.failCopy c p y t)
    | _, _ => .next s
  | none => .next s

end Sys2Proof.Machine
end

