-- ==== Sys2Proof/Machine/Gang.lean ====
section
/-!
DEFINITION. The members of a league and its barrier (R356, R358).
-/

namespace Sys2Proof.Machine

/-- The members of league `n` whose tasks still run, shadow banks included: core, bank, task. -/
def State.lgRunning (s : State) (n : Nat) : List (Nat × Nat × Task) :=
  s.cores.flatMap (fun x => x.2.banks.filterMap (fun e =>
    match e.2.task with
    | some t => if t.league = some n then some (x.1, e.1, t) else none
    | none => none))

/-- The LGWAIT of a bank that has arrived and waits. -/
def Bank.lgWaiting (b : Bank) (n : Nat) : Option Acc := b.accs.find? (fun a => a.kind == .lgwait n && a.st == .waiting)

/-- Whether ARRIVE of the present generation is held from every other chip. -/
def League.complete (l : League) : Bool :=
  decide (l.n - 1 ≤ ((l.held.filter (fun h => h.2 == l.gen)).map (·.1)).eraseDups.length)

/-- Whether the league has started and not been aborted: its members run, or have all ended. -/
def League.started (l : League) : Bool := l.state == 2 || (l.state == 0 && !l.members.isEmpty)

/-- The barrier test of a league (R358): ARRIVE is sent once every local member has arrived or ended; the generation ends when the ARRIVE
of every chip is held, and each waiting LGWAIT is then delivered. A league whose last local member has ended is idle, and still answers
the barriers of the other chips (log 26). -/
def State.lgTest (s : State) (n : Nat) : State :=
  let run := s.lgRunning n
  let l := s.league n
  let s := if l.state = 2 ∧ run = [] then s.setLeague n { l with state := 0 } else s
  let l := s.league n
  if l.started = false ∨ (run = [] ∧ l.n ≤ 1) then s
  else
    let all := run.all (fun m => ((s.bank m.1 m.2.1).lgWaiting n).isSome)
    if all = false then s
    else
      let s := if l.sent then s else (s.setLeague n { l with sent := true }).send (.arrive n l.gen)
      let l := s.league n
      if l.complete then
        let s := s.setLeague n { l with gen := l.gen + 1, sent := false, held := l.held.filter (fun h => h.2 != l.gen) }
        run.foldl (fun s m => s.modBank m.1 m.2.1 fun b =>
          match b.lgWaiting n with
          | some a => b.modAcc a.id fun x => { x with st := .performed, val := l.gen + 1 }
          | none => b) s
      else s

end Sys2Proof.Machine
end

