-- ==== Sys2Proof/Machine/Registers.lean ====
section
/-!
DEFINITION. The registers of a die's MMIO block (R225, R233, R288, R330), for stores and loads of supervisor code and for the host,
and the fault queue (R232-R234).
-/

namespace Sys2Proof.Machine

/-! ### The firewall table (R330) -/

def Die.fwAt (d : Die) (i : Nat) : Word × Word := mapGet fwReset d.fw i
/-- FWBASE and FWLIM keep these bits; LOCK is written by LOCK and teardown only. -/
def fwBaseMask : Word := 0xFFFFFFFFFFFFF003
def fwLimMask : Word := 0x00FFFFFFFFFFF000
/-- Entry `e` after a write of one of its words. -/
def fwWritten (e : Word × Word) (lim : Bool) (v : Word) : Word × Word :=
  if lim then (e.1, (e.2 &&& ~~~fwLimMask) ||| (v &&& fwLimMask)) else (v &&& fwBaseMask, e.2)
/-- A write is refused (R330): the entry is locked, or its new range overlaps a locked entry of another world. -/
def Die.fwRefused (d : Die) (i : Nat) (n : Word × Word) : Bool :=
  (d.fwAt i).2.getLsbD 63 || d.fwList.any (fun e =>
    e.1 != i && e.2.2.getLsbD 63 && fieldOf e.2.1 56 8 != fieldOf n.1 56 8
      && decide (fieldOf e.2.1 12 44 ≤ fieldOf n.2 12 44) && decide (fieldOf n.1 12 44 ≤ fieldOf e.2.2 12 44))

/-- Drop the translations of every context of a world, on every die (R330, R231). -/
def State.dropWorld (s : State) (w : Nat) : State :=
  let keep (e : TlbEntry) : Bool := s.worldOf e.ctx != w
  let t := [0, 1, 2, 3].foldl (fun t d => t.modDie d fun x =>
    { x with tlb := x.tlb.filter keep, tables := x.tables.filter (fun e => s.worldOf e.ctx != w) }) s
  { t with cores := t.cores.map (fun c => (c.1, { c.2 with tlb := c.2.tlb.filter keep })) }

/-- FIREWALL_WRITE (R330): a write by world `w` of word FWBASE or FWLIM of entry `i`. Only world 0 can write entries. -/
def State.fwWrite (s : State) (d i w : Nat) (lim : Bool) (v : Word) : State :=
  if w ≠ 0 then s
  else
    let x := s.die d
    let old := x.fwAt i
    let new := fwWritten old lim v
    if x.fwRefused i new then
      s.setDie d ({ x with sched := putField x.sched 32 16 i }.schedBit s.clk 2)
    else
      ((s.setDie d { x with fw := mapSet fwReset x.fw i new }).dropWorld (fieldOf old.1 56 8)).dropWorld (fieldOf new.1 56 8)

/-! ### The fault queue (R233) -/

/-- The 32 bytes of an entry, as a number. -/
def FaultEntry.word (e : FaultEntry) : Nat :=
  e.va.toNat + (e.ctx % 4096 + (e.kind % 16) * 4096) * 2 ^ 80 + (e.strand % 2 ^ 11) * 2 ^ 96 + (e.world % 256) * 2 ^ 112
    + (e.evict.toNat + 2 * e.malformed.toNat) * 2 ^ 120 + (e.seq % 2 ^ 32) * 2 ^ 128
    + (packBits' 24 e.groups) * 2 ^ 160
where
  packBits' (w : Nat) : List Nat → Nat
    | [] => 0
    | x :: xs => x % 2 ^ w + 2 ^ w * packBits' w xs

/-- FQSTAT (R233); an entry that only waits for its clk (R322) is not yet a park without an entry. -/
def Die.fqstat (d : Die) : Word :=
  BitVec.ofNat 64 (d.faultNext.toNat * 2 ^ 18 + d.badres.toNat * 2 ^ 17 + (!d.faultWait.isEmpty && decide (4096 ≤ d.faults.length)).toNat * 2 ^ 16 + d.faults.length)

/-- A write of FQRESOLVE that names an outstanding entry resolves it; any other sets BADRES (R233). -/
def State.fqResolve (s : State) (d seq action : Nat) : State :=
  s.modDie d fun x =>
    if x.faults.any (fun e => e.seq == seq) then
      { x with faults := x.faults.map (fun e => if e.seq = seq then { e with action := some action } else e) }
    else { x with badres := true }

/-- FQRESOLVE_RETRY, FQRESOLVE_FAIL, FQRESOLVE_REJECT: operands die, n (SEQ). -/
def execFqresolveRetry (s : State) : Host.Outcome State Fault Refusal := .next (s.onDie s.ev.die fun s => s.fqResolve s.ev.die s.ev.n 0)
def execFqresolveFail (s : State) : Host.Outcome State Fault Refusal := .next (s.onDie s.ev.die fun s => s.fqResolve s.ev.die s.ev.n 1)
def execFqresolveReject (s : State) : Host.Outcome State Fault Refusal := .next (s.onDie s.ev.die fun s => s.fqResolve s.ev.die s.ev.n 2)

/-- FAULT_ENTRY_WRITE (R232, R322): the oldest failed access without an entry gets one; operands die. -/
def execFaultEntryWrite (s : State) : Host.Outcome State Fault Refusal :=
  let x := s.die s.ev.die
  match x.faultWait with
  | [] => .next s
  | e :: es => if 4096 ≤ x.faults.length then .next s else .next ((s.setDie s.ev.die { x with faultWait := es }).putFault e)

/-- Whether an entry may be released (R234). -/
def releasable (before : List FaultEntry) (e : FaultEntry) : Bool :=
  e.action.isSome && before.all (fun f => f.ctx != e.ctx || f.action.isSome)

/-- The releasable entry with the lowest SEQ, counted from the oldest. -/
def nextRelease : List FaultEntry → List FaultEntry → Option FaultEntry
  | _, [] => none
  | before, e :: es => if releasable before e then some e else nextRelease (before ++ [e]) es

/-- The trap of ACTION 1 (R229, R234, R352). -/
def FaultEntry.trap (e : FaultEntry) (acc : Nat) : Trap :=
  if 10 ≤ e.kind then { code := 0x1A, info := BitVec.ofNat 64 acc, addr := e.va, slot := e.slot }
  else { code := 0x10, info := BitVec.ofNat 64 (e.kind + 64 * e.evict.toNat + 128 * e.malformed.toNat), addr := e.va, slot := e.slot }

/-! ### The MMIO block of a die -/

/-- The register at a multiple of 8 of die `d`'s block, as a read sees it; none where no register stands, or the contents are not
stated (an entry of the fault queue that is not outstanding). FQRESOLVE is write-only and reads zero. -/
def State.dieReg (s : State) (d off : Nat) : Option Word :=
  let x := s.die d
  if 0x100000 ≤ off ∧ off < 0x108000 then some (BitVec.ofNat 64 (x.occAt ((off - 0x100000) / 8)))
  else if 0x120000 ≤ off ∧ off < 0x128000 then some (BitVec.ofNat 64 (mapGet limReset x.lim ((off - 0x120000) / 8)))
  else if 0x200000 ≤ off ∧ off < 0x220000 then
    (x.faults.find? (fun e => e.seq % 4096 == (off - 0x200000) / 32)).map (fun e => BitVec.ofNat 64 (e.word >>> (64 * (off % 32 / 8))))
  else if off = 0x280000 then some 0
  else if off = 0x280008 then some x.fqstat
  else if off = 0x2A0000 then some x.sched
  else if off = 0x2A0008 then some (x.schedAddr.setWidth 64)
  else if off = 0x2A0010 then some ((x.schedAddr >>> 64).setWidth 64)
  else if 0x300000 ≤ off ∧ off < 0x304000 then
    let e := x.fwAt ((off - 0x300000) / 16)
    some (if off % 16 = 0 then e.1 else e.2)
  else if off = Config.cacheModeOff then some (Config.cacheModeWord x.dected)
  else none

/-! ### NOTIFY (R333, R336, R338) -/

/-- Whether a world is being torn down: its notify and mailbox writes are dropped (R333). -/
def State.tearing (s : State) (w : Nat) : Bool := s.pkg.teardowns.any (fun t => t.world == w)

/-- A write of NOTIFY of world `w` (R338): the record's insertion, or NBAD. -/
def State.notify (s : State) (w : Nat) (v : Word) : State :=
  let x := s.world w
  let va : Addr := BitVec.ofNat 16 x.notifyH ++ v
  let bad (s : State) : State := s.modWorld w fun x => { x with nbad := true }
  if s.tearing w = true ∨ s.worldOf x.notifyCtx ≠ w ∨ (s.ctx x.notifyCtx).loaded = false ∨ va.toNat % 64 ≠ 0 then bad s
  else
    match s.walk 0 x.notifyCtx va (needOf 3 64) false with
    | (s, .error _) => bad s
    | (s, .ok e) =>
      let pa := e.at va
      if e.peer.isSome ∨ isLocal pa = false ∨ isSlab pa = true ∨ s.bad pa 64 = true then bad s
      else { s with agenda := (.recordInsert, { va := va, pa := pa, ctx := x.notifyCtx, how := .notify w }) :: s.agenda }

/-- A write of NOTIFYCTX or NOTIFYH of world `w`; in its teardown the write is dropped and NBAD set (R333). -/
def State.putNotify (s : State) (w : Nat) (f : World → World) : State :=
  s.modWorld w fun x => if s.tearing w then { x with nbad := true } else f x

/-- CACHELIM stores at most 0x8_0000 (R225). -/
def State.putLim (s : State) (d ctx : Nat) (v : Word) : State :=
  s.modDie d fun x => { x with lim := mapSet limReset x.lim ctx (min (fieldOf v 0 20) 0x80000) }

/-- A write of a register of die `d`'s block by world `w`. FQSTAT and SCHEDSTAT hold sticky bits, which take the bit written (R14).
The notify registers of the world's function are among them (R338), at a place the spec does not give (log 22). A write where no
register is writable changes nothing. -/
def State.putDieReg (s : State) (d off w : Nat) (v : Word) : State :=
  if 0x120000 ≤ off ∧ off < 0x128000 then s.putLim d ((off - 0x120000) / 8) v
  else if off = 0x280000 then
    if v.toNat < 2 ^ 34 ∧ fieldOf v 32 2 < 3 then s.fqResolve d (fieldOf v 0 32) (fieldOf v 32 2)
    else s.modDie d fun x => { x with badres := true }
  else if off = 0x280008 then s.modDie d fun x => { x with badres := v.getLsbD 17 }
  else if off = 0x2A0000 then s.modDie d fun x =>
    { x with sched := putField x.sched 0 5 (fieldOf v 0 5 ||| (if x.schedSet.1 = s.clk + 1 then x.schedSet.2 else 0)) }
  else if 0x300000 ≤ off ∧ off < 0x304000 then s.fwWrite d ((off - 0x300000) / 16) w (off % 16 == 8) v
  else if off = Config.cacheModeOff then s.modDie d fun x => { x with dected := Config.cacheModeOf v }
  else if off = Config.barOff + 0x1000 then s.putNotify w fun x => { x with notifyCtx := fieldOf v 0 12 }
  else if off = Config.barOff + 0x1008 then s.putNotify w fun x => { x with notifyH := fieldOf v 0 16 }
  else if off = Config.barOff + 0x1010 then s.notify w v
  else s

/-- A load from the MMIO block: the bytes of the register; a free value where its contents are not stated (log 22). -/
def State.mmioRead (s : State) (pa n : Nat) : State × Nat :=
  match placeOf pa with
  | .mmio d off =>
    match s.dieReg d (8 * (off / 8)) with
    | some v => (s, bitsOf v.toNat (8 * (off % 8)) (8 * n))
    | none => (s.drawn, (Config.freeWord s.fresh).toNat % 2 ^ (8 * n))
  | _ => (s, 0)

/-- A store to the MMIO block; a store of fewer than 8 bytes keeps the register's other bytes as a read shows them (log 22). -/
def State.mmioWrite (s : State) (pa n w v : Nat) : State :=
  match placeOf pa with
  | .mmio d off =>
    let r := 8 * (off / 8)
    s.putDieReg d r w (putField ((s.dieReg d r).getD 0) (8 * (off % 8)) (8 * n) v)
  | _ => s

end Sys2Proof.Machine
end

