-- ==== Sys2Proof/Machine/Memory.lean ====
section
/-!
DEFINITION. Global memory (R235-R250): the pairs that the queues of a strand keep, loads, stores, atomics, fences, EFENCE, PREF, CDLD,
their perform events and deliveries.
-/

namespace Sys2Proof.Machine

/-! ### Classes and kept pairs (R237, R242-R246, R267, R282, R289, R358) -/

def AccKind.loadClass : AccKind → Bool
  | .load _ | .cdld _ | .fill | .deq | .deqt | .refill _ | .gcount => true
  | _ => false
def AccKind.storeClass : AccKind → Bool
  | .store | .atomic _ | .spill | .qinit | .enq | .pop _ | .release _ | .join | .leave | .spawn | .jdec => true
  | _ => false
/-- A marker of both queues, without an access. -/
def AccKind.marker : AccKind → Bool
  | .fence | .lsmark | .efence => true
  | _ => false
def AccKind.queueOp : AccKind → Bool
  | .qinit | .enq | .deq | .deqt | .refill _ | .pop _ | .release _ => true
  | _ => false

/-- An access: not a marker. -/
def Acc.isAccess (a : Acc) : Bool := !a.kind.marker
def Acc.acquires (a : Acc) : Bool :=
  match a.kind with
  | .load _ => a.ord == 1 || a.ord == 4
  | .atomic _ => a.ord == 1 || a.ord == 3 || a.ord == 4
  | .deq | .deqt | .refill _ | .gbar | .lgwait _ => true
  | _ => false
def Acc.releases (a : Acc) : Bool :=
  match a.kind with
  | .store => a.ord == 2 || a.ord == 4
  | .atomic _ => 2 ≤ a.ord
  | .qinit | .enq | .join | .leave | .gbar | .lgwait _ | .spawn | .jdec => true
  | _ => false
/-- An SC event (R249). -/
def Acc.sc (a : Acc) : Bool :=
  a.ord == 4 && (match a.kind with | .load _ | .store | .atomic _ | .fence => true | _ => false)

/-- Two accesses that share a byte. -/
def Acc.shares (a b : Acc) : Bool := a.peer == b.peer && decide (a.pa < b.pa + b.size) && decide (b.pa < a.pa + a.size)
/-- Whether an ordered operation keeps a pair: its scope is not strand, and fabric where the two go to different accelerators
(R241, R246). -/
def Acc.reaches (f a b : Acc) : Bool := if a.peer == b.peer then f.scope != 0 else f.scope == 5

/-- The rows of R237 on a pair, A earlier; between accesses to different accelerators, or a local one and one to a peer, only what has
fabric scope keeps a pair (R246). An SC fence performs after the local accesses before it and before those after it (R244, R249). -/
def keptPair (a b : Acc) : Bool :=
  let same := a.peer == b.peer
  (a.kind.loadClass && b.kind.loadClass && same)
    || (a.kind.storeClass && b.kind.storeClass && same)
    || (a.shares b && a.kind.loadClass && b.kind.storeClass)
    || (a.shares b && (match a.kind with | .atomic _ => true | _ => false) && b.kind.loadClass)
    || (a.acquires && a.reaches a b) || (b.releases && b.reaches a b)
    || (a.sc && b.sc) || ((a.kind == .fence && a.sc || b.kind == .fence && b.sc) && same) || a.mmio || b.mmio
    || (a.kind.queueOp && b.kind.queueOp && a.pa == b.pa)

/-- A FENCE or LSMARK between A and B (R244-R246). -/
def keptAcross (f a b : Acc) : Bool :=
  match f.kind with
  | .lsmark => a.peer == b.peer
  | .fence =>
    f.reaches a b &&
      ((f.ord != 2 && a.kind.loadClass) || (2 ≤ f.ord && b.kind.storeClass) || f.ord == 4)
  | _ => false

/-- Whether an earlier access no longer holds a kept later one: it has performed, or both go to one accelerator through one port, in
the order sent (R347); an ordered operation of fabric scope waits for the response (R348). -/
def Acc.past (a b : Acc) (fabric : Bool) : Bool :=
  a.st == .performed || (!fabric && a.st == .sent && a.peer.isSome && a.peer == b.peer && bitsOf a.pa 8 5 == bitsOf b.pa 8 5)

/-- Whether the region is about to roll back, so that its held stores will never perform (R87, R88). -/
def Bank.rollingBack (k : Bank) : Bool := k.inSpec && (k.entry.isSome || k.wait == some .drain)

/-- The operations of a strand that have not left it: its queues, the operations withdrawn from a controller, which hold back what they held
back while they waited there (R267, R276), and the stores that a guard or a region holds, which perform only when they are released (R256). -/
def Bank.standing (k : Bank) : List Acc :=
  k.accs ++ k.resend.map (fun a => { a with st := .waiting }) ++ k.staged ++ (match k.spec with | some r => if k.rollingBack then [] else r.held | none => [])

/-- R237, R246, R350: nothing of the strand that stands before `b` in program order holds it back. Of its queue an earlier access to the same
memory does while it is queued there, and one whose request the die holds does whatever `b` goes to. -/
def Bank.mayPerform (k : Bank) (b : Acc) : Bool :=
  let before := k.standing.filter (fun a => decide (a.id < b.id) && !(a.idles && !(b.kind.queueOp && a.pa == b.pa)))
  before.all (fun a =>
    let fences := before.filter (fun f => decide (a.id < f.id) && keptAcross f a b)
    let fabric := (b.releases && b.scope == 5) || (a.acquires && a.scope == 5) || fences.any (fun f => f.scope == 5)
    let kept := (a.isAccess || (a.kind == .fence && a.sc)) && (keptPair a b || (a.isAccess && !fences.isEmpty))
    let fifo := (a.kind.loadClass && b.kind.loadClass) || (a.kind.storeClass && b.kind.storeClass)
    (!kept || a.past b fabric) && !(fifo && ((a.st == .queued && a.peer == b.peer) || (a.st == .waiting && a.peer.isSome))))

/-- Markers behind which nothing is left are done (R244, R245, R252). -/
def Bank.tidy (k : Bank) : Bank :=
  { k with accs := k.accs.filter (fun m =>
      !(m.kind.marker && (!m.sc || m.st == .performed) &&
        k.standing.all (fun a => decide (m.id ≤ a.id) || a.st == .performed || a.idles))) }
def Bank.dropAcc (k : Bank) (id : Nat) : Bank := ({ k with accs := k.accs.filter (fun a => a.id != id) }).tidy

/-! ### Issue (R238) -/

/-- The fault of a load inside a region is deferred (R86): its destination is delivered 0, and the region fails. -/
def State.deferLoad (s : State) (a : Acc) : State :=
  s.modBk fun b =>
    { b with spec := b.spec.map fun r => { r with failed := true }, nextId := b.nextId + 1,
             accs := b.accs ++ [{ a with id := b.nextId, order := s.order, st := .performed, val := 0 }],
             pend := match a.dest with | some r => b.pend ++ [r] | none => b.pend }

/-- Join the queues: the destination becomes pending; a store of a region is held, up to 32 (R86); a store of a guarded task is
staged (R298). -/
def State.issueAcc (s : State) (a : Acc) (stages : Bool) : State :=
  s.modBk fun b =>
    let a := { a with id := b.nextId, order := s.order, slot := s.cur.slot, user := !b.priv }
    let b := { b with nextId := b.nextId + 1, pend := match a.dest with | some r => b.pend ++ [r] | none => b.pend }
    match b.spec with
    | some r =>
      if a.kind = .store then
        if 32 ≤ r.count then { b with spec := some { r with failed := true, count := r.count + 1 } }
        else { b with spec := some { r with held := r.held ++ [a], count := r.count + 1 } }
      else b.enqueueAcc a stages
    | none => b.enqueueAcc a stages

/-- The address of a global access of `size` bytes is checked and translated (R238): overflow, alignment, translation; then `r` with the
physical address and the peer. `defer` is what a deferred fault does in a region. -/
def State.globalAt (s : State) (ea : Int) (align size kind : Nat) (defer : Option State) (r : Nat → Option Nat → Try) : Try :=
  let va : Addr := BitVec.ofInt 80 ea
  let need := needOf kind size
  let fail (t : Trap) : Try := match defer with | some d => .ok d | none => .trap t
  if ea < 0 ∨ 2 ^ 80 ≤ ea then .trap (causeTrap 0x1F 1)
  else if ea % (align : Int) ≠ 0 then fail (alignTrap align va)
  else
    match s.translate va need (!s.bk.priv) with
    | .walking => .block .walk (s.askWalk va need (!s.bk.priv) defer.isSome)
    | .failed t =>
      if t.code ≠ 0x10 then fail t
      else match defer with
        | some d => .ok (d.modBk fun b => { b with walkErr := none })
        | none =>
          .block .park ((s.modBk fun b => { b with walkErr := none }).putFault
            (s.faultOf s.cur.core s.cur.pos va kind { t with slot := s.cur.slot } none))
    | .at_ pa peer =>
      if peer.isNone && isMmio pa && !s.bk.priv then fail { code := 0x11, info := BitVec.ofNat 64 kind, addr := va }
      else r pa peer

/-- aA + SignExt(off, n) (R238). -/
def State.ea (s : State) (aa : BitVec 4) (off : Int) : Int := ((s.ar aa).toNat : Int) + off

/-- The destination of an interlocked producer; s0 takes nothing (R238). -/
def State.destS (s : State) (d : BitVec 6) : Option Reg := if d = 0 then none else some (s.bk.regS d.toNat)

/-- A load (R238, R239, R242, R250). -/
def State.loadGlobal (s : State) (d : BitVec 6) (aa : BitVec 4) (off : Int) (size : Nat) (signed : Bool) (ord scope : Nat) : Try :=
  let ea := s.ea aa off
  let a : Acc := { id := 0, kind := .load signed, order := s.order, va := BitVec.ofInt 80 ea, size := size, ord := ord, scope := scope,
                   dest := s.destS d }
  s.globalAt ea size size 1 (if s.bk.inSpec then some (s.deferLoad a) else none) fun pa peer =>
    if ord = 4 ∧ peer.isSome then .trap { code := 0x11, info := 1, addr := a.va }
    else .ok (s.issueAcc { a with pa := pa, peer := peer, mmio := peer.isNone && isMmio pa } false)

/-- A store (R238, R239, R242, R250); one that reaches a slab raises PERMISSION (R199). -/
def State.storeGlobal (s : State) (aa : BitVec 4) (b : BitVec 6) (off : Int) (size : Nat) (ord scope : Nat) : Try :=
  let ea := s.ea aa off
  let a : Acc := { id := 0, kind := .store, order := s.order, va := BitVec.ofInt 80 ea, size := size, ord := ord, scope := scope,
                   data := (s.sr b).toNat % 2 ^ (8 * size) }
  s.globalAt ea size size 2 none fun pa peer =>
    if (peer.isNone && isSlab pa) || (ord == 4 && peer.isSome) then .trap { code := 0x11, info := 2, addr := a.va }
    else .ok (s.issueAcc { a with pa := pa, peer := peer, mmio := peer.isNone && isMmio pa } true)

/-- Not allowed while the task holds its guard (R298). -/
def State.noGuard (s : State) (op : Nat) (r : Try) : Try := if s.bk.guarded then .trap (guardTrap op) else r

/-- An atomic (R243); s[B] and s[D] are read at issue. -/
def State.atomicGlobal (s : State) (g : Guard) (op : Nat) (d : BitVec 6) (aa : BitVec 4) (b : BitVec 6) (ord scope : BitVec 3)
    (off : BitVec 11) : Host.Outcome State Fault Refusal :=
  let ea := s.ea aa off.toInt
  let a : Acc := { id := 0, kind := .atomic op, order := s.order, va := BitVec.ofInt 80 ea, size := 8, ord := ord.toNat,
                   scope := scope.toNat, data := (s.sr b).toNat, aux := (s.sr d).toNat, dest := s.destS d }
  s.guarded g (s.forbid (0x74 + op) false true false (s.noGuard (0x74 + op)
    (s.globalAt ea 8 8 3 none fun pa peer =>
      if peer.isNone && (isSlab pa || isMmio pa) then .trap { code := 0x11, info := 3, addr := a.va }
      else .ok (s.issueAcc { a with pa := pa, peer := peer } false))))

/-- f of R243. -/
def atomicNew (op : Nat) (old b d : Word) : Word :=
  match op with
  | 0 => old + b
  | 1 => old &&& b
  | 2 => old ||| b
  | 3 => old ^^^ b
  | 4 => minS old b
  | 5 => maxS old b
  | 6 => b
  | _ => if old = d then b else old

/-- LD_B (R239) -/
def execLdB (g : Guard) (d : BitVec 6) (aa : BitVec 4) (imm : BitVec 17) (s : State) : Host.Outcome State Fault Refusal :=
  s.guarded g (s.loadGlobal d aa imm.toInt 1 true 0 0)
/-- LD_BU (R239) -/
def execLdBu (g : Guard) (d : BitVec 6) (aa : BitVec 4) (imm : BitVec 17) (s : State) : Host.Outcome State Fault Refusal :=
  s.guarded g (s.loadGlobal d aa imm.toInt 1 false 0 0)
/-- LD_H (R239) -/
def execLdH (g : Guard) (d : BitVec 6) (aa : BitVec 4) (imm : BitVec 17) (s : State) : Host.Outcome State Fault Refusal :=
  s.guarded g (s.loadGlobal d aa imm.toInt 2 true 0 0)
/-- LD_HU (R239) -/
def execLdHu (g : Guard) (d : BitVec 6) (aa : BitVec 4) (imm : BitVec 17) (s : State) : Host.Outcome State Fault Refusal :=
  s.guarded g (s.loadGlobal d aa imm.toInt 2 false 0 0)
/-- LD_W (R239) -/
def execLdW (g : Guard) (d : BitVec 6) (aa : BitVec 4) (imm : BitVec 17) (s : State) : Host.Outcome State Fault Refusal :=
  s.guarded g (s.loadGlobal d aa imm.toInt 4 true 0 0)
/-- LD_WU (R239) -/
def execLdWu (g : Guard) (d : BitVec 6) (aa : BitVec 4) (imm : BitVec 17) (s : State) : Host.Outcome State Fault Refusal :=
  s.guarded g (s.loadGlobal d aa imm.toInt 4 false 0 0)
/-- LD_D (R239) -/
def execLdD (g : Guard) (d : BitVec 6) (aa : BitVec 4) (imm : BitVec 17) (s : State) : Host.Outcome State Fault Refusal :=
  s.guarded g (s.loadGlobal d aa imm.toInt 8 false 0 0)
/-- ST_B (R239) -/
def execStB (g : Guard) (aa : BitVec 4) (b : BitVec 6) (imm : BitVec 17) (s : State) : Host.Outcome State Fault Refusal :=
  s.guarded g (s.storeGlobal aa b imm.toInt 1 0 0)
/-- ST_H (R239) -/
def execStH (g : Guard) (aa : BitVec 4) (b : BitVec 6) (imm : BitVec 17) (s : State) : Host.Outcome State Fault Refusal :=
  s.guarded g (s.storeGlobal aa b imm.toInt 2 0 0)
/-- ST_W (R239) -/
def execStW (g : Guard) (aa : BitVec 4) (b : BitVec 6) (imm : BitVec 17) (s : State) : Host.Outcome State Fault Refusal :=
  s.guarded g (s.storeGlobal aa b imm.toInt 4 0 0)
/-- ST_D (R239) -/
def execStD (g : Guard) (aa : BitVec 4) (b : BitVec 6) (imm : BitVec 17) (s : State) : Host.Outcome State Fault Refusal :=
  s.guarded g (s.storeGlobal aa b imm.toInt 8 0 0)
/-- LDA_D (R242) -/
def execLdaD (g : Guard) (d : BitVec 6) (aa : BitVec 4) (scope : BitVec 3) (off : BitVec 11) (s : State) :
    Host.Outcome State Fault Refusal :=
  s.guarded g (s.loadGlobal d aa off.toInt 8 false 1 scope.toNat)
/-- STL_D (R242) -/
def execStlD (g : Guard) (aa : BitVec 4) (b : BitVec 6) (scope : BitVec 3) (off : BitVec 11) (s : State) :
    Host.Outcome State Fault Refusal :=
  s.guarded g (s.storeGlobal aa b off.toInt 8 2 scope.toNat)
/-- LDSC_D (R250) -/
def execLdscD (g : Guard) (d : BitVec 6) (aa : BitVec 4) (off : BitVec 11) (s : State) : Host.Outcome State Fault Refusal :=
  s.guarded g (s.forbid 0x6D false true false (s.noGuard 0x6D (s.loadGlobal d aa off.toInt 8 false 4 4)))
/-- STSC_D (R250) -/
def execStscD (g : Guard) (aa : BitVec 4) (b : BitVec 6) (off : BitVec 11) (s : State) : Host.Outcome State Fault Refusal :=
  s.guarded g (s.forbid 0x6E false true false (s.noGuard 0x6E (s.storeGlobal aa b off.toInt 8 4 4)))
/-- AADD (R243) -/
def execAadd (g : Guard) (d : BitVec 6) (aa : BitVec 4) (b : BitVec 6) (ord scope : BitVec 3) (off : BitVec 11) (s : State) :
    Host.Outcome State Fault Refusal :=
  s.atomicGlobal g 0 d aa b ord scope off
/-- AAND (R243) -/
def execAand (g : Guard) (d : BitVec 6) (aa : BitVec 4) (b : BitVec 6) (ord scope : BitVec 3) (off : BitVec 11) (s : State) :
    Host.Outcome State Fault Refusal :=
  s.atomicGlobal g 1 d aa b ord scope off
/-- AOR (R243) -/
def execAor (g : Guard) (d : BitVec 6) (aa : BitVec 4) (b : BitVec 6) (ord scope : BitVec 3) (off : BitVec 11) (s : State) :
    Host.Outcome State Fault Refusal :=
  s.atomicGlobal g 2 d aa b ord scope off
/-- AXOR (R243) -/
def execAxor (g : Guard) (d : BitVec 6) (aa : BitVec 4) (b : BitVec 6) (ord scope : BitVec 3) (off : BitVec 11) (s : State) :
    Host.Outcome State Fault Refusal :=
  s.atomicGlobal g 3 d aa b ord scope off
/-- AMIN (R243) -/
def execAmin (g : Guard) (d : BitVec 6) (aa : BitVec 4) (b : BitVec 6) (ord scope : BitVec 3) (off : BitVec 11) (s : State) :
    Host.Outcome State Fault Refusal :=
  s.atomicGlobal g 4 d aa b ord scope off
/-- AMAX (R243) -/
def execAmax (g : Guard) (d : BitVec 6) (aa : BitVec 4) (b : BitVec 6) (ord scope : BitVec 3) (off : BitVec 11) (s : State) :
    Host.Outcome State Fault Refusal :=
  s.atomicGlobal g 5 d aa b ord scope off
/-- AXCHG (R243) -/
def execAxchg (g : Guard) (d : BitVec 6) (aa : BitVec 4) (b : BitVec 6) (ord scope : BitVec 3) (off : BitVec 11) (s : State) :
    Host.Outcome State Fault Refusal :=
  s.atomicGlobal g 6 d aa b ord scope off
/-- ACAS (R243) -/
def execAcas (g : Guard) (d : BitVec 6) (aa : BitVec 4) (b : BitVec 6) (ord scope : BitVec 3) (off : BitVec 11) (s : State) :
    Host.Outcome State Fault Refusal :=
  s.atomicGlobal g 7 d aa b ord scope off
/-- PREF (R240): the home die brings the line into its cache; what would fault makes it a no-op. -/
def execPref (g : Guard) (aa : BitVec 4) (imm : BitVec 17) (s : State) : Host.Outcome State Fault Refusal :=
  s.guarded g (
    let ea := s.ea aa imm.toInt
    if ea < 0 ∨ 2 ^ 80 ≤ ea then .ok s
    else
      match s.lookup s.cur.core s.bk.ctx (BitVec.ofInt 80 ea) (needOf 1 1) (!s.bk.priv) with
      | (s', .ok (pa, none)) => .ok (s'.useLines pa 1 s.bk.ctx false)
      | (s', _) => .ok s')
/-- FENCE (R244) -/
def execFence (g : Guard) (ord scope : BitVec 3) (s : State) : Host.Outcome State Fault Refusal :=
  s.guarded g (.ok (s.issueAcc { id := 0, kind := .fence, order := s.order, ord := ord.toNat, scope := scope.toNat } false))
/-- LSMARK (R245) -/
def execLsmark (g : Guard) (s : State) : Host.Outcome State Fault Refusal :=
  s.guarded g (.ok (s.issueAcc { id := 0, kind := .lsmark, order := s.order } false))
/-- EFENCE (R252); from here on the chunks of R253 are noted afresh. -/
def execEfence (g : Guard) (s : State) : Host.Outcome State Fault Refusal :=
  s.guarded g (.ok ((s.issueAcc { id := 0, kind := .efence, order := s.order } false).modBk fun b =>
    { b with old := [], fenced := (b.fenced ++ b.old.map (·.1)).eraseDups }))

/-- CDLD (R155): a global load of 128 bytes at a multiple of 16. One that crosses a page, or a beat of a slab (R202), is
two accesses, each with its own place; `aux` is
the first byte of the register that it fills. -/
def execCdld (g : Guard) (n : BitVec 5) (aa : BitVec 4) (imm : BitVec 17) (s : State) : Host.Outcome State Fault Refusal :=
  let ea := s.ea aa imm.toInt
  let a : Acc := { id := 0, kind := .cdld n.toNat, order := s.order, va := BitVec.ofInt 80 ea, size := 128, dest := some (.cd n.toNat) }
  let defer := if s.bk.inSpec then some (s.deferLoad a) else none
  s.guarded g (s.globalAt ea 16 (min 128 (4096 - ea % 4096).toNat) 4 defer fun pa peer =>
    let beats := peer.isNone && isSlab pa && decide (ea / 256 ≠ (ea + 127) / 256)
    if ea / 4096 = (ea + 127) / 4096 ∧ beats = false then
      .ok (s.issueAcc { a with pa := pa, peer := peer, mmio := peer.isNone && isMmio pa } false)
    else
      let last := if beats then ea + 127 - (ea + 127) % 256 else ea + 127 - (ea + 127) % 4096
      let n := (last - ea).toNat
      s.globalAt last 16 (128 - n) 4 defer fun pa2 peer2 =>
        .ok ((s.issueAcc { a with pa := pa, peer := peer, mmio := peer.isNone && isMmio pa, size := n } false).issueAcc
          { a with pa := pa2, peer := peer2, mmio := peer2.isNone && isMmio pa2, size := 128 - n, aux := n } false))

/-! ### Perform events (R235, R236) -/

/-- The bytes that younger own stores give a load (R236): stores earlier in program order that have not performed. The pieces of a window
spill count as ST.D does (R80). -/
def Bank.forwards (b : Bank) (a : Acc) : List Acc :=
  let held := match b.spec with | some r => r.held | none => []
  ((b.accs ++ b.staged ++ held).filter (fun x =>
    (x.kind == .store || x.kind == .spill) && x.st != .performed && !x.mmio && decide (x.id < a.id) && x.shares a))

/-- Byte `pa` as the youngest of some stores writes it. -/
def storedByte (l : List Acc) (pa : Nat) : Option Byte :=
  (l.foldl (fun (m : Option (Nat × Byte)) x =>
    if x.pa ≤ pa ∧ pa < x.pa + x.size then
      match m with
      | some (i, _) => if i < x.id then some (x.id, BitVec.ofNat 8 (bitsOf x.data (8 * (pa - x.pa)) 8)) else m
      | none => some (x.id, BitVec.ofNat 8 (bitsOf x.data (8 * (pa - x.pa)) 8))
    else m) none).map (·.2)

def overlay (l : List Acc) (pa : Nat) (bs : List Byte) : List Byte := bs.mapIdx (fun i b => (storedByte l (pa + i)).getD b)

/-- The bytes that a local load-class access reads, and whether one is uncorrectable. -/
def State.loadBytes (s : State) (c : Nat) (b : Bank) (a : Acc) : State × List Byte × Bool :=
  if a.mmio then
    let (s, v) := s.mmioRead a.pa a.size
    (s, bytesOfNat a.size v, false)
  else
    let (s, bs, ue) := s.readPhys c b.ctx a.pa a.size
    (s, overlay (b.forwards a) a.pa bs, ue)

/-- The value of a destination register. -/
def Acc.result (a : Acc) (bs : List Byte) : Nat :=
  match a.kind with
  | .load true => wrapInt 64 (signedOf (8 * a.size) (natOfBytes bs))
  | _ => natOfBytes bs

/-- A load that stores of its strand forward whole performs at once where no access that R237 keeps before it stands in the way
(R235, R236). -/
def Bank.forwardNow (b : Bank) : Bank :=
  b.accs.foldl (fun b a =>
    match a.kind with
    | .load _ =>
      let l := b.forwards a
      if a.st == .queued && !a.sc && !a.mmio && (List.range a.size).all (fun i => (storedByte l (a.pa + i)).isSome) && b.mayPerform a then
        (b.modAcc a.id fun x =>
          { x with st := .performed, val := a.result ((List.range a.size).map (fun i => (storedByte l (a.pa + i)).getD 0)) }).tidy
      else b
    | _ => b) b

/-- An insertion or decrement names a record (R301). -/
def State.nameRec (s : State) (c uid pa : Nat) (va : Addr) : State := s.modUid c uid fun b => b.nameRecord pa va

/-- A local access performs (R235, R243, R289, R358). The insertion of SPAWN and the decrement of JDEC are the very next event; a record that
cannot be read is a failure found at its home die (R266, R303). An atomic that consumes an error stores nothing. -/
def State.performLocal (s : State) (c p : Nat) (a : Acc) : State :=
  let b := s.bank c p
  match a.kind with
  | .store | .spill =>
    let s := if a.mmio then s.mmioWrite a.pa a.size (s.worldOf b.ctx) a.data else s.writePhys b.ctx a.pa (bytesOfNat a.size a.data)
    s.modBank c p fun b => b.dropAcc a.id
  | .atomic op =>
    let (s, bs, ue) := s.readPhys c b.ctx a.pa 8
    let old := natOfBytes bs
    let new := atomicNew op (BitVec.ofNat 64 old) (BitVec.ofNat 64 a.data) (BitVec.ofNat 64 a.aux)
    let s := if ue then s else s.writePhys b.ctx a.pa (bytesOfNat 8 new.toNat)
    s.modBank c p fun b => (b.modAcc a.id fun x => { x with st := .performed, val := old, ue := ue }).tidy
  | .load _ | .cdld _ | .fill =>
    let (s, bs, ue) := s.loadBytes c b a
    s.modBank c p fun b => (b.modAcc a.id fun x => { x with st := .performed, val := a.result bs, ue := ue }).tidy
  | .fence => s.modBank c p fun b => (b.modAcc a.id fun x => { x with st := .performed }).tidy
  | .spawn | .jdec =>
    let (s, _, ue) := s.readHome b.ctx a.pa 64
    if ue then s.modBank c p fun b => b.modAcc a.id fun x => { x with st := .performed, err := some { memTrap a.pa a.va with slot := a.slot } }
    else
      let s := (s.nameRec c b.uid a.pa a.va).modBank c p fun b => b.dropAcc a.id
      if a.kind = .spawn ∧ b.gone.any (·.dep) = true then (s.insertRec a.va a.pa b.ctx).1.depFail b.ctx [(a.pa, a.va)]
      else
      let e : EvArgs := { va := a.va, pa := a.pa, ctx := b.ctx }
      { s with agenda := (if a.kind = .spawn then (.recordInsert, { e with how := .spawn }) else (.joinDecrement, e)) :: s.agenda }
  | .lgwait n => (s.modBank c p fun b => b.modAcc a.id fun x => { x with st := .waiting }).lgTest n
  | _ => s

/-! ### Peers (R346-R352) -/

/-- Whether an access needs the peer's answer: everything on a PEER page. -/
def Acc.write (a : Acc) : Bool := a.kind.storeClass

/-- The piece of a spill or fill that an access carries out (R80). -/
def Acc.piece (a : Acc) : WinPiece := if a.kind = .fill then ⟨true, a.va, a.aux⟩ else ⟨false, a.va, a.data⟩

/-- A load of the open region that a peer has failed is deferred (R86): 0 is delivered, and the region fails; none for any other access. -/
def Bank.deferPeer (b : Bank) (a : Acc) : Option Bank :=
  match b.spec with
  | some r =>
    if r.order < a.order ∧ a.kind.loadClass = true then
      some { (b.modAcc a.id fun y => { y with st := .performed, val := 0 }) with spec := some { r with failed := true } }
    else none
  | none => none

/-- A fabric fault (R352): inside a region it is deferred (R86); a window access raises WINDOW_SPILL_FAULT (R353); otherwise the access
fails, and the strand will park. -/
def State.fabricFail (s : State) (c p : Nat) (a : Acc) : State :=
  match a.kind with
  | .spill | .fill => s.modBank c p fun b => (b.dropAcc a.id).winFault [a.piece] { code := 0x1A, addr := a.va }
  | _ => s.modBank c p fun b => (b.deferPeer a).getD (b.modAcc a.id fun y => { y with st := .failed, told := false })

/-- The request of an access to a peer; an atomic leaves as an atomic request (R345, R348). -/
def Acc.request (a : Acc) : PeerReq :=
  let r : PeerReq := { pa := a.pa, size := a.size, write := a.write, data := BitVec.ofNat 2048 a.data }
  match a.kind with
  | .atomic op => { r with op := some op, cmp := BitVec.ofNat 64 a.aux }
  | _ => r

/-- The request of an access has left; bytes that own stores forward to a load are kept with it (R236). -/
def State.sentAcc (s : State) (c p : Nat) (a : Acc) : State :=
  let f := (s.bank c p).forwards a
  s.modBank c p fun b => b.modAcc a.id fun y =>
    if a.kind.loadClass then { y with st := .sent, fwd := (List.range a.size).map (fun i => storedByte f (a.pa + i)) } else { y with st := .sent }

/-- A request is sent to its peer, waits for the die's budget, or fails at once at a fenced peer (R350, R351). -/
def State.sendAcc (s : State) (c p : Nat) (a : Acc) : State :=
  match s.askPeer c (a.peer.getD 0) (.access (s.bank c p).uid a.id) a.request with
  | (s, .failed) => s.fabricFail c p a
  | (s, .held) => s.modBank c p fun b => b.modAcc a.id fun y => { y with st := .waiting }
  | (s, .sent) => s.sentAcc c p a

/-- Whether a refresh holds an access back (R212). -/
def State.refreshHolds (s : State) (a : Acc) : Bool := a.peer.isNone && !a.kind.marker && s.refreshing a.pa

/-- ACCESS_PERFORM: operands core, pos, id. SC events wait for the wheel (R249). -/
def State.accessPerform (s : State) (c p id : Nat) (wheel : Bool) : State :=
  let b := s.bank c p
  match b.acc? id with
  | none => s
  | some a =>
    let here := match a.kind with
      | .load _ | .store | .atomic _ | .cdld _ | .fill | .spill | .spawn | .jdec | .lgwait _ => true
      | .fence => a.sc
      | _ => false
    if here && a.st == .queued && a.sc == wheel && !s.refreshHolds a && b.mayPerform a then
      if a.peer.isSome then s.sendAcc c p a else s.performLocal c p a
    else s

def execAccessPerform (s : State) : Host.Outcome State Fault Refusal := .next (s.accessPerform s.ev.core s.ev.pos s.ev.id false)

/-- The SC event of a bank that may take the wheel position now: nothing keeps it back, and no refresh (R212, R249). -/
def State.scReady (s : State) (b : Bank) : Option Acc :=
  b.accs.find? (fun a => a.sc && a.st == .queued && b.mayPerform a && !s.refreshHolds a)

/-- SC_WHEEL_PERFORM (R249): operands core. Parked strands and a frozen core wait for the next revolution. After
the positions come the events of tasks that have ended (R256). -/
def execScWheelPerform (s : State) : Host.Outcome State Fault Refusal :=
  let c := s.ev.core
  let x := s.core c
  if s.clk % 256 ≠ c ∨ s.isFrozen c = true then .next s
  else
    let order := [1, 2, 3, 4].map (fun i => (x.issue.scLast + i) % 4) ++ (x.banks.map (·.1)).filter (8 ≤ ·)
    match order.find? (fun p => (x.bank p).parked.isEmpty && (s.scReady (x.bank p)).isSome) with
    | none => .next s
    | some p =>
      match s.scReady (x.bank p) with
      | none => .next s
      | some a =>
        let s := s.accessPerform c p a.id true
        .next (if p < 4 then s.modCore c fun x => { x with issue := { x.issue with scLast := p } } else s)

/-! ### Delivery (R18, R20) -/

def Bank.unpend (b : Bank) (r : Option Reg) : Bank :=
  match r with
  | some r => { b with pend := b.pend.filter (fun x => x != r) }
  | none => b

/-- The accesses of the instruction that made access `id`: the two parts of a CDLD that crosses a page (R155). -/
def Bank.partsOf (b : Bank) (id : Nat) (x : Acc) : Bool :=
  x.id == id || (match b.acc? id with | some a => x.order == a.order && x.slot == a.slot && x.kind == a.kind | none => false)

/-- The destination of an access is no longer pending once none of its other parts is under way (R155). -/
def Bank.unpendFor (b : Bank) (a : Acc) : Bank :=
  if b.accs.any (fun x => x.id != a.id && x.dest.isSome && x.dest == a.dest) then b else b.unpend a.dest

/-- The write of a delivered value. -/
def deliverWrite (r : Option Reg) (v : Word) : RegWrite :=
  match r with
  | some (.s i) => .s i v
  | some (.sh n) => .sh n v
  | _ => .none

/-- The write of a free value to the destination of an access that is given up (log 5). -/
def Acc.freeResult (a : Acc) (v : Nat) : RegWrite :=
  match a.kind with
  | .cdld n => .cdb n 0 (bytesOfNat 128 v)
  | _ => deliverWrite a.dest (BitVec.ofNat 64 v)

/-- Whether an operation delivers a value. -/
def AccKind.delivers : AccKind → Bool
  | .load _ | .atomic _ | .cdld _ | .fill | .deq | .deqt | .refill _ | .gcount | .lgwait _ => true
  | _ => false

/-- What a delivery brings (R309): the words of a descriptor, a half frame or an element, and the value for a register. -/
def Acc.wide (a : Acc) : Bool := match a.kind with | .cdld _ | .fill | .refill _ | .deqt => true | _ => false
def wordsOf (n v : Nat) : List Word := (List.range ((n + 7) / 8)).map (fun i => BitVec.ofNat 64 (bitsOf v (64 * i) 64))

/-- The clk that the strand's bundle has waited for a delivery that lets it go on (R309). -/
def Bank.waitedFor (b : Bank) (clk : Nat) (a : Acc) : Nat :=
  match b.wait with
  | some (.regs rs) =>
    if rs.any (fun r => some r == a.dest) && rs.all (fun r => some r == a.dest || !b.pend.contains r) then clk + 1 - b.since else 0
  | _ => 0

/-- The values that access `a` delivers, as a replay log has them or as they came: its register's and its wide one (R309, R310). -/
def State.deliveredBy (s : State) (c p : Nat) (a : Acc) (val : Nat) : State × Nat × Nat :=
  let wide := if a.kind = .deqt then a.data else val
  let narrow := (if a.dest.isSome && (!a.wide || a.kind == .deqt) then [BitVec.ofNat 64 val] else [])
  let len := (s.bank c p).waitedFor s.clk a
  let (s, n) := s.loggedWords c p len narrow
  let (s, w) := s.loggedWords c p (if narrow = [] then len else 0) (if a.wide then wordsOf a.size wide else [])
  (s, match n with | v :: _ => v.toNat | [] => val, natOfBytes (w.flatMap (fun v => bytesOfNat 8 v.toNat)))

/-- The value of access `a` reaches its bank, wherever that is: the register is written and its pending bit cleared; a log
takes it, a replay gives it (R309, R310). Uncorrectable bytes raise UE_CONSUMED at the next bundle, or fail a region (R86, R238);
the register then holds a free value (log 5). -/
def State.deliverValue (s : State) (c p : Nat) (a : Acc) : State :=
  let b := s.bank c p
  let inRegion := match b.spec with | some r => decide (r.order < a.order) | none => false
  let (s, v) : State × Nat :=
    if a.ue then (if inRegion then (s, 0) else ({ s with fresh := s.fresh + 16 }, s.freeNat 16)) else (s, a.val)
  let (s, v, w) := s.deliveredBy c p a v
  let s := match a.kind with
    | .deqt => s.modCore c fun x =>
        let x := x.healScratch a.aux ((bytesOfNat a.size w).map some)
        { x with scratch := mapSetList (fun _ => 0) x.scratch a.aux (bytesOfNat a.size w) }
    | _ => s
  s.modBank c p fun b =>
    let b := b.unpendFor a
    let b := match a.kind with
      | .cdld n => b.applyWrite (.cdb n a.aux (bytesOfNat a.size w)) a.order
      | .fill => b.putHalfFrame (a.aux / 2) (a.aux % 2) (bytesOfNat 64 w)
      | .refill n => b.qput n { b.qget n with full := true, elem := w, esize := a.size, held := false }
      | _ => b.applyWrite (deliverWrite a.dest (BitVec.ofNat 64 v)) a.order
    let t : Trap := { memTrap a.pa a.va with slot := a.slot }
    let b :=
      if a.ue = false then b
      else if inRegion then { b with spec := b.spec.map fun r => { r with failed := true } }
      else { b with async := if b.async.contains t then b.async else b.async ++ [t] }
    b

/-- Access `a` is delivered, and leaves its queue. Uncorrectable bytes of a window fill stop the fill (R81); where a replay has given the logged
value already, nothing is left to deliver (R310). -/
def State.deliver (s : State) (c p : Nat) (a : Acc) : State :=
  if a.given then s.modBank c p fun b => b.dropAcc a.id
  else if a.kind = .fill ∧ a.ue = true then s.modBank c p fun b => (b.dropAcc a.id).winFault [a.piece] (memTrap a.pa a.va)
  else (s.deliverValue c p a).modBank c p fun b => b.dropAcc a.id

/-- A replay delivers what its log has for the accesses of the strand, in issue order, up to the youngest whose register is among `rs`, without
waiting for memory (R310, log 70); latches are left to their queues. -/
def State.giveLogged (s : State) (c p : Nat) (rs : List Reg) : State :=
  let named (a : Acc) : Bool := rs.any (fun r => some r == a.dest)
  let mine := (s.bank c p).accs.filter (fun a => a.kind.delivers && !a.given && !a.kind.isRefill)
  let last : Nat := ((mine.filter named).map (fun a => a.id + 1)).foldl max 0
  (mine.filter (fun a => decide (a.id < last))).foldl (fun (s : State) (a : Acc) =>
    if (s.nextLogged c p 1 none).2.isNone then s
    else (s.deliverValue c p { a with ue := false }).modBank c p fun b => b.modAcc a.id fun x => { x with given := true }) s

/-- A value is not delivered before what stands earlier in the load queue has performed or failed: that queue is FIFO (R237, R350). -/
def Bank.mayDeliver (b : Bank) (a : Acc) : Bool :=
  !a.kind.loadClass || b.accs.all (fun x =>
    decide (a.id ≤ x.id) || !x.kind.loadClass || x.peer.isNone || x.st == .performed || x.st == .failed)

/-- INTERLOCKED_DELIVERY: operands core, pos, id. What arrives while the pipeline is frozen is delivered in the first clk after (R99). -/
def execInterlockedDelivery (s : State) : Host.Outcome State Fault Refusal :=
  let c := s.ev.core
  let p := s.ev.pos
  match (s.bank c p).acc? s.ev.id with
  | none => .next s
  | some a =>
    if a.st = .performed ∧ a.err.isNone ∧ a.kind.delivers = true ∧ (s.bank c p).mayDeliver a = true then
      .next (if s.isFrozen c then s.modBank c p fun b => b.modAcc a.id fun x => { x with arrived := true } else s.deliver c p a)
    else .next s

/-! ### TLBINV (R231, R247) -/

/-- The stores that a FENCE of the scope makes an invalidation wait for (R247), as (core, uid, id). -/
def State.invHeld (s : State) (pkg : Bool) : List (Nat × Nat × Nat) :=
  let b := s.bk
  let fs := b.accs.filter (fun f => f.kind == .fence && 2 ≤ f.ord && decide ((if pkg then 4 else 3) ≤ f.scope))
  (b.standing.filter (fun a => a.kind.storeClass && a.st != .performed && fs.any (fun f => decide (a.id < f.id)))).map
    (fun a => (s.cur.core, b.uid, a.id))

/-- Accesses still under way that were translated with an entry that goes (R231): in mode 0 those of the pages that the dropped entries, or
the 4 KiB page of `va`, cover. A queue or group operation that waits has reached its home cache. -/
def State.translatedWith (s : State) (die : Nat) (pkg : Bool) (mode ctx : Nat) (va : Addr) : List (Nat × Nat × Nat) :=
  let here := s.cores.filter (fun x => pkg || x.1 / 64 == die)
  let gone := (here.flatMap (fun x => x.2.tlb) ++ (s.dies.filter (fun x => pkg || x.1 == die)).flatMap (fun x => x.2.tlb)).filter
    (tlbNamed mode ctx va)
  let named (e : Bank) (a : Acc) : Bool :=
    mode == 2 || (e.ctx == ctx && (mode == 1 || a.va.toNat / 4096 == va.toNat / 4096 || gone.any (fun t => t.covers ctx a.va)))
  here.flatMap (fun x => x.2.banks.flatMap (fun e =>
    (e.2.standing.filter (fun a => a.isAccess && a.st != .performed && (a.st != .waiting || a.peer.isSome) && named e.2 a)).map
      (fun a => (x.1, e.2.uid, a.id))))

/-- TLBINV: entries are dropped; the strand blocks until nothing translated with them is under way. -/
def State.tlbinvBy (s : State) (g : Guard) (pkg : BitVec 1) (mode ctx : Nat) (va : Addr) : Host.Outcome State Fault Refusal :=
  let whole := pkg == 1
  s.guarded g (s.needPriv 0xA4 (s.forbid 0xA4 false true false
    (if s.invHeld whole != [] then .block (.accs (s.invHeld whole)) s
     else
       let waits := s.translatedWith (dieOf s.cur.core) whole mode ctx va
       let s := s.tlbinv (dieOf s.cur.core) whole mode ctx va
       .ok (if waits = [] then s else s.modBk fun b => { b with wait := some (.accs waits) }))))

/-- TLBINV_PAGE (R231) -/
def execTlbinvPage (g : Guard) (aa : BitVec 4) (b : BitVec 6) (pkg : BitVec 1) (s : State) : Host.Outcome State Fault Refusal :=
  s.tlbinvBy g pkg 0 ((s.sr b).toNat % 4096) (s.ar aa)
/-- TLBINV_CTX (R231) -/
def execTlbinvCtx (g : Guard) (b : BitVec 6) (pkg : BitVec 1) (s : State) : Host.Outcome State Fault Refusal :=
  s.tlbinvBy g pkg 1 ((s.sr b).toNat % 4096) 0
/-- TLBINV_ALL (R231) -/
def execTlbinvAll (g : Guard) (pkg : BitVec 1) (s : State) : Host.Outcome State Fault Refusal :=
  s.tlbinvBy g pkg 2 0 0
/-- ATS_INVALIDATE (R231): operands n (mode), ctx, va. -/
def execAtsInvalidate (s : State) : Host.Outcome State Fault Refusal := .next (s.tlbinv 0 true s.ev.n s.ev.ctx s.ev.va)

/-- What the end of a walk brings one access that waits for it (R229, R230, R232): its translation; a failure that the bundle meets when it
tries again; or, where the failure parks the strand, the entry of the fault queue that is to be written. -/
def State.walkEnds (s : State) (w : Walk) (a : WalkWait) : State × Option FaultEntry :=
  let b := s.uidBank a.core a.uid
  if b.wait ≠ some .walk then (s, none)
  else
    match s.lookup a.core w.ctx a.va (needOf a.kind a.size) a.user with
    | (s, .ok _) => (s.modUid a.core a.uid fun b => { b with wait := none }, none)
    | (s, .error t) =>
      if t.code = 0x10 ∧ 1 ≤ a.kind ∧ a.kind ≤ 4 ∧ a.soft = false then
        let s := s.modUid a.core a.uid fun b => { b with wait := some .park, walkErr := none }
        (s, ((s.core a.core).posOf a.uid).map (fun p => s.faultOf a.core p a.va a.kind { t with slot := a.slot } none))
      else (s.modUid a.core a.uid fun b => { b with wait := none, walkErr := some (a.kind, a.va, t) }, none)

/-- TRANSLATION_WALK_END (R230, R322): operands die, id. The 64 oldest walks run. Of several failed accesses the first gets its entry now, and
the others theirs one in each clk that follows. -/
def execTranslationWalkEnd (s : State) : Host.Outcome State Fault Refusal :=
  match ((s.die s.ev.die).walks.take 64).find? (fun w => w.id == s.ev.id) with
  | none => .next s
  | some w =>
    let s := s.modDie s.ev.die fun x => { x with walks := x.walks.filter (fun y => y.id != w.id) }
    let (s, es) := w.waits.foldl (fun (r : State × List FaultEntry) a =>
      let (s, e) := r.1.walkEnds w a
      (s, r.2 ++ e.toList)) (s, [])
    match es with
    | [] => .next s
    | e :: es => .next ((s.putFault e).modDie s.ev.die fun x => { x with faultWait := x.faultWait ++ es })

end Sys2Proof.Machine
end

