-- ==== Sys2Proof/Machine/Fabric.lean ====
section
/-!
DEFINITION. Peers and requests from outside (R331, R345-R354): responses, timeouts and fences, budgets, incoming requests, host requests.
-/

namespace Sys2Proof.Machine

/-! ### Responses (R348, R350) -/

/-- The value of a remote load with the bytes that own stores forward laid over it (R236). -/
def Acc.overlaid (a : Acc) (bs : List Byte) : List Byte := bs.mapIdx (fun i b => (a.fwd.getD i none).getD b)

/-- The kind of a refused access (R229). -/
def AccKind.permission (k : AccKind) : Nat := match k with | .atomic _ => 3 | .cdld _ => 4 | .store => 2 | _ => 1

/-- A peer that answers with an error: PERMISSION at the first bundle the strand attempts afterwards (R348); the destination takes a
free value (log 5). A load of an open region is deferred instead (R86). A window access raises WINDOW_SPILL_FAULT (R353). -/
def State.peerRefuses (s : State) (c p : Nat) (a : Acc) : State :=
  let v := s.freeNat 16
  let t : Trap := { code := 0x11, info := BitVec.ofNat 64 a.kind.permission, addr := a.va, slot := a.slot }
  match a.kind with
  | .spill | .fill => s.modBank c p fun b => (b.dropAcc a.id).winFault [a.piece] t
  | _ =>
    ({ s with fresh := s.fresh + 16 } : State).modBank c p fun b =>
      match b.deferPeer a with
      | some b => b.tidy
      | none =>
        let b := (b.unpendFor a).applyWrite (a.freeResult v) a.order
        { b.dropAcc a.id with async := if b.async.contains t then b.async else b.async ++ [t] }

/-- The answer to an access (R236, R348). -/
def State.answerAcc (s : State) (c p : Nat) (a : Acc) (bytes : List Byte) (error : Bool) : State :=
  if error then s.peerRefuses c p a
  else if a.kind.loadClass || a.dest.isSome then
    let bs := (List.range a.size).map (fun i => bytes.getD i 0)
    let bs := match a.kind with | .atomic _ => bs | _ => a.overlaid bs
    s.modBank c p fun b => (b.modAcc a.id fun y => { y with st := .performed, val := a.result bs }).tidy
  else s.modBank c p fun b => b.dropAcc a.id

/-- The address that a request of a copy was for, and the kind of access (R229). -/
def Copy.farAddr (y : Copy) (write : Bool) (tok : Nat) : Addr × Nat :=
  if write then
    let o := y.out.find? (fun o => match o.toks with | some l => l.contains tok | none => false)
    (BitVec.ofInt 80 ((o.map (fun o => (o.parts.headD (0, [])).1)).getD 0), 9)
  else (BitVec.ofNat 80 (((y.pieces.find? (fun q => q.tok == tok)).map (·.va)).getD 0), 8)

/-- The answer to a request of a copy: the bytes of a piece that it reads, or that write events have come about (R348). -/
def Copy.answered (y : Copy) (write : Bool) (tok : Nat) (bytes : List Byte) : Copy :=
  if write then
    let y : Copy := { y with out := y.out.map fun (o : OutPart) => { o with toks := o.toks.map (·.filter (· != tok)) } }
    (y.out.filter (fun (o : OutPart) => o.toks == some [])).foldl Copy.wrote y
  else { y with pieces := y.pieces.map fun q =>
    if q.tok = tok then { q with bytes := some ((List.range q.size).map (fun i => bytes.getD i 0)) } else q }

/-- A copy that runs takes the answer to a request of its own, or fails for its error (R158, R348; log 54). -/
def State.answerCopy (s : State) (c id : Nat) (write : Bool) (tok : Nat) (bytes : List Byte) (fail : Option Trap) : State :=
  match s.copyAt c id with
  | some (p, y) =>
    if y.st ≠ .started ∨ y.err.isSome = true then s
    else
      let (va, _) := y.farAddr write tok
      s.modCopy c p id fun y => match fail with
        | some t => { y with err := some { t with addr := va }, out := [] }
        | none => y.answered write tok bytes
  | none => s

/-- The answer to a request for a piece of code (R348). -/
def State.answerCode (s : State) (c uid tok : Nat) (bytes : List Byte) (fail : Option Trap) : State :=
  s.modUid c uid fun b => { b with far := b.far.map fun q =>
    if q.tok = tok then { q with bytes := some ((List.range 128).map (fun i => bytes.getD i 0)), err := fail } else q }

/-- What a request serves takes its answer, its error, or its failure at a fence (R348, R351-R353). -/
def State.answerUse (s : State) (c x : Nat) (use : PeerUse) (bytes : List Byte) (error fenced : Bool) : State :=
  let t (kind : Nat) : Option Trap :=
    if fenced then some { code := 0x1A, info := BitVec.ofNat 64 x } else if error then some { code := 0x11, info := BitVec.ofNat 64 kind } else none
  match use with
  | .access uid id =>
    match (s.core c).holderOf uid with
    | none => s
    | some p =>
      match (s.bank c p).acc? id with
      | none => s
      | some a => if fenced then s.fabricFail c p a else s.answerAcc c p a bytes error
  | .copyRead id tok => s.answerCopy c id false tok bytes (t 8)
  | .copyWrite id tok => s.answerCopy c id true tok bytes (t 9)
  | .code uid tok => s.answerCode c uid tok bytes (t 5)

/-- REMOTE_RESPONSE: operands n (the peer), id, flag (an error), bytes. A response to a request that is not outstanding, as after a
fence, is discarded (R351). -/
def execRemoteResponse (s : State) : Host.Outcome State Fault Refusal :=
  let e := s.peer s.ev.n
  match e.out.find? (fun o => o.id == s.ev.id) with
  | none => .next s
  | some o =>
    let s := s.setPeer s.ev.n { e with out := e.out.filter (fun x => x.id != o.id) }
    .next (s.answerUse o.core s.ev.n o.use s.ev.bytes s.ev.flag false)

/-- Whether what a held request serves still asks for it. -/
def State.useStands (s : State) (c : Nat) (use : PeerUse) : Bool :=
  match use with
  | .access uid id => match (s.core c).holderOf uid with | some p => ((s.bank c p).acc? id).isSome | none => false
  | .copyRead id _ | .copyWrite id _ => match s.copyAt c id with | some (_, y) => y.st == .started && y.err.isNone | none => false
  | .code uid tok => (s.uidBank c uid).far.any (fun q => q.tok == tok)

/-- PEER_BUDGET_RELEASE (R350, R351): operands die, n. The oldest request that the die holds for the peer is sent, or fails at a fenced peer. -/
def execPeerBudgetRelease (s : State) : Host.Outcome State Fault Refusal :=
  let d := s.ev.die
  let x := s.ev.n
  match (s.die d).holding.find? (fun h => h.peer == x) with
  | none => .next s
  | some h =>
    if (s.peer x).fenced = false ∧ (s.peer x).spent d = true then .next s
    else
      let s := s.modDie d fun y => { y with holding := y.holding.erase h }
      if (s.peer x).fenced then .next (s.answerUse h.core x h.use [] false true)
      else if s.useStands h.core h.use = false then .next s
      else
        let s := s.putRequest h.core x h.use h.req
        match h.use with
        | .access uid id =>
          match (s.core h.core).holderOf uid with
          | some p => match (s.bank h.core p).acc? id with
            | some a => .next (s.sentAcc h.core p a)
            | none => .next s
          | none => .next s
        | _ => .next s

/-! ### Fences (R351, R354) -/

/-- The peer is fenced: every request outstanding to it fails (R351). -/
def State.fence (s : State) (x : Nat) : State :=
  let e := s.peer x
  e.out.foldl (fun s o => s.answerUse o.core x o.use [] false true) (s.setPeer x { e with fenced := true, out := [] })

/-- PEER_TIMEOUT: operands n. A request that has had no response for 2 ms of fabric time. -/
def execPeerTimeout (s : State) : Host.Outcome State Fault Refusal :=
  if (s.peer s.ev.n).out.any (fun o => decide (o.ns + 2000000 ≤ (Config.fabricNs s.age).toNat)) then .next (s.fence s.ev.n)
  else .next s

/-- UNFENCE: operands n. -/
def execUnfence (s : State) : Host.Outcome State Fault Refusal :=
  s.fromHost (.next (s.modPeer s.ev.n fun e => { e with fenced := false }))

/-! ### Requests from outside (R331, R349) -/

/-- The OWNER of a line that a request from outside stores to is not stated; the model names context 0 and the request's world
(log 27). -/
def State.tagWorld (s : State) (pa n w : Nat) : State :=
  ((List.range (n / 128 + 2)).map (fun i => pa / 128 + i)).foldl (fun s line =>
    if 128 * line < pa + n then
      s.modDie (homeDie (128 * line)) fun d =>
        { d with cache := d.cache.map (fun e => if e.1 = line then (e.1, { e.2 with world := w }) else e) }
    else s) s

/-- A request of world `w`: the firewall of the home die is checked (R331), and the answer is the data read, or none for an error. The
MMIO block is for the host only (R225, R233), and no request writes a slab (R199). -/
def State.outside (s : State) (w : Nat) (host : Bool) (r : PeerReq) : State × Option Nat :=
  let last := r.pa + r.size - 1
  let denied (write : Bool) : Bool := (s.spanDeny w r.pa r.size write).isSome
  let writes := r.write || r.op.isSome
  let reads := !r.write || r.op.isSome
  if r.size = 0 ∨ 256 < r.size ∨ (writes && denied true) = true ∨ (reads && denied false) = true then (s, none)
  else if isMmio r.pa then
    if host = false ∨ r.op.isSome ∨ r.pa % 8 + r.size > 8 then (s, none)
    else if r.write then (s.mmioWrite r.pa r.size w r.data.toNat, some 0)
    else let (s, v) := s.mmioRead r.pa r.size; (s, some v)
  else if writes && (isSlab r.pa || isSlab last) then (s, none)
  else
    match r.op with
    | some op =>
      let (s, old, ue) := s.readNat 0 r.pa 8
      if r.size ≠ 8 ∨ r.pa % 8 ≠ 0 ∨ 7 < op ∨ ue = true then (s, none)
      else
        let new := atomicNew op (BitVec.ofNat 64 old) (r.data.setWidth 64) r.cmp
        ((s.writePhys 0 r.pa (bytesOfNat 8 new.toNat)).tagWorld r.pa 8 w, some old)
    | none =>
      if r.write then ((s.writePhys 0 r.pa (bytesOfNat r.size r.data.toNat)).tagWorld r.pa r.size w, some 0)
      else
        let (s, v, ue) := s.readNat 0 r.pa r.size
        (s, if ue then none else some v)

/-- INCOMING_PEER_REQUEST: operands n (the peer), req. It comes through a port of an I/O die that has been released
(R1), and comes about once no refresh holds it (R212). -/
def execIncomingPeerRequest (s : State) : Host.Outcome State Fault Refusal :=
  let x := s.ev.n
  let e := s.peer x
  let bad (s : State) : State := (s.modWorld 0 fun w => { w with peerbad := true }).send (.answer x false 0)
  if (s.ioUp 0 || s.ioUp 1) = false ∨ s.refreshing s.ev.req.pa = true then .next s
  else if e.ports = 0 then .next (bad s)
  else
    match s.outside e.world false s.ev.req with
    | (s, none) => .next (bad s)
    | (s, some v) => .next (s.send (.answer x true v))

/-- HOST_REQUEST: operands w, req. It comes through I/O die 0 (R1; log 73), and comes about once no refresh holds it (R212). -/
def execHostRequest (s : State) : Host.Outcome State Fault Refusal :=
  if s.ioUp 0 = false ∨ s.refreshing s.ev.req.pa = true then .next s
  else match s.outside s.ev.w true s.ev.req with
  | (s, none) => .next (s.send (.host s.ev.w false 0))
  | (s, some v) => .next (s.send (.host s.ev.w true v))

/-- UNSUPPORTED_UALINK_MESSAGE (R345): operands n. The ports stand on the I/O dies, so nothing answers while both are in reset (R1). -/
def execUnsupportedUalinkMessage (s : State) : Host.Outcome State Fault Refusal :=
  .next (if s.ioUp 0 || s.ioUp 1 then s.send (.unsupported s.ev.n) else s)

end Sys2Proof.Machine
end

