-- ==== Sys2Proof/Machine/Matrix.lean ====
section
/-!
DEFINITION. The matrix array (R176-R194): operand slots, the M queue, the lease, MMA, MREP and OFILL.
-/

namespace Sys2Proof.Machine

/-! ### Reading operand slots (R177, R178) -/

/-- K of a format (R176). -/
def mmaK (fmt : Nat) : Nat := if fmt = 13 then 512 else if fmt = 9 then 128 else 256

/-- The payload byte at which logical byte `x` of a slot with layout `lay` stands (R178). -/
def swizzled (lay x : Nat) : Nat :=
  if lay = 0 then x
  else
    let span := 2 ^ (lay + 3)
    let w := max span 256
    let seg := x % w / span
    w * (x / w) + span * seg + 16 * ((x % span / 16) ^^^ (x / w % (span / 16))) + x % 16

/-- Bytes 16·i of the sidecar that hold the exponents of a line. -/
def sideBytes (fmt : Nat) : Nat := if fmt = 12 then 16 else if fmt = 13 then 32 else 0

/-- The slot bytes that line `l` is read from: payload, then sidecar. -/
def lineBytes (fmt lay l : Nat) : List Nat :=
  (List.range 256).map (fun j => swizzled lay (256 * l + j)) ++ (List.range (sideBytes fmt)).map (fun j => 32768 + sideBytes fmt * l + j)

/-- The elements of a line, from its bytes (R178, R115). -/
def lineVals (fmt : Nat) (bs : List Byte) : List FVal :=
  let pl := bs.take 256
  (elemsOfBytes fmt pl).mapIdx (fun k x =>
    if fmt = 12 ∨ fmt = 13 then
      dxRead (if fmt = 12 then 8 else 4) x (bs.getD (256 + 2 * (k / 32)) 0).toNat (bs.getD (257 + 2 * (k / 32)) 0).toNat
    else (fmtOf fmt).read x)
/-- Whether a DX exponent byte of the line is 0xFF (R193). -/
def lineNanb (bs : List Byte) : Bool := (bs.drop 256).any (fun b => b == 0xFF)

/-- A byte of a slot as an MMA sees it: a copy or an OFILL that is writing the slot writes each chunk in one clk (R177). -/
def State.slotByte (s : State) (c o off : Nat) : Byte := mapGet (fun _ => 0) ((s.cluster (clusterOf c)).slot o).bytes off

/-- The first uncorrectable word among bytes of a slot (R189). -/
def Cluster.slotBad (k : Cluster) (o : Nat) (offs : List Nat) : Option Nat :=
  offs.find? (fun off => k.bad.any (fun l => match l with
    | .operand _ w => w / 65536 == o && w % 65536 / 8 == off / 8
    | _ => false))

/-! ### The array (R121, R122, R188) -/

/-- What an output element gives: its bits, IV events, whether it counts as OF, whether its gain underflowed. -/
structure MOut where
  val : Nat
  iv : Nat
  ovf : Bool
  auf : Bool
  deriving DecidableEq, Repr

/-- A group of 32 products (R121, R122): its rounded sum and its IV events. -/
def groupSum (xs ys : List FVal) : Nat × Nat :=
  let ps := List.zipWith fMul xs ys
  let iv := (ps.filter (fun p => p.2 != 0)).length
  let pos := ps.any (fun p => p.1 == .inf false)
  let neg := ps.any (fun p => p.1 == .inf true)
  let both := pos && neg
  if both || ps.any (fun p => p.1.isNan) then (F32.nan, iv + both.toNat)
  else if pos then (F32.inf false, iv)
  else if neg then (F32.inf true, iv)
  else
    match ps.map (·.1) with
    | [] => (0, 0)
    | p :: ps => ((roundF32 (ps.foldl (fun a b => (fAdd 0 a b).1) p)).1, iv)

/-- The groups of a row and a column, `n` of them. -/
def groupSums : Nat → List FVal → List FVal → List (Nat × Nat)
  | 0, _, _ => []
  | n + 1, xs, ys => groupSum (xs.take 32) (ys.take 32) :: groupSums n (xs.drop 32) (ys.drop 32)

def FVal.isFin : FVal → Bool
  | .fin _ _ _ _ => true
  | _ => false
def f32Fin (v : Nat) : Bool := (F32.read v).isFin
def f32Inf (v : Nat) : Bool := match F32.read v with | .inf _ => true | _ => false

/-- An output element (R121): ACC 0 ADD, 1 SET, 2 AFF; `cin` the accumulator element. -/
def mmaElem (acc gamma cin : Nat) (xs ys : List FVal) : MOut :=
  let gs := groupSums (xs.length / 32) xs ys
  let (p, iv) := gs.foldl (fun (a : Nat × Nat) g =>
    let r := deliver F32 0 false (fAdd 0 (F32.read a.1) (F32.read g.1))
    (r.1, a.2 + g.2 + (r.2.getLsbD 0).toNat)) (if acc = 0 then cin else 0, 0)
  let fin := xs.all (·.isFin) && ys.all (·.isFin)
  if acc = 2 then
    let g := gainMul gamma (cin % 2 ^ 32)
    let b := fma32 gamma (cin / 2 ^ 32) p
    { val := g.1 + b.1 * 2 ^ 32, iv := iv + (g.2.getLsbD 0).toNat + (b.2.getLsbD 0).toNat,
      ovf := fin && f32Fin gamma && f32Fin (cin % 2 ^ 32) && f32Fin (cin / 2 ^ 32) && (f32Inf g.1 || f32Inf b.1),
      auf := g.2.getLsbD 5 }
  else { val := p, iv := iv, ovf := fin && (acc == 1 || f32Fin cin) && f32Inf p, auf := false }

/-! ### Issue (R180, R183, R187) -/

/-- The slots that an M command names, in order OA, OB: OSLOT for the first that is not claimed (R180). -/
def State.slotTrap (s : State) (os : List Nat) : Option Trap :=
  (os.find? (fun o => !s.claimed o s.cur.core s.bk.ctx)).map oslotTrap

/-- MSPAN.SPAN and MGAMMA.GAMMA (R189). -/
def Bank.mspan (b : Bank) : Nat := fieldOf (b.csrAt 0x039) 0 8
def Bank.mgamma (b : Bank) : BitVec 32 := (b.csrAt 0x038).setWidth 32

/-- Checks 2 to 6 of R187. -/
def State.mmaTrap (s : State) (f : MmaFields) : Option Trap :=
  let b := s.bk
  let w := b.tshape f.td
  if b.tileOk f.td = false then some (rangeTrap 1 f.td)
  else match [f.ws, f.ss].find? (fun n => !b.semOk n) with
    | some n => some (rangeTrap 2 n)
    | none =>
      if shValid w = false then some (causeTrap 0x07 (BitVec.ofNat 64 f.td))
      else if shFmt w ≠ (if f.acc = 2 then 0xB else 0xA) then some (shapeTrap f.td w)
      else match s.slotTrap [f.oa, f.ob] with
        | some t => some t
        | none =>
          ([f.oa, f.ob].find? (fun o => ((s.cluster (clusterOf s.cur.core)).slot o).layout != b.mspan)).map (fun o =>
            causeTrap 0x0D (BitVec.ofNat 64 (o + ((s.cluster (clusterOf s.cur.core)).slot o).layout * 256 + b.mspan * 65536)))

/-- An entry of the M queue, with what R183, R187 snapshot at issue. -/
def State.newM (s : State) (op : MOp) (ws wt ss : Nat) (tds : List Nat) : MCmd :=
  let b := s.bk
  { id := s.cr.nextId, uid := b.uid, ctx := b.ctx, op := op, ws := b.semPhys ws, wt := wt, ss := b.semPhys ss,
    shapes := tds.map b.tshape, gamma := b.mgamma, layA := b.mspan, layB := b.mspan, efence := b.efenced, order := s.order }

def MOp.isArray : MOp → Bool
  | .mma _ | .mrep _ => true
  | _ => false
/-- A request for the lease, where the core neither holds it nor has one pending (R184). -/
def Cluster.requestLease (k : Cluster) (c ctx : Nat) (sig : Option (Nat × Nat)) : Cluster :=
  if k.lease.holder = some c ∨ k.lease.reqs.contains c = true then k
  else { k with lease := { k.lease with reqs := k.lease.reqs ++ [c], reqCtx := k.lease.reqCtx ++ [(c, ctx)],
                                        sigs := k.lease.sigs ++ (match sig with | some (n, u) => [(c, n, u)] | none => []) } }

/-- An array command at the head of its queue asks for the lease, whatever else it waits for (R184). -/
def State.headAsks (s : State) (c : Nat) : State :=
  match (s.core c).mq with
  | m :: _ => if m.op.isArray then s.modCluster (clusterOf c) fun k => k.requestLease c m.ctx none else s
  | [] => s

/-- Join the M queue; a full one blocks the bundle (R183). A command that finds it empty and waits for nothing is tried in this
clk. -/
def State.enqueueM (s : State) (m : MCmd) : Try :=
  if 16 ≤ s.cr.mq.length then .block .mqueue s
  else
    let first := s.cr.mq.isEmpty && m.ws == 0
    let s := (s.modCr fun x => { x with mq := x.mq ++ [m], nextId := x.nextId + 1 }).headAsks s.cur.core
    .ok (if first then
      { s with agenda := s.agenda ++ [((match m.op with | .orelease _ => .oreleaseEffect | .unlease => .unleaseEffect | _ => .mQueueStart),
          { core := s.cur.core })] }
      else s)

/-- MMA (R187) -/
def execMma (t : BitVec 4) (oa ob : BitVec 6) (fmt : BitVec 4) (acc : BitVec 2) (ws : BitVec 8) (wt : BitVec 4) (ss : BitVec 8)
    (s : State) : Host.Outcome State Fault Refusal :=
  let f : MmaFields := ⟨t.toNat, oa.toNat, ob.toNat, fmt.toNat, acc.toNat, ws.toNat, wt.toNat, ss.toNat⟩
  s.engineSlot 0x01 (match s.mmaTrap f with
    | some tr => .trap tr
    | none =>
      match s.enqueueM (s.newM (.mma f) f.ws f.wt f.ss [f.td]) with
      | .ok s => .ok (s.modBk fun b => { b with mrep := some f })
      | r => r)

/-- The commands of an MREP of `n` repeats (R191). -/
def mrepCommands (f : MmaFields) (n : Nat) (sa sb st : Bool) : List MmaFields :=
  (List.range n).map (fun i =>
    let j := i + 1
    { f with oa := f.oa + j * sa.toNat, ob := f.ob + j * sb.toNat, td := f.td + j * st.toNat,
             acc := if st = false ∧ f.acc = 1 then 0 else f.acc })

/-- MREP (R191) -/
def execMrep (n : BitVec 6) (sa sb st : Bool) (s : State) : Host.Outcome State Fault Refusal :=
  s.engineSlot 0x07 (match s.bk.mrep with
    | none => .trap (illegal 0x07)
    | some f =>
      let cmds := mrepCommands f (n.toNat + 1) sa sb st
      if cmds.any (fun k => decide (63 < k.oa) || decide (63 < k.ob) || decide (15 < k.td)) then .trap (illegal 0x07)
      else match cmds.findSome? s.mmaTrap with
        | some tr => .trap tr
        | none => s.enqueueM (s.newM (.mrep cmds) f.ws f.wt f.ss (cmds.map (·.td))))

/-- The other cores of a cluster with a request pending (R185). -/
def Cluster.others (k : Cluster) (c : Nat) : List Nat := k.lease.reqs.filter (fun r => r != c)

/-- LEASE (R184) -/
def execLease (ss : BitVec 8) (s : State) : Host.Outcome State Fault Refusal :=
  s.engineSlot 0x02 (s.semNeed [ss.toNat]
    (.ok (s.modCluster (clusterOf s.cur.core) fun k => k.requestLease s.cur.core s.bk.ctx (some (s.bk.semPhys ss.toNat, s.bk.uid)))))

/-- UNLEASE (R184) -/
def execUnlease (s : State) : Host.Outcome State Fault Refusal :=
  s.engineSlot 0x03 (s.enqueueM (s.newM .unlease 0 0 0 []))

/-- OCLAIM (R179) -/
def execOclaim (oa : BitVec 6) (s : State) : Host.Outcome State Fault Refusal :=
  let o := oa.toNat
  let x := (s.cluster (clusterOf s.cur.core)).slot o
  let me := (s.cur.core, s.bk.ctx)
  s.engineSlot 0x04 (match x.claim with
    | some m => if m = me then .ok s else .trap (oslotTrap o)
    | none =>
      .ok (s.modCluster (clusterOf s.cur.core) fun k =>
        let dirty := x.tag.any (fun t => t != s.bk.ctx)
        let k := if dirty then k.zeroSlot o else k
        let y := k.slot o
        k.setSlot o { y with claim := some me, since := s.clk + 1, tag := some s.bk.ctx,
                             zeroing := if dirty then some (s.clk + 143) else y.zeroing }))

/-- ORELEASE (R181) -/
def execOrelease (oa : BitVec 6) (s : State) : Host.Outcome State Fault Refusal :=
  s.engineSlot 0x05 (match s.slotTrap [oa.toNat] with
    | some t => .trap t
    | none => s.enqueueM (s.newM (.orelease oa.toNat) 0 0 0 []))

/-- OFILL (R182); the layout byte of OB changes at issue. -/
def execOfill (ob oa : BitVec 6) (ws : BitVec 8) (wt : BitVec 4) (ss : BitVec 8) (s : State) : Host.Outcome State Fault Refusal :=
  s.engineSlot 0x06 (s.semNeed [ws.toNat, ss.toNat]
    (match s.slotTrap [oa.toNat, ob.toNat] with
     | some t => .trap t
     | none =>
       match s.enqueueM (s.newM (.ofill ob.toNat oa.toNat) ws.toNat wt.toNat ss.toNat []) with
       | .ok s => .ok (s.modCluster (clusterOf s.cur.core) fun k =>
           k.setSlot ob.toNat { k.slot ob.toNat with layout := if ob = oa then 0 else (k.slot oa.toNat).layout })
       | r => r))

/-! ### The head of the M queue (R183, R186) -/

/-- The MMA that the head starts next. -/
def MCmd.nextMma (m : MCmd) : Option MmaFields :=
  match m.op with
  | .mma f => some f
  | .mrep (f :: _) => some f
  | _ => none
/-- What stays of a head entry once its next MMA has started. -/
def MCmd.rest (m : MCmd) : List MCmd :=
  match m.op with
  | .mrep (_ :: f :: fs) => [{ m with op := .mrep (f :: fs), shapes := m.shapes.drop 1 }]
  | _ => []

/-- Whether the core may start an array command now (R185, R186). -/
def State.arrayFree (s : State) (c : Nat) : Bool :=
  let k := s.cluster (clusterOf c)
  let l := k.lease
  l.holder == some c && !l.ended && decide (l.lastStart + l.lastRows ≤ s.clk)
    && (k.others c == [] || (decide (l.cmds < 64) && decide (s.clk < l.start + 8192)))

/-- None of the slots is being zeroed (R179). -/
def State.slotsOpen (s : State) (c : Nat) (os : List Nat) : Bool :=
  os.all (fun o => ((s.cluster (clusterOf c)).slot o).zeroing.isNone)

/-- The head's EFENCE is behind it (R252), and its bundle is not being replayed (R99). -/
def State.headFree (s : State) (c : Nat) (m : MCmd) : Bool := (s.uidBank c m.uid).fenceOpen m.efence && !s.replayHeld c m.order

/-- An array command starts: its wait is taken, B is loaded, the array is occupied (R186). -/
def State.startMma (s : State) (c : Nat) (m : MCmd) (f : MmaFields) : State :=
  let w := m.shapes.headD 0
  let s := s.modCore c fun x =>
    let x := x.takeSem m.ws m.wt
    { x with mq := m.rest ++ x.mq.drop 1, nextId := x.nextId + 1,
             mrun := x.mrun ++ [{ m with id := x.nextId, op := .mma f, shapes := [w], start := some s.clk,
                                         loaded := ((s.cluster (clusterOf c)).slot f.ob).bytes }] }
  (s.modCluster (clusterOf c) fun k =>
    { k with lease := { k.lease with lastStart := s.clk, lastRows := shRows w, cmds := k.lease.cmds + 1,
                                     busyTo := max k.lease.busyTo (s.clk + 11 + shRows w) } }).headAsks c

/-- M_QUEUE_START: operands core. -/
def execMQueueStart (s : State) : Host.Outcome State Fault Refusal :=
  let c := s.ev.core
  match (s.core c).mq with
  | [] => .next s
  | m :: _ =>
    let s := s.headAsks c
    if s.headFree c m = false then .next s
    else match m.op with
      | .ofill ob oa =>
        if s.slotsOpen c [oa, ob] && (s.core c).semReady m.ws m.wt then
          .next ((s.modCore c fun x =>
            let x := x.takeSem m.ws m.wt
            { x with mq := x.mq.drop 1, mrun := x.mrun ++ [{ m with start := some s.clk }] }).headAsks c)
        else .next s
      | .orelease _ | .unlease => .next s
      | _ =>
        match m.nextMma with
        | none => .next s
        | some f =>
          let fr := shFrame (m.shapes.headD 0)
          if s.arrayFree c && s.slotsOpen c [f.oa, f.ob] && (s.core c).semReady m.ws m.wt then
            if (s.core c).mayUse fr m.ctx then .next (s.startMma c m f)
            else if (s.core c).owns fr m.ctx || (s.core c).mrun.any (fun r => r.shapes.any (fun w => shFrame w == fr)) then .next s
            else .next (s.askFrame c m.ctx fr)
          else .next s

/-- ORELEASE_EFFECT (R181): operands core. -/
def execOreleaseEffect (s : State) : Host.Outcome State Fault Refusal :=
  let c := s.ev.core
  match (s.core c).mq with
  | m :: _ =>
    match m.op with
    | .orelease o =>
      let used := (s.core c).mrun.any (fun r => match r.op with
        | .mma f => f.oa == o || f.ob == o
        | .ofill ob oa => ob == o || oa == o
        | _ => false)
      let copied := (s.core c).banks.any (fun e => e.2.copies.any (fun y =>
        let d := Desc.parse y.desc; y.st != .written && decide (d.dstk = 2) && d.dst % 64 == o))
      if s.headFree c m && !used && !copied then
        .next (((s.modCore c fun x => { x with mq := x.mq.drop 1 }).modCluster (clusterOf c) fun k =>
          k.setSlot o { k.slot o with claim := none }).headAsks c)
      else .next s
    | _ => .next s
  | [] => .next s

/-- UNLEASE_EFFECT (R184): operands core. -/
def execUnleaseEffect (s : State) : Host.Outcome State Fault Refusal :=
  let c := s.ev.core
  match (s.core c).mq with
  | m :: _ =>
    if m.op = .unlease ∧ s.headFree c m = true then
      .next (((s.modCore c fun x => { x with mq := x.mq.drop 1 }).modCluster (clusterOf c) fun k =>
        { k with lease := { k.lease.withdraw c with
                                         ended := k.lease.ended || k.lease.holder == some c } }).headAsks c)
    else .next s
  | [] => .next s

/-! ### Running commands (R186, R188, R189) -/

/-- The counts of a command into its issuing strand (R194); those of a task that rolled back are discarded (R300). -/
def State.mergeCounts (s : State) (c : Nat) (m : MCmd) : State :=
  let n := (m.auf, m.nanb.toNat, m.ofc, m.iv)
  let s := s.modUid c m.uid fun b => b.addMx n
  match (s.core c).posOf m.uid with
  | some p => s.saveMerged c p
  | none => s

/-- Row `r` of a frame takes its bytes at the end of this clk; an earlier-issued result that lands in the same clk is overwritten
(R16, R164, R186). -/
def Landing.under (l : Landing) (clk order off n : Nat) : Landing :=
  match l.write with
  | .frame o v =>
    if l.due ≤ clk ∧ l.order < order then
      { l with write := .frame o (v.mapIdx (fun i b => if off ≤ o + i ∧ o + i < off + n then none else b)) }
    else l
  | _ => l

/-- B as it stands in the load of clk s to s + 11: each chunk is read in one of those clk, by a free choice (R177, R186). -/
def State.loadB (s : State) (c : Nat) (m : MCmd) (f : MmaFields) (cols : Nat) : SMap Byte :=
  ((List.range cols).flatMap (fun l => lineBytes f.fmt m.layB l)).foldl (fun acc off =>
    mapSet (fun _ => 0) acc off
      (if Config.chooses (s.fresh + 80000 + off / 16) then mapGet (fun _ => 0) m.loaded off else s.slotByte c f.ob off)) []

/-- The clk of a command that has started (R189): B is loaded in the 11 clk after its start; an uncorrectable word of it stops the command. -/
def State.loadStep (s : State) (c : Nat) (m : MCmd) (f : MmaFields) (st cols : Nat) : MCmd :=
  let b := s.loadB c m f cols
  let bad := (s.cluster (clusterOf c)).slotBad f.ob ((List.range cols).flatMap (fun l => lineBytes f.fmt m.layB l))
  { m with loaded := b, stop := if st + 11 ≤ s.clk then bad.map (fun o => 65536 * f.ob + 8 * (o / 8)) else none,
           nanb := decide (st + 11 ≤ s.clk) && (List.range cols).any (fun l => lineNanb ((lineBytes f.fmt m.layB l).map (fun o => mapGet (fun _ => 0) b o))) }

/-- The output row from line `r` of A (R188). -/
def State.mmaRow (s : State) (c : Nat) (m : MCmd) (f : MmaFields) (w : Word) (a : List Byte) : List MOut :=
  let xs := lineVals f.fmt a
  (List.range (shCols w)).map (fun col =>
    let b := (lineBytes f.fmt m.layB col).map (fun off => mapGet (fun _ => 0) m.loaded off)
    let off := 65536 * shFrame w + (m.row * shCols w + col) * shSize w
    mmaElem f.acc m.gamma.toNat (natOfBytes ((s.core c).accumBytes off (shSize w))) xs (lineVals f.fmt b))

/-- A command of the core takes the value `m`. -/
def State.setRun (s : State) (c : Nat) (m : MCmd) : State :=
  s.modCore c fun x => { x with mrun := x.mrun.map (fun r => if r.id = m.id then m else r) }

/-- MMA_ROW_STREAM: operands core, id. A clk of a started command: B is loaded, and from clk s + 12 on a row of A is streamed (R186). -/
def execMmaRowStream (s : State) : Host.Outcome State Fault Refusal :=
  let c := s.ev.core
  match (s.core c).mrun.find? (fun m => m.id == s.ev.id) with
  | none => .next s
  | some m =>
    match m.op, m.start with
    | .mma f, some st =>
      let w := m.shapes.headD 0
      if s.clk = st then .next (s.setRun c { m with loaded := ((s.cluster (clusterOf c)).slot f.ob).bytes })
      else if s.clk < st ∨ shRows w ≤ m.row ∨ m.stop.isSome then .next s
      else if s.clk < st + 12 then .next (({ s with fresh := s.fresh + 200000 } : State).setRun c (s.loadStep c m f st (shCols w)))
      else if s.clk < st + 12 + m.row then .next s
      else
        let aOffs := lineBytes f.fmt m.layA m.row
        match (s.cluster (clusterOf c)).slotBad f.oa aOffs with
        | some o => .next (s.setRun c { m with stop := some (65536 * f.oa + 8 * (o / 8)) })
        | none =>
          let a := aOffs.map (fun off => s.slotByte c f.oa off)
          let out := s.mmaRow c m f w a
          let off := 65536 * shFrame w + m.row * shCols w * shSize w
          let bytes := out.flatMap (fun o => bytesOfNat (shSize w) o.val)
          let m' := { m with row := m.row + 1, nanb := m.nanb || lineNanb a,
                             auf := m.auf + (out.filter (·.auf)).length, ofc := m.ofc + (out.filter (·.ovf)).length,
                             iv := m.iv + (out.map (·.iv)).sum }
          .next ((s.modCore c fun x =>
            let x := x.healAccum off (bytes.map some)
            { x with accum := mapSetList (fun _ => 0) x.accum off bytes, frameDirty := (shFrame w :: x.frameDirty).eraseDups,
                     banks := x.banks.map (fun e =>
                       (e.1, { e.2 with flight := e.2.flight.map (fun l => l.under s.clk m.order off bytes.length) })) }).setRun c m')
    | _, _ => .next s

/-- A command leaves the core: SS is signalled. -/
def State.endM (s : State) (c : Nat) (m : MCmd) : State :=
  (s.modCore c fun x => { (x.signal m.ss 1 m.uid) with mrun := x.mrun.filter (fun r => r.id != m.id) }).dropIdle c

/-- A command that an uncorrectable operand word has stopped leaves the core (R189): its counts are merged, SS is not signalled, and the strand
takes UE_CONSUMED. -/
def State.failMma (s : State) (c : Nat) (m : MCmd) (addr : Nat) : State :=
  let s := s.mergeCounts c m
  let s := s.modUid c m.uid fun b => { b with async := b.async ++ [{ code := 0x18, info := 5, addr := BitVec.ofNat 80 addr, slot := 4 }] }
  (s.modCore c fun x => { x with mrun := x.mrun.filter (fun r => r.id != m.id) }).dropIdle c

/-- MMA_COMPLETE: operands core, id. The end of a command at the end of clk s + 11 + ROWS, or of the clk in which it stopped. -/
def execMmaComplete (s : State) : Host.Outcome State Fault Refusal :=
  let c := s.ev.core
  match (s.core c).mrun.find? (fun m => m.id == s.ev.id) with
  | none => .next s
  | some m =>
    match m.op, m.start, m.stop with
    | .mma _, some _, some addr => .next (s.failMma c m addr)
    | .mma _, some st, none =>
      let w := m.shapes.headD 0
      if shRows w ≤ m.row ∧ st + 11 + shRows w ≤ s.clk then .next ((s.mergeCounts c m).endM c m) else .next s
    | _, _, _ => .next s

/-- Chunks of slot `ob` take those of `oa`, or zero bytes where the two are one slot (R182); an uncorrectable word is copied as such. -/
def Cluster.fillChunks (k : Cluster) (ob oa : Nat) (p : Nat → Bool) : Cluster :=
  let src : SMap Byte := if oa = ob then [] else (k.slot oa).bytes.filter (fun e => p (e.1 / 16))
  let mine (w : Nat) : Bool := w / 65536 == ob && p (w % 65536 / 16)
  let marks : List ErrLoc := k.bad.filterMap (fun (l : ErrLoc) => match l with
    | .operand cl w => if w / 65536 = oa ∧ oa ≠ ob ∧ p (w % 65536 / 16) = true then some (ErrLoc.operand cl (65536 * ob + w % 65536)) else none
    | _ => none)
  let k := { k with bad := (k.bad.filter (fun (l : ErrLoc) => match l with | .operand _ w => !mine w | _ => true)) ++ marks }
  let x := k.slot ob
  k.setSlot ob { x with bytes := src.foldl (fun m e => mapSet (fun _ => 0) m e.1 e.2) (x.bytes.filter (fun e => !p (e.1 / 16))) }

/-- OFILL_COMPLETE (R182): operands core, id. A clk of a started OFILL: it writes a free choice of its 2,304 chunks, and at the end of clk s + 143
the rest (R251); then it completes. -/
def execOfillComplete (s : State) : Host.Outcome State Fault Refusal :=
  let c := s.ev.core
  match (s.core c).mrun.find? (fun m => m.id == s.ev.id) with
  | none => .next s
  | some m =>
    match m.op, m.start with
    | .ofill ob oa, some st =>
      if s.clk < st then .next s
      else
      let last := decide (st + 143 ≤ s.clk)
      let now := (List.range 2304).filter (fun i => !m.filled.contains i && (last || Config.chooses (s.fresh + i)))
      let s' := ({ s with fresh := s.fresh + 2304 } : State).modCluster (clusterOf c) fun k =>
        k.fillChunks ob oa (if last then fun i => !m.filled.contains i else now.contains)
      if last then .next (s'.endM c m) else .next (s'.setRun c { m with filled := m.filled ++ now })
    | _, _ => .next s

/-- SLOT_ZEROING_DONE (R179): operands cl, n. -/
def execSlotZeroingDone (s : State) : Host.Outcome State Fault Refusal :=
  match ((s.cluster s.ev.cl).slot s.ev.n).zeroing with
  | some due => if due < s.clk then .next (s.modCluster s.ev.cl fun k => k.setSlot s.ev.n { k.slot s.ev.n with zeroing := none }) else .next s
  | none => .next s

/-! ### The lease (R184, R185) -/

/-- The lease goes to core `c`, and its signals are raised; its quantum counts from clk `start` on. -/
def State.grantLease (s : State) (k c start : Nat) : State :=
  let l := (s.cluster k).lease
  let s := s.modCluster k fun x =>
    { x with lease := { l.withdraw c with holder := some c, start := start, cmds := 0, ended := false, lastStart := l.busyTo + 1, lastRows := 0 } }
  (l.sigs.filter (fun g => g.1 == c)).foldl (fun s g => s.modCore c fun x => x.signal g.2.1 1 g.2.2) s

/-- LEASE_GRANT: a request is granted while no core holds the lease; operands cl, core. -/
def execLeaseGrant (s : State) : Host.Outcome State Fault Refusal :=
  let l := (s.cluster s.ev.cl).lease
  if l.holder.isNone ∧ l.reqs.contains s.ev.core = true then .next (s.grantLease s.ev.cl s.ev.core s.clk) else .next s

/-- Whether a core has an array command queued, or started and not complete. -/
def Core.arrayQueued (x : Core) : Bool := x.mq.any (fun m => m.op.isArray)
def Core.arrayRuns (x : Core) : Bool := x.mrun.any (fun m => m.op.isArray)

/-- The next requesting core in the order 0, 1, 2, 3, 0 after the holder (R185). -/
def Cluster.nextCore (x : Cluster) (k h : Nat) : Option Nat :=
  ([1, 2, 3, 4].map (fun i => 4 * k + (h % 4 + i) % 4)).find? (fun c => x.lease.reqs.contains c)

/-- LEASE_PASS: operands cl. Without another request the holder keeps the lease and a new quantum starts. -/
def execLeasePass (s : State) : Host.Outcome State Fault Refusal :=
  let x := s.cluster s.ev.cl
  match x.lease.holder with
  | none => .next s
  | some h =>
    if (s.core h).arrayRuns || !(x.lease.ended || !(s.core h).arrayQueued) then .next s
    else match x.nextCore s.ev.cl h with
      | some c => if c = h then .next s else .next (s.grantLease s.ev.cl c (s.clk + 1))
      | none =>
        if x.lease.ended then
          .next (s.modCluster s.ev.cl fun x => { x with lease := { x.lease with ended := false, start := s.clk + 1, cmds := 0 } })
        else .next s

/-- QUANTUM_EXPIRE (R185): operands cl. The quantum ends with the last of its 8,192 clk, or with its 64th command. -/
def execQuantumExpire (s : State) : Host.Outcome State Fault Refusal :=
  let x := s.cluster s.ev.cl
  match x.lease.holder with
  | none => .next s
  | some h =>
    if x.lease.cmds < 64 ∧ s.clk + 1 < x.lease.start + 8192 then .next s
    else if x.others h = [] then
      .next (s.modCluster s.ev.cl fun x => { x with lease := { x.lease with start := s.clk + 1, cmds := 0 } })
    else .next (s.modCluster s.ev.cl fun x => { x with lease := { x.lease with ended := true } })

end Sys2Proof.Machine
end

