-- ==== Sys2Proof/WellFormed.lean ====
section
/-!
DEFINITION. `Instr.wf`: the operand rules that a slot instruction's encoding must meet (a form that breaks one raises
ILLEGAL_OPCODE, R9, R60, R123); `EvArgs.wf`: the ranges of the names that an event carries.
-/

namespace Sys2Proof

open Machine

/-- The well-formed instructions; an event has no field. -/
def Instr.wf (i : Instr) : Bool :=
  match i with
  | .pset _ _ n => n.toNat ≤ 256
  | .ext _ _ _ p l | .extS _ _ _ p l | .ins _ _ _ p l => p.toNat + l.toNat + 1 ≤ 64
  | .ldaD _ _ _ sc _ | .stlD _ _ _ sc _ => sc.toNat ≤ 5
  | .aadd _ _ _ _ o sc _ | .aand _ _ _ _ o sc _ | .aor _ _ _ _ o sc _ | .axor _ _ _ _ o sc _
  | .amin _ _ _ _ o sc _ | .amax _ _ _ _ o sc _ | .axchg _ _ _ _ o sc _ | .acas _ _ _ _ o sc _ => atomicOk o sc
  | .fence _ o sc => fenceOk o sc
  | .cdset _ _ _ off sz | .cdrd _ _ _ off sz => off.toNat + 2 ^ sz.toNat ≤ 128
  | .cdadr _ _ _ off => off.toNat == 0 || off.toNat == 12 || off.toNat == 96 || off.toNat == 112
  | .vadd _ ty m _ _ _ | .vsub _ ty m _ _ _ | .vmin _ ty m _ _ _ | .vmax _ ty m _ _ _ | .vfma _ ty m _ _ _ _
  | .vfms _ ty m _ _ _ _ | .viota _ ty m _ _ | .vredadd _ ty m _ _ | .vmul _ ty m _ _ _ => tyIntFlt ty && modRounds ty m
  | .vmulHi _ ty _ _ _ | .vadds _ ty _ _ _ | .vsubs _ ty _ _ _ | .vand _ ty _ _ _ | .vor _ ty _ _ _
  | .vxor _ ty _ _ _ | .vnot _ ty _ _ => tyInt ty
  | .vabs _ ty _ _ | .vneg _ ty _ _ | .vceq _ ty _ _ _ | .vclt _ ty _ _ _ | .vcle _ ty _ _ _ | .vcne _ ty _ _ _
  | .vredmax _ ty _ _ | .vredmin _ ty _ _ => tyIntFlt ty
  | .vdiv _ ty m _ _ _ | .vsqrt _ ty m _ _ | .vrcp _ ty m _ _ | .vrsq _ ty m _ _ | .vexp2 _ ty m _ _
  | .vlog2 _ ty m _ _ => tyFlt ty && modRounds ty m
  | .vshl _ ty _ _ c | .vshr _ ty _ _ c | .vsar _ ty _ _ c => tyInt ty && shiftOk ty c
  | .vsel _ ty _ _ _ _ | .vmov _ ty _ _ | .vbcast _ ty _ _ | .vperm _ ty _ _ _ | .vshuf _ ty _ _ _ _
  | .vld _ ty _ _ _ | .vst _ ty _ _ _ => tyAny ty
  | .vlds _ ty _ a _ | .vsts _ ty _ a _ => tyAny ty && a.toNat != 63
  | .vgath _ ty vd _ _ | .vscat _ ty vd _ _ => ty32 ty && vd.toNat % 2 == 0
  | .vrot _ ty _ _ j | .vmvs _ ty _ _ j | .vins _ ty _ _ j => tyAny ty && elemIndexOk ty j
  | .vcvt g ty m vd va src part gapx => cvtOk g ty m vd va src part gapx
  | .trw _ ty _ _ _ | .trr _ ty _ _ _ | .tcw _ ty _ _ _ | .tcr _ ty _ _ _ => tyTile ty
  | .kld _ _ va => va.toNat % 2 == 0
  | .kst _ vd _ => vd.toNat % 2 == 0
  | .mma _ _ _ fmt acc _ _ _ =>
    acc.toNat != 3 && (fmt.toNat == 6 || fmt.toNat == 7 || fmt.toNat == 9 || fmt.toNat == 12 || fmt.toNat == 13)
  | .xtrn _ _ w => w.toNat ≤ 2
  | .xcvt _ _ p _ => p.toNat ≤ 3
  | .xqnt vd _ _ _ => vd.toNat % 2 == 0
  | .xdqn _ va _ => va.toNat % 2 == 0
  | _ => true

/-- The ranges of an event's operands: 256 cores (R91), 64 clusters and 4 compute dies (R1), 256 worlds and 4,096 contexts (R329). A
position is not ranged: a bank beyond the four positions and the shadow bank holds what is left of a task that has ended (R256). -/
def EvArgs.wf (e : EvArgs) : Bool := e.core < 256 && e.die < 4 && e.cl < 64 && e.w < 256 && e.ctx < 4096

end Sys2Proof
end

