-- ==== Sys2Proof/Decode.lean ====
section
/-!
DEFINITION. Decoding (R30-R53): the bundle's fields, the five slot formats and the header, the opcode grids, and after them
the encoder written from the same tables. A slot word that no table admits is rejected by name: the slot then raises
ILLEGAL_OPCODE when its guard holds (R42, R50).
-/

namespace Sys2Proof

open Machine

/-- Why a decode is refused: the causes of R25 that an encoding raises. -/
inductive Reject where
  /-- ILLEGAL_OPCODE with the opcode field (R9, R50-R53). -/
  | illegalOpcode (op : BitVec 8)
  /-- ILLEGAL_BUNDLE with the header word (R31). -/
  | illegalBundle (header : BitVec 32)
  deriving DecidableEq, Repr

/-- The S format (R36). -/
structure SFields where
  op : BitVec 8
  pg : BitVec 4
  pn : Bool
  d : BitVec 6
  a : BitVec 6
  b : BitVec 6
  imm : BitVec 17
  deriving DecidableEq, Repr

/-- The V format (R38). -/
structure VFields where
  op : BitVec 8
  ty : BitVec 4
  vd : BitVec 11
  va : BitVec 11
  vb : BitVec 11
  vc : BitVec 11
  pg : BitVec 4
  pn : Bool
  mod : BitVec 3
  deriving DecidableEq, Repr

/-- The M format (R39). -/
structure MFields where
  op : BitVec 6
  td : BitVec 4
  oa : BitVec 6
  ob : BitVec 6
  fmt : BitVec 4
  acc : BitVec 2
  ws : BitVec 8
  wt : BitVec 4
  ss : BitVec 8
  deriving DecidableEq, Repr

/-- The X format (R40). -/
structure XFields where
  op : BitVec 6
  vd : BitVec 11
  va : BitVec 11
  mod : BitVec 4
  deriving DecidableEq, Repr

/-- The C format (R41); z is the must-be-zero field [9:0]. -/
structure CFields where
  op : BitVec 6
  cd : BitVec 5
  ws : BitVec 8
  wt : BitVec 4
  ss : BitVec 8
  si : BitVec 4
  cm : BitVec 3
  z : BitVec 10
  deriving DecidableEq, Repr

/-- R36: the fields of a scalar slot word. -/
def unpackS (w : BitVec 48) : SFields :=
  ⟨w.extractLsb' 40 8, w.extractLsb' 36 4, w.getLsbD 35, w.extractLsb' 29 6, w.extractLsb' 23 6, w.extractLsb' 17 6,
    w.extractLsb' 0 17⟩

/-- R36, written the other way: the word of the fields. -/
def packS (f : SFields) : BitVec 48 :=
  ((((((f.op ++ f.pg) ++ BitVec.ofBool f.pn) ++ f.d) ++ f.a) ++ f.b) ++ f.imm)

/-- R38: the fields of a vector slot word. -/
def unpackV (w : BitVec 64) : VFields :=
  ⟨w.extractLsb' 56 8, w.extractLsb' 52 4, w.extractLsb' 41 11, w.extractLsb' 30 11, w.extractLsb' 19 11,
    w.extractLsb' 8 11, w.extractLsb' 4 4, w.getLsbD 3, w.extractLsb' 0 3⟩

/-- R38, written the other way. -/
def packV (f : VFields) : BitVec 64 :=
  ((((((((f.op ++ f.ty) ++ f.vd) ++ f.va) ++ f.vb) ++ f.vc) ++ f.pg) ++ BitVec.ofBool f.pn) ++ f.mod)

/-- R39: the fields of a matrix slot word. -/
def unpackM (w : BitVec 48) : MFields :=
  ⟨w.extractLsb' 42 6, w.extractLsb' 38 4, w.extractLsb' 32 6, w.extractLsb' 26 6, w.extractLsb' 22 4,
    w.extractLsb' 20 2, w.extractLsb' 12 8, w.extractLsb' 8 4, w.extractLsb' 0 8⟩

/-- R39, written the other way. -/
def packM (f : MFields) : BitVec 48 :=
  ((((((((f.op ++ f.td) ++ f.oa) ++ f.ob) ++ f.fmt) ++ f.acc) ++ f.ws) ++ f.wt) ++ f.ss)

/-- R40: the fields of a transform slot word. -/
def unpackX (w : BitVec 32) : XFields :=
  ⟨w.extractLsb' 26 6, w.extractLsb' 15 11, w.extractLsb' 4 11, w.extractLsb' 0 4⟩

/-- R40, written the other way. -/
def packX (f : XFields) : BitVec 32 :=
  (((f.op ++ f.vd) ++ f.va) ++ f.mod)

/-- R41: the fields of a copy slot word. -/
def unpackC (w : BitVec 48) : CFields :=
  ⟨w.extractLsb' 42 6, w.extractLsb' 37 5, w.extractLsb' 29 8, w.extractLsb' 25 4, w.extractLsb' 17 8,
    w.extractLsb' 13 4, w.extractLsb' 10 3, w.extractLsb' 0 10⟩

/-- R41, written the other way. -/
def packC (f : CFields) : BitVec 48 :=
  (((((((f.op ++ f.cd) ++ f.ws) ++ f.wt) ++ f.ss) ++ f.si) ++ f.cm) ++ f.z)

/-- R37: a 6-bit field that names an address or predicate register has bits [5:4] zero. -/
def lo4 (x : BitVec 6) : Bool := x.toNat < 16

/-- A vector-format field whose bits [10:4] must be zero. -/
def lo4v (x : BitVec 11) : Bool := x.toNat < 16

/-- A vector-format field that names a scalar register: bits [10:6] must be zero (R38). -/
def lo6v (x : BitVec 11) : Bool := x.toNat < 64

/-- Row 0x0 of the S-slot grid (R50). -/
def decodeSRow0 (f : SFields) : Option Instr :=
  let g : Guard := ⟨f.pg, f.pn⟩
  match f.op.toNat with
  | 0x00 => some .nop
  | 0x01 => if f.imm == 0 then some (.add g f.d f.a f.b) else none
  | 0x02 => if f.b == 0 then some (.addi g f.d f.a f.imm) else none
  | 0x03 => if f.imm == 0 then some (.sub g f.d f.a f.b) else none
  | 0x04 => if f.imm == 0 then some (.mul g f.d f.a f.b) else none
  | 0x05 => if f.imm == 0 then some (.mulh g f.d f.a f.b) else none
  | 0x06 => if f.imm == 0 then some (.mulhu g f.d f.a f.b) else none
  | 0x07 => if f.imm == 0 then some (.div g f.d f.a f.b) else none
  | 0x08 => if f.imm == 0 then some (.divu g f.d f.a f.b) else none
  | 0x09 => if f.imm == 0 then some (.rem g f.d f.a f.b) else none
  | 0x0A => if f.imm == 0 then some (.remu g f.d f.a f.b) else none
  | 0x0B => if f.imm == 0 then some (.and g f.d f.a f.b) else none
  | 0x0C => if f.imm == 0 then some (.or g f.d f.a f.b) else none
  | 0x0D => if f.imm == 0 then some (.xor g f.d f.a f.b) else none
  | 0x0E => if f.b == 0 then some (.andi g f.d f.a f.imm) else none
  | 0x0F => if f.b == 0 then some (.ori g f.d f.a f.imm) else none
  | _ => none

/-- Row 0x1 of the S-slot grid (R50). -/
def decodeSRow1 (f : SFields) : Option Instr :=
  let g : Guard := ⟨f.pg, f.pn⟩
  match f.op.toNat with
  | 0x10 => if f.b == 0 then some (.xori g f.d f.a f.imm) else none
  | 0x11 => if f.imm == 0 then some (.shl g f.d f.a f.b) else none
  | 0x12 => if f.imm == 0 then some (.shr g f.d f.a f.b) else none
  | 0x13 => if f.imm == 0 then some (.sar g f.d f.a f.b) else none
  | 0x14 => if f.b == 0 && f.imm.toNat < 64 then some (.shli g f.d f.a (f.imm.setWidth 6)) else none
  | 0x15 => if f.b == 0 && f.imm.toNat < 64 then some (.shri g f.d f.a (f.imm.setWidth 6)) else none
  | 0x16 => if f.b == 0 && f.imm.toNat < 64 then some (.sari g f.d f.a (f.imm.setWidth 6)) else none
  | 0x17 => if f.imm == 0 then some (.min g f.d f.a f.b) else none
  | 0x18 => if f.imm == 0 then some (.max g f.d f.a f.b) else none
  | 0x19 => if f.imm == 0 then some (.minu g f.d f.a f.b) else none
  | 0x1A => if f.imm == 0 then some (.maxu g f.d f.a f.b) else none
  | 0x1B => if f.b == 0 && f.imm == 0 then some (.clz g f.d f.a) else none
  | 0x1C => if f.b == 0 && f.imm == 0 then some (.popc g f.d f.a) else none
  | 0x1D => if f.a == 0 && f.b == 0 then some (.movi g f.d f.imm) else none
  | 0x1E => if f.a == 0 && f.b.toNat < 4 && f.imm.toNat < 65536 then some (.movk g f.d (f.imm.setWidth 16) (f.b.setWidth 2)) else none
  | 0x1F => if f.imm.toNat < 16 then some (.sel g f.d (f.imm.setWidth 4) f.a f.b) else none
  | _ => none

/-- Row 0x2 of the S-slot grid (R50). -/
def decodeSRow2 (f : SFields) : Option Instr :=
  let g : Guard := ⟨f.pg, f.pn⟩
  match f.op.toNat with
  | 0x20 => if lo4 f.d && f.imm == 0 then some (.ceq g (f.d.setWidth 4) f.a f.b) else none
  | 0x21 => if lo4 f.d && f.imm == 0 then some (.cne g (f.d.setWidth 4) f.a f.b) else none
  | 0x22 => if lo4 f.d && f.imm == 0 then some (.clt g (f.d.setWidth 4) f.a f.b) else none
  | 0x23 => if lo4 f.d && f.imm == 0 then some (.cle g (f.d.setWidth 4) f.a f.b) else none
  | 0x24 => if lo4 f.d && f.imm == 0 then some (.cltu g (f.d.setWidth 4) f.a f.b) else none
  | 0x25 => if lo4 f.d && f.imm == 0 then some (.cleu g (f.d.setWidth 4) f.a f.b) else none
  | 0x26 => if lo4 f.d && f.b == 0 then some (.ceqi g (f.d.setWidth 4) f.a f.imm) else none
  | 0x27 => if lo4 f.d && f.b == 0 then some (.clti g (f.d.setWidth 4) f.a f.imm) else none
  | 0x28 => if lo4 f.d && lo4 f.a && lo4 f.b && f.imm == 0 then some (.pand g (f.d.setWidth 4) (f.a.setWidth 4) (f.b.setWidth 4)) else none
  | 0x29 => if lo4 f.d && lo4 f.a && lo4 f.b && f.imm == 0 then some (.por g (f.d.setWidth 4) (f.a.setWidth 4) (f.b.setWidth 4)) else none
  | 0x2A => if lo4 f.d && lo4 f.a && lo4 f.b && f.imm == 0 then some (.pxor g (f.d.setWidth 4) (f.a.setWidth 4) (f.b.setWidth 4)) else none
  | 0x2B => if lo4 f.d && lo4 f.a && f.b == 0 && f.imm == 0 then some (.pnot g (f.d.setWidth 4) (f.a.setWidth 4)) else none
  | 0x2C => if lo4 f.d && f.a == 0 && f.b == 0 && f.imm.toNat ≤ 256 then some (.pset g (f.d.setWidth 4) (f.imm.setWidth 9)) else none
  | 0x2D => if lo4 f.d && lo4 f.a && f.b == 0 && f.imm == 0 then some (.pany g (f.d.setWidth 4) (f.a.setWidth 4)) else none
  | 0x2E =>
    if f.b == 0 && f.imm.toNat < 8192 && (f.imm.extractLsb' 0 6).toNat + (f.imm.extractLsb' 6 6).toNat + 1 ≤ 64 then
      some (if f.imm.getLsbD 12 then .extS g f.d f.a (f.imm.extractLsb' 0 6) (f.imm.extractLsb' 6 6)
        else .ext g f.d f.a (f.imm.extractLsb' 0 6) (f.imm.extractLsb' 6 6))
    else none
  | 0x2F => if f.b == 0 && (f.imm.extractLsb' 0 6).toNat + (f.imm.extractLsb' 6 6).toNat + 1 ≤ 64 && f.imm.toNat < 4096 then some (.ins g f.d f.a (f.imm.extractLsb' 0 6) (f.imm.extractLsb' 6 6)) else none
  | _ => none

/-- Row 0x3 of the S-slot grid (R50). -/
def decodeSRow3 (f : SFields) : Option Instr :=
  let g : Guard := ⟨f.pg, f.pn⟩
  match f.op.toNat with
  | 0x30 => if lo4 f.d && lo4 f.a && f.imm == 0 then some (.adda g (f.d.setWidth 4) (f.a.setWidth 4) f.b) else none
  | 0x31 => if lo4 f.d && lo4 f.a && f.b == 0 then some (.addai g (f.d.setWidth 4) (f.a.setWidth 4) f.imm) else none
  | 0x32 => if lo4 f.d && f.b == 0 && f.imm == 0 then some (.mova g (f.d.setWidth 4) f.a) else none
  | 0x33 => if lo4 f.d && f.b == 0 && f.imm == 0 then some (.movah g (f.d.setWidth 4) f.a) else none
  | 0x34 => if lo4 f.a && f.b == 0 && f.imm == 0 then some (.rda g f.d (f.a.setWidth 4)) else none
  | 0x35 => if lo4 f.a && f.b == 0 && f.imm == 0 then some (.rdah g f.d (f.a.setWidth 4)) else none
  | 0x36 => if lo4 f.d && lo4 f.a && lo4 f.b && f.imm == 0 then some (.ceqa g (f.d.setWidth 4) (f.a.setWidth 4) (f.b.setWidth 4)) else none
  | 0x37 => if lo4 f.a && lo4 f.b && f.imm == 0 then some (.suba g f.d (f.a.setWidth 4) (f.b.setWidth 4)) else none
  | 0x38 => if lo4 f.a && f.b == 0 && f.imm.toNat < 32 then some (.qrd g f.d (f.a.setWidth 4) (f.imm.setWidth 5)) else none
  | _ => none

/-- Row 0x4 of the S-slot grid (R50). -/
def decodeSRow4 (f : SFields) : Option Instr :=
  let g : Guard := ⟨f.pg, f.pn⟩
  match f.op.toNat with
  | 0x40 => some (.br g (((f.d ++ f.a) ++ f.b) ++ f.imm))
  | 0x41 => if f.d == 0 && f.b == 0 && f.imm == 0 then some (.jmp g f.a) else none
  | 0x42 => some (.call g (((f.d ++ f.a) ++ f.b) ++ f.imm))
  | 0x43 => if f.d == 0 && f.b == 0 && f.imm == 0 then some (.calli g f.a) else none
  | 0x44 => if f.d == 0 && f.a == 0 && f.b == 0 && f.imm == 0 then some (.ret g) else none
  | 0x45 => some (.loop g (((f.d ++ f.a) ++ f.b) ++ f.imm))
  | 0x46 => if f.d == 0 && f.a == 0 && f.b == 0 then some (.spec g f.imm) else none
  | 0x47 => if f.d == 0 && lo4 f.a && f.b == 0 && f.imm == 0 then some (.spok g (f.a.setWidth 4)) else none
  | 0x48 => if f.d == 0 && f.a == 0 && f.b == 0 && f.imm.toNat < 65536 then some (.waits g (f.imm.extractLsb' 0 8) (f.imm.extractLsb' 8 8)) else none
  | 0x49 => if f.d == 0 && f.a == 0 && f.b == 0 && f.imm.toNat < 65536 then some (.sigs g (f.imm.extractLsb' 0 8) (f.imm.extractLsb' 8 8)) else none
  | 0x4A => if f.d == 0 && f.b == 0 && f.imm.toNat < 256 then some (.semset g f.a (f.imm.setWidth 8)) else none
  | 0x4B => if f.a == 0 && f.b == 0 && f.imm.toNat < 256 then some (.semrd g f.d (f.imm.setWidth 8)) else none
  | 0x4C =>
    if f.d == 0 && f.a == 0 && f.b == 0 && f.imm.toNat < 1024 then
      match (f.imm.extractLsb' 8 2).toNat with
      | 0 => if (f.imm.extractLsb' 0 8) == 0 then some (.retire g) else none
      | 1 => some (.retireFail g (f.imm.extractLsb' 0 8))
      | 2 => if (f.imm.extractLsb' 0 8) == 0 then some (.retireRequeue g) else none
      | _ => none
    else none
  | 0x4D => if f.d == 0 && f.a == 0 && f.b == 0 && f.imm == 0 then some (.rest g) else none
  | 0x4E => if f.d == 0 && f.a == 0 && f.b == 0 && f.imm == 0 then some (.yield g) else none
  | 0x4F => if f.d == 0 && f.a == 0 && f.b == 0 then some (.trap g f.imm) else none
  | _ => none

/-- Row 0x5 of the S-slot grid (R50). -/
def decodeSRow5 (f : SFields) : Option Instr :=
  let g : Guard := ⟨f.pg, f.pn⟩
  match f.op.toNat with
  | 0x50 => if f.d == 0 && f.a == 0 && f.b == 0 && f.imm == 0 then some (.uiret g) else none
  | 0x51 => if f.d == 0 && f.b == 0 && f.imm == 0 then some (.phase g f.a) else none
  | _ => none

/-- Row 0x6 of the S-slot grid (R50). -/
def decodeSRow6 (f : SFields) : Option Instr :=
  let g : Guard := ⟨f.pg, f.pn⟩
  match f.op.toNat with
  | 0x60 => if lo4 f.a && f.b == 0 then some (.ldB g f.d (f.a.setWidth 4) f.imm) else none
  | 0x61 => if lo4 f.a && f.b == 0 then some (.ldBu g f.d (f.a.setWidth 4) f.imm) else none
  | 0x62 => if lo4 f.a && f.b == 0 then some (.ldH g f.d (f.a.setWidth 4) f.imm) else none
  | 0x63 => if lo4 f.a && f.b == 0 then some (.ldHu g f.d (f.a.setWidth 4) f.imm) else none
  | 0x64 => if lo4 f.a && f.b == 0 then some (.ldW g f.d (f.a.setWidth 4) f.imm) else none
  | 0x65 => if lo4 f.a && f.b == 0 then some (.ldWu g f.d (f.a.setWidth 4) f.imm) else none
  | 0x66 => if lo4 f.a && f.b == 0 then some (.ldD g f.d (f.a.setWidth 4) f.imm) else none
  | 0x67 => if f.d == 0 && lo4 f.a then some (.stB g (f.a.setWidth 4) f.b f.imm) else none
  | 0x68 => if f.d == 0 && lo4 f.a then some (.stH g (f.a.setWidth 4) f.b f.imm) else none
  | 0x69 => if f.d == 0 && lo4 f.a then some (.stW g (f.a.setWidth 4) f.b f.imm) else none
  | 0x6A => if f.d == 0 && lo4 f.a then some (.stD g (f.a.setWidth 4) f.b f.imm) else none
  | 0x6B => if lo4 f.a && f.b == 0 && (f.imm.extractLsb' 14 3) == 1 && (f.imm.extractLsb' 11 3).toNat ≤ 5 then some (.ldaD g f.d (f.a.setWidth 4) (f.imm.extractLsb' 11 3) (f.imm.extractLsb' 0 11)) else none
  | 0x6C => if f.d == 0 && lo4 f.a && (f.imm.extractLsb' 14 3) == 2 && (f.imm.extractLsb' 11 3).toNat ≤ 5 then some (.stlD g (f.a.setWidth 4) f.b (f.imm.extractLsb' 11 3) (f.imm.extractLsb' 0 11)) else none
  | 0x6D => if lo4 f.a && f.b == 0 && (f.imm.extractLsb' 14 3) == 4 && (f.imm.extractLsb' 11 3) == 4 then some (.ldscD g f.d (f.a.setWidth 4) (f.imm.extractLsb' 0 11)) else none
  | 0x6E => if f.d == 0 && lo4 f.a && (f.imm.extractLsb' 14 3) == 4 && (f.imm.extractLsb' 11 3) == 4 then some (.stscD g (f.a.setWidth 4) f.b (f.imm.extractLsb' 0 11)) else none
  | 0x6F => if f.d == 0 && lo4 f.a && f.b == 0 then some (.pref g (f.a.setWidth 4) f.imm) else none
  | _ => none

/-- Row 0x7 of the S-slot grid (R50). -/
def decodeSRow7 (f : SFields) : Option Instr :=
  let g : Guard := ⟨f.pg, f.pn⟩
  match f.op.toNat with
  | 0x70 => if f.b == 0 then some (.ldsW g f.d f.a f.imm) else none
  | 0x71 => if f.b == 0 then some (.ldsD g f.d f.a f.imm) else none
  | 0x72 => if f.d == 0 then some (.stsW g f.a f.b f.imm) else none
  | 0x73 => if f.d == 0 then some (.stsD g f.a f.b f.imm) else none
  | 0x74 => if lo4 f.a && atomicOk (f.imm.extractLsb' 14 3) (f.imm.extractLsb' 11 3) then some (.aadd g f.d (f.a.setWidth 4) f.b (f.imm.extractLsb' 14 3) (f.imm.extractLsb' 11 3) (f.imm.extractLsb' 0 11)) else none
  | 0x75 => if lo4 f.a && atomicOk (f.imm.extractLsb' 14 3) (f.imm.extractLsb' 11 3) then some (.aand g f.d (f.a.setWidth 4) f.b (f.imm.extractLsb' 14 3) (f.imm.extractLsb' 11 3) (f.imm.extractLsb' 0 11)) else none
  | 0x76 => if lo4 f.a && atomicOk (f.imm.extractLsb' 14 3) (f.imm.extractLsb' 11 3) then some (.aor g f.d (f.a.setWidth 4) f.b (f.imm.extractLsb' 14 3) (f.imm.extractLsb' 11 3) (f.imm.extractLsb' 0 11)) else none
  | 0x77 => if lo4 f.a && atomicOk (f.imm.extractLsb' 14 3) (f.imm.extractLsb' 11 3) then some (.axor g f.d (f.a.setWidth 4) f.b (f.imm.extractLsb' 14 3) (f.imm.extractLsb' 11 3) (f.imm.extractLsb' 0 11)) else none
  | 0x78 => if lo4 f.a && atomicOk (f.imm.extractLsb' 14 3) (f.imm.extractLsb' 11 3) then some (.amin g f.d (f.a.setWidth 4) f.b (f.imm.extractLsb' 14 3) (f.imm.extractLsb' 11 3) (f.imm.extractLsb' 0 11)) else none
  | 0x79 => if lo4 f.a && atomicOk (f.imm.extractLsb' 14 3) (f.imm.extractLsb' 11 3) then some (.amax g f.d (f.a.setWidth 4) f.b (f.imm.extractLsb' 14 3) (f.imm.extractLsb' 11 3) (f.imm.extractLsb' 0 11)) else none
  | 0x7A => if lo4 f.a && atomicOk (f.imm.extractLsb' 14 3) (f.imm.extractLsb' 11 3) then some (.axchg g f.d (f.a.setWidth 4) f.b (f.imm.extractLsb' 14 3) (f.imm.extractLsb' 11 3) (f.imm.extractLsb' 0 11)) else none
  | 0x7B => if lo4 f.a && atomicOk (f.imm.extractLsb' 14 3) (f.imm.extractLsb' 11 3) then some (.acas g f.d (f.a.setWidth 4) f.b (f.imm.extractLsb' 14 3) (f.imm.extractLsb' 11 3) (f.imm.extractLsb' 0 11)) else none
  | 0x7C => if f.d == 0 && f.a == 0 && f.b == 0 && (f.imm.extractLsb' 0 11) == 0 && fenceOk (f.imm.extractLsb' 14 3) (f.imm.extractLsb' 11 3) then some (.fence g (f.imm.extractLsb' 14 3) (f.imm.extractLsb' 11 3)) else none
  | 0x7D => if f.d == 0 && f.a == 0 && f.b == 0 && f.imm == 0 then some (.lsmark g) else none
  | 0x7E => if f.d == 0 && f.a == 0 && f.b == 0 && f.imm == 0 then some (.efence g) else none
  | _ => none

/-- Row 0x8 of the S-slot grid (R50). -/
def decodeSRow8 (f : SFields) : Option Instr :=
  let g : Guard := ⟨f.pg, f.pn⟩
  match f.op.toNat with
  | 0x80 => if lo4 f.d && lo4 f.a && f.b == 0 && f.imm == 0 then some (.qbind g (f.d.setWidth 4) (f.a.setWidth 4)) else none
  | 0x81 => if lo4 f.d && f.a == 0 && f.b == 0 && f.imm == 0 then some (.qunb g (f.d.setWidth 4)) else none
  | 0x82 => if f.d == 0 && lo4 f.a && f.imm == 0 then some (.enq g (f.a.setWidth 4) f.b) else none
  | 0x83 => if lo4 f.a && f.b == 0 && f.imm == 0 then some (.deq g f.d (f.a.setWidth 4)) else none
  | 0x84 => if f.d == 0 && lo4 f.a && f.imm == 0 then some (.enqt g (f.a.setWidth 4) f.b) else none
  | 0x85 => if lo4 f.a && f.imm == 0 then some (.deqt g f.d (f.a.setWidth 4) f.b) else none
  | 0x86 => if f.d == 0 && lo4 f.a && lo4 f.b && f.imm.toNat < 4096 then some (.qinit g (f.a.setWidth 4) (f.b.setWidth 4) (f.imm.extractLsb' 0 5) (f.imm.extractLsb' 5 6) (f.imm.extractLsb' 11 1)) else none
  | 0x88 => if f.d == 0 && lo4 f.a && f.b == 0 && f.imm == 0 then some (.join g (f.a.setWidth 4)) else none
  | 0x89 => if f.d == 0 && lo4 f.a && f.b == 0 && f.imm == 0 then some (.leave g (f.a.setWidth 4)) else none
  | 0x8A => if f.d == 0 && lo4 f.a && f.b == 0 && f.imm == 0 then some (.gbar g (f.a.setWidth 4)) else none
  | 0x8B => if lo4 f.a && f.b == 0 && f.imm == 0 then some (.gcount g f.d (f.a.setWidth 4)) else none
  | 0x8C => if f.d == 0 && lo4 f.a && f.b == 0 && f.imm == 0 then some (.spawn g (f.a.setWidth 4)) else none
  | 0x8D => if f.d == 0 && lo4 f.a && f.b == 0 && f.imm == 0 then some (.jdec g (f.a.setWidth 4)) else none
  | _ => none

/-- Row 0x9 of the S-slot grid (R50). -/
def decodeSRow9 (f : SFields) : Option Instr :=
  let g : Guard := ⟨f.pg, f.pn⟩
  match f.op.toNat with
  | 0x90 => if f.d.toNat < 32 && f.b == 0 && f.imm.toNat < 512 && (f.imm.extractLsb' 0 7).toNat + 2 ^ (f.imm.extractLsb' 7 2).toNat ≤ 128 then some (.cdset g (f.d.setWidth 5) f.a (f.imm.extractLsb' 0 7) (f.imm.extractLsb' 7 2)) else none
  | 0x91 => if f.d.toNat < 32 && lo4 f.a && f.b == 0 && (f.imm.toNat == 0 || f.imm.toNat == 12 || f.imm.toNat == 96 || f.imm.toNat == 112) then some (.cdadr g (f.d.setWidth 5) (f.a.setWidth 4) (f.imm.setWidth 7)) else none
  | 0x92 => if f.a.toNat < 32 && f.b == 0 && f.imm.toNat < 512 && (f.imm.extractLsb' 0 7).toNat + 2 ^ (f.imm.extractLsb' 7 2).toNat ≤ 128 then some (.cdrd g f.d (f.a.setWidth 5) (f.imm.extractLsb' 0 7) (f.imm.extractLsb' 7 2)) else none
  | 0x93 => if f.d.toNat < 32 && lo4 f.a && f.b == 0 then some (.cdld g (f.d.setWidth 5) (f.a.setWidth 4) f.imm) else none
  | 0x94 => if lo4 f.d && f.b == 0 && f.imm == 0 then some (.tcfg g (f.d.setWidth 4) f.a) else none
  | 0x95 => if lo4 f.a && f.b == 0 && f.imm == 0 then some (.trd g f.d (f.a.setWidth 4)) else none
  | _ => none

/-- Row 0xA of the S-slot grid (R50). -/
def decodeSRowA (f : SFields) : Option Instr :=
  let g : Guard := ⟨f.pg, f.pn⟩
  match f.op.toNat with
  | 0xA0 => if f.a == 0 && f.b == 0 && f.imm.toNat < 4096 then some (.csrr g f.d (f.imm.setWidth 12)) else none
  | 0xA1 => if f.d == 0 && f.b == 0 && f.imm.toNat < 4096 then some (.csrw g f.a (f.imm.setWidth 12)) else none
  | 0xA2 => if f.d == 0 && f.a == 0 && f.b == 0 && f.imm == 0 then some (.eret g) else none
  | 0xA3 => if f.d == 0 && f.a == 0 && f.b == 0 && f.imm.toNat < 4 then some (.swap g (f.imm.setWidth 2)) else none
  | 0xA4 =>
    if f.d == 0 && lo4 f.a && f.imm.toNat < 8 then
      match (f.imm.extractLsb' 0 2).toNat with
      | 0 => some (.tlbinvPage g (f.a.setWidth 4) f.b (f.imm.extractLsb' 2 1))
      | 1 => if f.a == 0 then some (.tlbinvCtx g f.b (f.imm.extractLsb' 2 1)) else none
      | 2 => if f.a == 0 && f.b == 0 then some (.tlbinvAll g (f.imm.extractLsb' 2 1)) else none
      | _ => none
    else none
  | 0xA5 => if f.a == 0 && f.b == 0 && f.imm == 0 then some (.jbegin g f.d) else none
  | 0xA6 => if f.d == 0 && f.imm == 0 then some (.jwrite g f.a f.b) else none
  | 0xA7 => if f.d == 0 && f.a == 0 && f.b == 0 && f.imm == 0 then some (.jcommit g) else none
  | 0xA8 => if f.d == 0 && f.a == 0 && f.b == 0 && f.imm == 0 then some (.jabort g) else none
  | 0xA9 =>
    if f.imm.toNat < 4 then
      match f.imm.toNat with
      | 0 => some (.jverifyCrc g f.d f.a f.b)
      | 1 => if f.b == 0 then some (.jverifyWear g f.d f.a) else none
      | 2 => if f.a == 0 && f.b == 0 then some (.jverifyStatus g f.d) else none
      | _ => none
    else none
  | 0xAA => if f.d == 0 && f.b == 0 && f.imm == 0 then some (.wake g f.a) else none
  | 0xAB =>
    if f.imm.toNat < 1024 then
      match (f.imm.extractLsb' 0 2).toNat with
      | 0 => if lo4 f.a then some (.scrubrRange g f.d (f.a.setWidth 4) f.b (f.imm.extractLsb' 2 8)) else none
      | 1 => if f.a == 0 && f.b == 0 then some (.scrubrSecded g f.d (f.imm.extractLsb' 2 8)) else none
      | 2 => if f.a == 0 && f.b == 0 then some (.scrubrDected g f.d (f.imm.extractLsb' 2 8)) else none
      | _ => none
    else none
  | 0xAC => if f.a == 0 && f.b == 0 && f.imm == 0 then some (.lgwait g f.d) else none
  | _ => none

/-- R50: the S-slot opcodes. Rows 0x0-0x3 are valid in S0 and S1, rows 0x4, 0x5, 0xA in S0 only, rows 0x6-0x9 in S1
only. -/
def decodeSFields (s1 : Bool) (f : SFields) : Option Instr :=
  match f.op.toNat / 16 with
  | 0x0 => decodeSRow0 f
  | 0x1 => decodeSRow1 f
  | 0x2 => decodeSRow2 f
  | 0x3 => decodeSRow3 f
  | 0x4 => if !s1 then decodeSRow4 f else none
  | 0x5 => if !s1 then decodeSRow5 f else none
  | 0x6 => if s1 then decodeSRow6 f else none
  | 0x7 => if s1 then decodeSRow7 f else none
  | 0x8 => if s1 then decodeSRow8 f else none
  | 0x9 => if s1 then decodeSRow9 f else none
  | 0xA => if !s1 then decodeSRowA f else none
  | _ => none

/-- Row 0x0 of the V-slot grid (R52). An FLT VMIN or VMAX passes the check of R123 with MOD 0 or 0b1xx, as the other FLT forms do: a DESIGN
CHOICE (R126, log 65). -/
def decodeVRow0 (f : VFields) : Option Instr :=
  let g : Guard := ⟨f.pg, f.pn⟩
  match f.op.toNat with
  | 0x00 => some .vnop
  | 0x01 => if f.vc == 0 && tyIntFlt f.ty && modRounds f.ty f.mod then some (.vadd g f.ty f.mod f.vd f.va f.vb) else none
  | 0x02 => if f.vc == 0 && tyIntFlt f.ty && modRounds f.ty f.mod then some (.vsub g f.ty f.mod f.vd f.va f.vb) else none
  | 0x03 =>
    if f.vc == 0 && tyIntFlt f.ty then
      if modRounds f.ty f.mod then some (.vmul g f.ty f.mod f.vd f.va f.vb)
      else if tyInt f.ty && f.mod == 1 then some (.vmulHi g f.ty f.vd f.va f.vb) else none
    else none
  | 0x04 => if tyIntFlt f.ty && modRounds f.ty f.mod then some (.vfma g f.ty f.mod f.vd f.va f.vb f.vc) else none
  | 0x05 => if tyIntFlt f.ty && modRounds f.ty f.mod then some (.vfms g f.ty f.mod f.vd f.va f.vb f.vc) else none
  | 0x06 => if f.vc == 0 && tyIntFlt f.ty && modRounds f.ty f.mod then some (.vmin g f.ty f.mod f.vd f.va f.vb) else none
  | 0x07 => if f.vc == 0 && tyIntFlt f.ty && modRounds f.ty f.mod then some (.vmax g f.ty f.mod f.vd f.va f.vb) else none
  | 0x08 => if f.vb == 0 && f.vc == 0 && tyIntFlt f.ty && f.mod == 0 then some (.vabs g f.ty f.vd f.va) else none
  | 0x09 => if f.vb == 0 && f.vc == 0 && tyIntFlt f.ty && f.mod == 0 then some (.vneg g f.ty f.vd f.va) else none
  | 0x0A => if f.vc == 0 && tyFlt f.ty && modRounds f.ty f.mod then some (.vdiv g f.ty f.mod f.vd f.va f.vb) else none
  | 0x0B => if f.vb == 0 && f.vc == 0 && tyFlt f.ty && modRounds f.ty f.mod then some (.vsqrt g f.ty f.mod f.vd f.va) else none
  | 0x0C => if f.vb == 0 && f.vc == 0 && tyFlt f.ty && modRounds f.ty f.mod then some (.vrcp g f.ty f.mod f.vd f.va) else none
  | 0x0D => if f.vb == 0 && f.vc == 0 && tyFlt f.ty && modRounds f.ty f.mod then some (.vrsq g f.ty f.mod f.vd f.va) else none
  | 0x0E => if f.vb == 0 && f.vc == 0 && tyFlt f.ty && modRounds f.ty f.mod then some (.vexp2 g f.ty f.mod f.vd f.va) else none
  | 0x0F => if f.vb == 0 && f.vc == 0 && tyFlt f.ty && modRounds f.ty f.mod then some (.vlog2 g f.ty f.mod f.vd f.va) else none
  | _ => none

/-- Row 0x1 of the V-slot grid (R52). -/
def decodeVRow1 (f : VFields) : Option Instr :=
  let g : Guard := ⟨f.pg, f.pn⟩
  match f.op.toNat with
  | 0x10 => if f.vc == 0 && tyInt f.ty && f.mod == 0 then some (.vadds g f.ty f.vd f.va f.vb) else none
  | 0x11 => if f.vc == 0 && tyInt f.ty && f.mod == 0 then some (.vsubs g f.ty f.vd f.va f.vb) else none
  | 0x12 => if f.vc == 0 && tyInt f.ty && f.mod == 0 then some (.vand g f.ty f.vd f.va f.vb) else none
  | 0x13 => if f.vc == 0 && tyInt f.ty && f.mod == 0 then some (.vor g f.ty f.vd f.va f.vb) else none
  | 0x14 => if f.vc == 0 && tyInt f.ty && f.mod == 0 then some (.vxor g f.ty f.vd f.va f.vb) else none
  | 0x15 => if f.vb == 0 && f.vc == 0 && tyInt f.ty && f.mod == 0 then some (.vnot g f.ty f.vd f.va) else none
  | 0x16 =>
    if f.vc == 0 && tyInt f.ty then
      if f.mod == 0 then some (.vshl g f.ty f.vd f.va (.vec f.vb))
      else if f.mod == 1 && lo6v f.vb && shiftOk f.ty (.imm (f.vb.setWidth 6)) then some (.vshl g f.ty f.vd f.va (.imm (f.vb.setWidth 6)))
      else none
    else none
  | 0x17 =>
    if f.vc == 0 && tyInt f.ty then
      if f.mod == 0 then some (.vshr g f.ty f.vd f.va (.vec f.vb))
      else if f.mod == 1 && lo6v f.vb && shiftOk f.ty (.imm (f.vb.setWidth 6)) then some (.vshr g f.ty f.vd f.va (.imm (f.vb.setWidth 6)))
      else none
    else none
  | 0x18 =>
    if f.vc == 0 && tyInt f.ty then
      if f.mod == 0 then some (.vsar g f.ty f.vd f.va (.vec f.vb))
      else if f.mod == 1 && lo6v f.vb && shiftOk f.ty (.imm (f.vb.setWidth 6)) then some (.vsar g f.ty f.vd f.va (.imm (f.vb.setWidth 6)))
      else none
    else none
  | 0x19 => if lo4v f.vd && f.vc == 0 && tyIntFlt f.ty && f.mod == 0 then some (.vceq g f.ty (f.vd.setWidth 4) f.va f.vb) else none
  | 0x1A => if lo4v f.vd && f.vc == 0 && tyIntFlt f.ty && f.mod == 0 then some (.vclt g f.ty (f.vd.setWidth 4) f.va f.vb) else none
  | 0x1B => if lo4v f.vd && f.vc == 0 && tyIntFlt f.ty && f.mod == 0 then some (.vcle g f.ty (f.vd.setWidth 4) f.va f.vb) else none
  | 0x1C => if lo4v f.vd && f.vc == 0 && tyIntFlt f.ty && f.mod == 0 then some (.vcne g f.ty (f.vd.setWidth 4) f.va f.vb) else none
  | 0x1D => if lo4v f.vc && tyAny f.ty && f.mod == 0 then some (.vsel g f.ty f.vd (f.vc.setWidth 4) f.va f.vb) else none
  | 0x1E => if f.vb == 0 && f.vc == 0 && tyAny f.ty && f.mod == 0 then some (.vmov g f.ty f.vd f.va) else none
  | 0x1F => if lo6v f.va && f.vb == 0 && f.vc == 0 && tyAny f.ty && f.mod == 0 then some (.vbcast g f.ty f.vd (f.va.setWidth 6)) else none
  | _ => none

/-- Row 0x2 of the V-slot grid (R52). -/
def decodeVRow2 (f : VFields) : Option Instr :=
  let g : Guard := ⟨f.pg, f.pn⟩
  match f.op.toNat with
  | 0x20 => if lo6v f.va && f.vb == 0 && f.vc == 0 && tyIntFlt f.ty && modRounds f.ty f.mod then some (.viota g f.ty f.mod f.vd (f.va.setWidth 6)) else none
  | 0x21 => if f.vb == 0 && f.vc == 0 && tyIntFlt f.ty && modRounds f.ty f.mod then some (.vredadd g f.ty f.mod f.vd f.va) else none
  | 0x22 => if f.vb == 0 && f.vc == 0 && tyIntFlt f.ty && f.mod == 0 then some (.vredmax g f.ty f.vd f.va) else none
  | 0x23 => if f.vb == 0 && f.vc == 0 && tyIntFlt f.ty && f.mod == 0 then some (.vredmin g f.ty f.vd f.va) else none
  | 0x24 => if f.vc == 0 && tyAny f.ty && f.mod == 0 then some (.vperm g f.ty f.vd f.va f.vb) else none
  | 0x25 => if tyAny f.ty && f.mod == 0 then some (.vshuf g f.ty f.vd f.va f.vb f.vc) else none
  | 0x26 =>
    if f.vc == 0 && tyAny f.ty then
      if f.mod == 0 && f.vb.toNat < 512 && elemIndexOk f.ty (.imm (f.vb.setWidth 9)) then some (.vrot g f.ty f.vd f.va (.imm (f.vb.setWidth 9)))
      else if f.mod == 1 && lo6v f.vb then some (.vrot g f.ty f.vd f.va (.reg (f.vb.setWidth 6)))
      else none
    else none
  | 0x27 => if lo4v f.vb && f.vc.toNat < 128 && cvtOk g f.ty f.mod f.vd f.va (f.vb.setWidth 4) (f.vc.extractLsb' 0 3) (f.vc.extractLsb' 3 4) then some (.vcvt g f.ty f.mod f.vd f.va (f.vb.setWidth 4) (f.vc.extractLsb' 0 3) (f.vc.extractLsb' 3 4)) else none
  | 0x28 => if lo6v f.va && f.mod == 0 && tyAny f.ty then some (.vld g f.ty f.vd (f.va.setWidth 6) (f.vb ++ f.vc)) else none
  | 0x29 => if lo6v f.va && f.mod == 0 && tyAny f.ty then some (.vst g f.ty f.vd (f.va.setWidth 6) (f.vb ++ f.vc)) else none
  | 0x2A => if lo6v f.va && f.mod == 0 && ty32 f.ty && f.vd.toNat % 2 == 0 then some (.vgath g f.ty f.vd (f.va.setWidth 6) (f.vb ++ f.vc)) else none
  | 0x2B => if lo6v f.va && f.mod == 0 && ty32 f.ty && f.vd.toNat % 2 == 0 then some (.vscat g f.ty f.vd (f.va.setWidth 6) (f.vb ++ f.vc)) else none
  | 0x2C => if lo6v f.va && f.mod == 0 && tyAny f.ty && f.va.toNat != 63 then some (.vlds g f.ty f.vd (f.va.setWidth 6) (f.vb ++ f.vc)) else none
  | 0x2D => if lo6v f.va && f.mod == 0 && tyAny f.ty && f.va.toNat != 63 then some (.vsts g f.ty f.vd (f.va.setWidth 6) (f.vb ++ f.vc)) else none
  | 0x2E =>
    if f.vc == 0 && lo6v f.vd && tyAny f.ty then
      if f.mod == 0 && f.vb.toNat < 512 && elemIndexOk f.ty (.imm (f.vb.setWidth 9)) then some (.vmvs g f.ty (f.vd.setWidth 6) f.va (.imm (f.vb.setWidth 9)))
      else if f.mod == 1 && lo6v f.vb then some (.vmvs g f.ty (f.vd.setWidth 6) f.va (.reg (f.vb.setWidth 6)))
      else none
    else none
  | 0x2F =>
    if f.vc == 0 && lo6v f.va && tyAny f.ty then
      if f.mod == 0 && f.vb.toNat < 512 && elemIndexOk f.ty (.imm (f.vb.setWidth 9)) then some (.vins g f.ty f.vd (f.va.setWidth 6) (.imm (f.vb.setWidth 9)))
      else if f.mod == 1 && lo6v f.vb then some (.vins g f.ty f.vd (f.va.setWidth 6) (.reg (f.vb.setWidth 6)))
      else none
    else none
  | _ => none

/-- Row 0x3 of the V-slot grid (R52). -/
def decodeVRow3 (f : VFields) : Option Instr :=
  let g : Guard := ⟨f.pg, f.pn⟩
  match f.op.toNat with
  | 0x30 => if f.ty == 0 && f.vd == 0 && lo4v f.va && f.vc == 0 && f.mod == 0 then some (.venq g (f.va.setWidth 4) f.vb) else none
  | 0x31 => if f.ty == 0 && lo4v f.va && f.vb == 0 && f.vc == 0 && f.mod == 0 then some (.vqrd g f.vd (f.va.setWidth 4)) else none
  | 0x32 =>
    if f.vd == 0 && lo4v f.vc && tyTile f.ty then
      if f.mod == 0 && f.vb.toNat < 128 then some (.trw g f.ty (f.vc.setWidth 4) f.va (.imm (f.vb.setWidth 7)))
      else if f.mod == 1 && lo6v f.vb then some (.trw g f.ty (f.vc.setWidth 4) f.va (.reg (f.vb.setWidth 6)))
      else none
    else none
  | 0x33 =>
    if f.va == 0 && lo4v f.vc && tyTile f.ty then
      if f.mod == 0 && f.vb.toNat < 128 then some (.trr g f.ty (f.vc.setWidth 4) f.vd (.imm (f.vb.setWidth 7)))
      else if f.mod == 1 && lo6v f.vb then some (.trr g f.ty (f.vc.setWidth 4) f.vd (.reg (f.vb.setWidth 6)))
      else none
    else none
  | 0x34 =>
    if f.vd == 0 && lo4v f.vc && tyTile f.ty then
      if f.mod == 0 && f.vb.toNat < 128 then some (.tcw g f.ty (f.vc.setWidth 4) f.va (.imm (f.vb.setWidth 7)))
      else if f.mod == 1 && lo6v f.vb then some (.tcw g f.ty (f.vc.setWidth 4) f.va (.reg (f.vb.setWidth 6)))
      else none
    else none
  | 0x35 =>
    if f.va == 0 && lo4v f.vc && tyTile f.ty then
      if f.mod == 0 && f.vb.toNat < 128 then some (.tcr g f.ty (f.vc.setWidth 4) f.vd (.imm (f.vb.setWidth 7)))
      else if f.mod == 1 && lo6v f.vb then some (.tcr g f.ty (f.vc.setWidth 4) f.vd (.reg (f.vb.setWidth 6)))
      else none
    else none
  | 0x36 => if f.ty == 0 && f.vd == 0 && f.va == 0 && f.vb == 0 && lo4v f.vc && f.mod == 0 then some (.tzero g (f.vc.setWidth 4)) else none
  | 0x37 => if f.ty == 0 && f.vd == 0 && lo4v f.va && f.vb == 0 && lo4v f.vc && f.mod == 0 then some (.tmov g (f.vc.setWidth 4) (f.va.setWidth 4)) else none
  | 0x38 =>
    if f.ty == 11 then
      if f.mod == 0 && f.vc == 0 then some (.affset g (f.vd.setWidth 4) f.va f.vb (.imm (f.vd.extractLsb' 4 7)))
      else if f.mod == 1 && lo4v f.vd && lo6v f.vc then some (.affset g (f.vd.setWidth 4) f.va f.vb (.reg (f.vc.setWidth 6)))
      else none
    else none
  | 0x39 => if f.ty == 11 && f.vd == 0 && f.va == 0 && f.vb.toNat < 4 && lo4v f.vc && f.mod == 0 then some (.scan g (f.vc.setWidth 4) (f.vb.setWidth 2)) else none
  | 0x3A =>
    if f.ty == 10 && lo6v f.vc then
      if f.mod == 0 && lo4v f.vc && f.vb.toNat < 128 then some (.apply g f.vd (f.vc.setWidth 4) (.imm (f.vb.setWidth 7)) (.vec f.va))
      else if f.mod == 1 && f.va == 0 && f.vb.toNat < 128 then
        some (.apply g f.vd (f.vc.setWidth 4) (.imm (f.vb.setWidth 7)) (.carry (f.vc.extractLsb' 4 2)))
      else if f.mod == 2 && lo4v f.vc && lo6v f.vb then some (.apply g f.vd (f.vc.setWidth 4) (.reg (f.vb.setWidth 6)) (.vec f.va))
      else if f.mod == 3 && f.va == 0 && lo6v f.vb then
        some (.apply g f.vd (f.vc.setWidth 4) (.reg (f.vb.setWidth 6)) (.carry (f.vc.extractLsb' 4 2)))
      else none
    else none
  | 0x3B => if f.ty == 11 && f.vd == 0 && f.vb == 0 && f.vc.toNat < 4 && f.va.toNat % 2 == 0 && f.mod == 0 then some (.kld g (f.vc.setWidth 2) f.va) else none
  | 0x3C => if f.ty == 11 && f.va == 0 && f.vb == 0 && f.vc.toNat < 4 && f.vd.toNat % 2 == 0 && f.mod == 0 then some (.kst g f.vd (f.vc.setWidth 2)) else none
  | _ => none

/-- R52: the V-slot opcodes; the same map holds in V0 and V1. -/
def decodeVFields (f : VFields) : Option Instr :=
  match f.op.toNat / 16 with
  | 0x0 => decodeVRow0 f
  | 0x1 => decodeVRow1 f
  | 0x2 => decodeVRow2 f
  | 0x3 => decodeVRow3 f
  | _ => none

/-- R53: the M-slot opcodes (R39, R179-R191). -/
def decodeMFields (f : MFields) : Option Instr :=
  match f.op.toNat with
  | 0 => some .mnop
  | 1 =>
    if f.acc.toNat != 3 && (f.fmt.toNat == 6 || f.fmt.toNat == 7 || f.fmt.toNat == 9 || f.fmt.toNat == 12 || f.fmt.toNat == 13)
    then some (.mma f.td f.oa f.ob f.fmt f.acc f.ws f.wt f.ss) else none
  | 2 =>
    if f.td == 0 && f.oa == 0 && f.ob == 0 && f.fmt == 0 && f.acc == 0 && f.ws == 0 && f.wt == 0 then some (.lease f.ss)
    else none
  | 3 =>
    if f.td == 0 && f.oa == 0 && f.ob == 0 && f.fmt == 0 && f.acc == 0 && f.ws == 0 && f.wt == 0 && f.ss == 0
    then some .unlease else none
  | 4 =>
    if f.td == 0 && f.ob == 0 && f.fmt == 0 && f.acc == 0 && f.ws == 0 && f.wt == 0 && f.ss == 0
    then some (.oclaim f.oa) else none
  | 5 =>
    if f.td == 0 && f.ob == 0 && f.fmt == 0 && f.acc == 0 && f.ws == 0 && f.wt == 0 && f.ss == 0
    then some (.orelease f.oa) else none
  | 6 => if f.td == 0 && f.fmt == 0 && f.acc == 0 then some (.ofill f.ob f.oa f.ws f.wt f.ss) else none
  | 7 =>
    if f.td == 0 && f.ob == 0 && f.fmt.toNat < 8 && f.acc == 0 && f.ws == 0 && f.wt == 0 && f.ss == 0
    then some (.mrep f.oa (f.fmt.getLsbD 2) (f.fmt.getLsbD 1) (f.fmt.getLsbD 0)) else none
  | _ => none

/-- R53: the X-slot opcodes (R40, R161). -/
def decodeXFields (f : XFields) : Option Instr :=
  match f.op.toNat with
  | 0 => some .xnop
  | 1 => if f.mod.toNat < 2 then some (.xexp f.vd f.va (f.mod.setWidth 1)) else none
  | 2 => if f.mod.toNat ≤ 2 then some (.xtrn f.vd f.va (f.mod.setWidth 2)) else none
  | 3 => if f.mod.toNat < 8 then some (.xcvt f.vd f.va (f.mod.extractLsb' 1 3) (f.mod.extractLsb' 0 1)) else none
  | 4 => if f.mod.toNat < 2 then some (.xhad f.vd f.va (f.mod.setWidth 1)) else none
  | 5 => if f.vd.toNat % 2 == 0 then some (.xqnt f.vd f.va (f.mod.extractLsb' 3 1) (f.mod.extractLsb' 0 3)) else none
  | 6 =>
    if f.va.toNat % 2 == 0 && (f.mod.extractLsb' 0 3) == 0 then some (.xdqn f.vd f.va (f.mod.extractLsb' 3 1)) else none
  | _ => none

/-- R53: the C-slot opcodes (R41, R156). -/
def decodeCFields (f : CFields) : Option Instr :=
  match f.op.toNat with
  | 0 => some .cnop
  | 1 => if f.cm.toNat < 4 && f.z == 0 then some (.copy f.cd f.ws f.wt f.ss f.si (f.cm.setWidth 2)) else none
  | 2 => if f.cm.toNat < 4 && f.z == 0 then some (.copyn f.cd f.ws f.wt f.ss f.si (f.cm.setWidth 2)) else none
  | 3 =>
    if f.ws == 0 && f.cm.toNat < 4 && f.z == 0 then some (.copyd f.cd f.wt f.ss f.si (f.cm.setWidth 2)) else none
  | _ => none

/-- The instruction of a scalar slot word, or the refusal by name. -/
def decodeS (s1 : Bool) (w : BitVec 48) : Except Reject Instr :=
  match decodeSFields s1 (unpackS w) with
  | some i => .ok i
  | none => .error (.illegalOpcode (unpackS w).op)

/-- The instruction of a vector slot word, or the refusal by name. -/
def decodeV (w : BitVec 64) : Except Reject Instr :=
  match decodeVFields (unpackV w) with
  | some i => .ok i
  | none => .error (.illegalOpcode (unpackV w).op)

/-- The instruction of a matrix slot word, or the refusal by name. -/
def decodeM (w : BitVec 48) : Except Reject Instr :=
  match decodeMFields (unpackM w) with
  | some i => .ok i
  | none => .error (.illegalOpcode ((unpackM w).op.setWidth 8))

/-- The instruction of a transform slot word, or the refusal by name. -/
def decodeX (w : BitVec 32) : Except Reject Instr :=
  match decodeXFields (unpackX w) with
  | some i => .ok i
  | none => .error (.illegalOpcode ((unpackX w).op.setWidth 8))

/-- The instruction of a copy slot word, or the refusal by name. -/
def decodeC (w : BitVec 48) : Except Reject Instr :=
  match decodeCFields (unpackC w) with
  | some i => .ok i
  | none => .error (.illegalOpcode ((unpackC w).op.setWidth 8))

/-- The header fields of R31. -/
structure Header where
  pop : BitVec 16
  crit : BitVec 4
  gap : BitVec 4
  deriving DecidableEq, Repr

/-- R31: header bits [7:0] must be zero, otherwise ILLEGAL_BUNDLE. -/
def decodeHeader (h : BitVec 32) : Except Reject Header :=
  if h.extractLsb' 0 8 == 0 then
    .ok ⟨h.extractLsb' 16 16, h.extractLsb' 12 4, h.extractLsb' 8 4⟩
  else .error (.illegalBundle h)

/-- R30: the slot words and the header of a bundle. -/
def slotHeader (b : Bundle) : BitVec 32 := b.extractLsb' 352 32
/-- R30: S0 is bits [351:304]. -/
def slotS0 (b : Bundle) : BitVec 48 := b.extractLsb' 304 48
/-- R30: S1 is bits [303:256]. -/
def slotS1 (b : Bundle) : BitVec 48 := b.extractLsb' 256 48
/-- R30: V0 is bits [255:192]. -/
def slotV0 (b : Bundle) : BitVec 64 := b.extractLsb' 192 64
/-- R30: V1 is bits [191:128]. -/
def slotV1 (b : Bundle) : BitVec 64 := b.extractLsb' 128 64
/-- R30: M is bits [127:80]. -/
def slotM (b : Bundle) : BitVec 48 := b.extractLsb' 80 48
/-- R30: X is bits [79:48]. -/
def slotX (b : Bundle) : BitVec 32 := b.extractLsb' 48 32
/-- R30: C is bits [47:0]. -/
def slotC (b : Bundle) : BitVec 48 := b.extractLsb' 0 48

/-- R30, written the other way: the bundle of a header and seven slot words. -/
def packBundle (h : BitVec 32) (s0 s1 : BitVec 48) (v0 v1 : BitVec 64) (m : BitVec 48) (x : BitVec 32)
    (c : BitVec 48) : Bundle :=
  (((((((h ++ s0) ++ s1) ++ v0) ++ v1) ++ m) ++ x) ++ c)

/-- R30: byte k of a bundle as stored, byte 0 holding bits [7:0]. -/
def bundleByte (b : Bundle) (k : Nat) : Byte := b.extractLsb' (8 * k) 8

/-- One slot of a bundle after decoding (R42): its guard as the S and V formats hold it (none for M, X, C), and the
instruction or the refusal. -/
structure Slot where
  idx : Nat
  guard : Option Guard
  opcode : BitVec 8
  body : Except Reject Instr

/-- R30, R21: the seven slots in the order S0, S1, V0, V1, M, X, C (CAUSE.SLOT numbers 0 to 6). -/
def decodeSlots (b : Bundle) : List Slot :=
  let g (w : BitVec 48) : Guard := ⟨(unpackS w).pg, (unpackS w).pn⟩
  let v (w : BitVec 64) : Guard := ⟨(unpackV w).pg, (unpackV w).pn⟩
  [ ⟨0, some (g (slotS0 b)), (unpackS (slotS0 b)).op, decodeS false (slotS0 b)⟩,
    ⟨1, some (g (slotS1 b)), (unpackS (slotS1 b)).op, decodeS true (slotS1 b)⟩,
    ⟨2, some (v (slotV0 b)), (unpackV (slotV0 b)).op, decodeV (slotV0 b)⟩,
    ⟨3, some (v (slotV1 b)), (unpackV (slotV1 b)).op, decodeV (slotV1 b)⟩,
    ⟨4, none, (unpackM (slotM b)).op.setWidth 8, decodeM (slotM b)⟩,
    ⟨5, none, (unpackX (slotX b)).op.setWidth 8, decodeX (slotX b)⟩,
    ⟨6, none, (unpackC (slotC b)).op.setWidth 8, decodeC (slotC b)⟩ ]

/-- The instruction that the decoder reads from a word of the table: a 32-bit word is a transform slot word (R40), a
48-bit word a scalar slot word (R36; rows 0x6-0x9 as S1, every other row as S0), a 64-bit word a vector slot word (R38). No
row of another width has bits in the table. -/
def decodeTableWord (nbits w : Nat) : Option Instr :=
  if nbits = 32 then (decodeX (BitVec.ofNat 32 w)).toOption
  else if nbits = 48 then
    match decodeS false (BitVec.ofNat 48 w) with
    | .ok i => some i
    | .error _ => (decodeS true (BitVec.ofNat 48 w)).toOption
  else if nbits = 64 then (decodeV (BitVec.ofNat 64 w)).toOption
  else none

/-- The fields of an S-format instruction: opcode, guard, D, A, B, IMM. -/
def SFields.of (op : BitVec 8) (g : Guard) (d a b : BitVec 6) (imm : BitVec 17) : SFields := ⟨op, g.pg, g.pn, d, a, b, imm⟩

/-- The fields of a V-format instruction: opcode, guard, TY, VD, VA, VB, VC, MOD. -/
def VFields.of (op : BitVec 8) (g : Guard) (ty : BitVec 4) (vd va vb vc : BitVec 11) (m : BitVec 3) : VFields :=
  ⟨op, ty, vd, va, vb, vc, g.pg, g.pn, m⟩

/-- The S-format fields of an instruction of the S grid (R50); none for every other row. -/
def encodeSFields (i : Instr) : Option SFields :=
  match i with
  | .nop => some (.of 0x00 .always 0 0 0 0)
  | .add g d a b => some (.of 0x01 g d a b 0)
  | .addi g d a imm => some (.of 0x02 g d a 0 imm)
  | .sub g d a b => some (.of 0x03 g d a b 0)
  | .mul g d a b => some (.of 0x04 g d a b 0)
  | .mulh g d a b => some (.of 0x05 g d a b 0)
  | .mulhu g d a b => some (.of 0x06 g d a b 0)
  | .div g d a b => some (.of 0x07 g d a b 0)
  | .divu g d a b => some (.of 0x08 g d a b 0)
  | .rem g d a b => some (.of 0x09 g d a b 0)
  | .remu g d a b => some (.of 0x0A g d a b 0)
  | .and g d a b => some (.of 0x0B g d a b 0)
  | .or g d a b => some (.of 0x0C g d a b 0)
  | .xor g d a b => some (.of 0x0D g d a b 0)
  | .andi g d a imm => some (.of 0x0E g d a 0 imm)
  | .ori g d a imm => some (.of 0x0F g d a 0 imm)
  | .xori g d a imm => some (.of 0x10 g d a 0 imm)
  | .shl g d a b => some (.of 0x11 g d a b 0)
  | .shr g d a b => some (.of 0x12 g d a b 0)
  | .sar g d a b => some (.of 0x13 g d a b 0)
  | .shli g d a c => some (.of 0x14 g d a 0 (c.setWidth 17))
  | .shri g d a c => some (.of 0x15 g d a 0 (c.setWidth 17))
  | .sari g d a c => some (.of 0x16 g d a 0 (c.setWidth 17))
  | .min g d a b => some (.of 0x17 g d a b 0)
  | .max g d a b => some (.of 0x18 g d a b 0)
  | .minu g d a b => some (.of 0x19 g d a b 0)
  | .maxu g d a b => some (.of 0x1A g d a b 0)
  | .clz g d a => some (.of 0x1B g d a 0 0)
  | .popc g d a => some (.of 0x1C g d a 0 0)
  | .movi g d imm => some (.of 0x1D g d 0 0 imm)
  | .movk g d imm hw => some (.of 0x1E g d 0 (hw.setWidth 6) (imm.setWidth 17))
  | .sel g d c a b => some (.of 0x1F g d a b (c.setWidth 17))
  | .ceq g d a b => some (.of 0x20 g (d.setWidth 6) a b 0)
  | .cne g d a b => some (.of 0x21 g (d.setWidth 6) a b 0)
  | .clt g d a b => some (.of 0x22 g (d.setWidth 6) a b 0)
  | .cle g d a b => some (.of 0x23 g (d.setWidth 6) a b 0)
  | .cltu g d a b => some (.of 0x24 g (d.setWidth 6) a b 0)
  | .cleu g d a b => some (.of 0x25 g (d.setWidth 6) a b 0)
  | .ceqi g d a imm => some (.of 0x26 g (d.setWidth 6) a 0 imm)
  | .clti g d a imm => some (.of 0x27 g (d.setWidth 6) a 0 imm)
  | .pand g d a b => some (.of 0x28 g (d.setWidth 6) (a.setWidth 6) (b.setWidth 6) 0)
  | .por g d a b => some (.of 0x29 g (d.setWidth 6) (a.setWidth 6) (b.setWidth 6) 0)
  | .pxor g d a b => some (.of 0x2A g (d.setWidth 6) (a.setWidth 6) (b.setWidth 6) 0)
  | .pnot g d a => some (.of 0x2B g (d.setWidth 6) (a.setWidth 6) 0 0)
  | .pset g d n => some (.of 0x2C g (d.setWidth 6) 0 0 (n.setWidth 17))
  | .pany g d a => some (.of 0x2D g (d.setWidth 6) (a.setWidth 6) 0 0)
  | .ext g d a p l => some (.of 0x2E g d a 0 ((0#5 ++ l) ++ p))
  | .extS g d a p l => some (.of 0x2E g d a 0 ((1#5 ++ l) ++ p))
  | .ins g d a p l => some (.of 0x2F g d a 0 ((0#5 ++ l) ++ p))
  | .adda g d a b => some (.of 0x30 g (d.setWidth 6) (a.setWidth 6) b 0)
  | .addai g d a imm => some (.of 0x31 g (d.setWidth 6) (a.setWidth 6) 0 imm)
  | .mova g d a => some (.of 0x32 g (d.setWidth 6) a 0 0)
  | .movah g d a => some (.of 0x33 g (d.setWidth 6) a 0 0)
  | .rda g d a => some (.of 0x34 g d (a.setWidth 6) 0 0)
  | .rdah g d a => some (.of 0x35 g d (a.setWidth 6) 0 0)
  | .ceqa g d a b => some (.of 0x36 g (d.setWidth 6) (a.setWidth 6) (b.setWidth 6) 0)
  | .suba g d a b => some (.of 0x37 g d (a.setWidth 6) (b.setWidth 6) 0)
  | .qrd g d n w => some (.of 0x38 g d (n.setWidth 6) 0 (w.setWidth 17))
  | .br g off => some (.of 0x40 g (off.extractLsb' 29 6) (off.extractLsb' 23 6) (off.extractLsb' 17 6) (off.extractLsb' 0 17))
  | .jmp g a => some (.of 0x41 g 0 a 0 0)
  | .call g off => some (.of 0x42 g (off.extractLsb' 29 6) (off.extractLsb' 23 6) (off.extractLsb' 17 6) (off.extractLsb' 0 17))
  | .calli g a => some (.of 0x43 g 0 a 0 0)
  | .ret g => some (.of 0x44 g 0 0 0 0)
  | .loop g off => some (.of 0x45 g (off.extractLsb' 29 6) (off.extractLsb' 23 6) (off.extractLsb' 17 6) (off.extractLsb' 0 17))
  | .spec g imm => some (.of 0x46 g 0 0 0 imm)
  | .spok g a => some (.of 0x47 g 0 (a.setWidth 6) 0 0)
  | .waits g n t => some (.of 0x48 g 0 0 0 ((0#1 ++ t) ++ n))
  | .sigs g n t => some (.of 0x49 g 0 0 0 ((0#1 ++ t) ++ n))
  | .semset g a n => some (.of 0x4A g 0 a 0 (n.setWidth 17))
  | .semrd g d n => some (.of 0x4B g d 0 0 (n.setWidth 17))
  | .retire g => some (.of 0x4C g 0 0 0 0)
  | .retireFail g c => some (.of 0x4C g 0 0 0 (1#9 ++ c))
  | .retireRequeue g => some (.of 0x4C g 0 0 0 512)
  | .rest g => some (.of 0x4D g 0 0 0 0)
  | .yield g => some (.of 0x4E g 0 0 0 0)
  | .trap g imm => some (.of 0x4F g 0 0 0 imm)
  | .uiret g => some (.of 0x50 g 0 0 0 0)
  | .phase g a => some (.of 0x51 g 0 a 0 0)
  | .ldB g d a imm => some (.of 0x60 g d (a.setWidth 6) 0 imm)
  | .ldBu g d a imm => some (.of 0x61 g d (a.setWidth 6) 0 imm)
  | .ldH g d a imm => some (.of 0x62 g d (a.setWidth 6) 0 imm)
  | .ldHu g d a imm => some (.of 0x63 g d (a.setWidth 6) 0 imm)
  | .ldW g d a imm => some (.of 0x64 g d (a.setWidth 6) 0 imm)
  | .ldWu g d a imm => some (.of 0x65 g d (a.setWidth 6) 0 imm)
  | .ldD g d a imm => some (.of 0x66 g d (a.setWidth 6) 0 imm)
  | .stB g a b imm => some (.of 0x67 g 0 (a.setWidth 6) b imm)
  | .stH g a b imm => some (.of 0x68 g 0 (a.setWidth 6) b imm)
  | .stW g a b imm => some (.of 0x69 g 0 (a.setWidth 6) b imm)
  | .stD g a b imm => some (.of 0x6A g 0 (a.setWidth 6) b imm)
  | .ldaD g d a sc off => some (.of 0x6B g d (a.setWidth 6) 0 ((1#3 ++ sc) ++ off))
  | .stlD g a b sc off => some (.of 0x6C g 0 (a.setWidth 6) b ((2#3 ++ sc) ++ off))
  | .ldscD g d a off => some (.of 0x6D g d (a.setWidth 6) 0 ((4#3 ++ 4#3) ++ off))
  | .stscD g a b off => some (.of 0x6E g 0 (a.setWidth 6) b ((4#3 ++ 4#3) ++ off))
  | .pref g a imm => some (.of 0x6F g 0 (a.setWidth 6) 0 imm)
  | .ldsW g d a imm => some (.of 0x70 g d a 0 imm)
  | .ldsD g d a imm => some (.of 0x71 g d a 0 imm)
  | .stsW g a b imm => some (.of 0x72 g 0 a b imm)
  | .stsD g a b imm => some (.of 0x73 g 0 a b imm)
  | .aadd g d a b o sc off => some (.of 0x74 g d (a.setWidth 6) b ((o ++ sc) ++ off))
  | .aand g d a b o sc off => some (.of 0x75 g d (a.setWidth 6) b ((o ++ sc) ++ off))
  | .aor g d a b o sc off => some (.of 0x76 g d (a.setWidth 6) b ((o ++ sc) ++ off))
  | .axor g d a b o sc off => some (.of 0x77 g d (a.setWidth 6) b ((o ++ sc) ++ off))
  | .amin g d a b o sc off => some (.of 0x78 g d (a.setWidth 6) b ((o ++ sc) ++ off))
  | .amax g d a b o sc off => some (.of 0x79 g d (a.setWidth 6) b ((o ++ sc) ++ off))
  | .axchg g d a b o sc off => some (.of 0x7A g d (a.setWidth 6) b ((o ++ sc) ++ off))
  | .acas g d a b o sc off => some (.of 0x7B g d (a.setWidth 6) b ((o ++ sc) ++ off))
  | .fence g o sc => some (.of 0x7C g 0 0 0 ((o ++ sc) ++ 0#11))
  | .lsmark g => some (.of 0x7D g 0 0 0 0)
  | .efence g => some (.of 0x7E g 0 0 0 0)
  | .qbind g n a => some (.of 0x80 g (n.setWidth 6) (a.setWidth 6) 0 0)
  | .qunb g n => some (.of 0x81 g (n.setWidth 6) 0 0 0)
  | .enq g a b => some (.of 0x82 g 0 (a.setWidth 6) b 0)
  | .deq g d a => some (.of 0x83 g d (a.setWidth 6) 0 0)
  | .enqt g a b => some (.of 0x84 g 0 (a.setWidth 6) b 0)
  | .deqt g d a b => some (.of 0x85 g d (a.setWidth 6) b 0)
  | .qinit g a b lc es md => some (.of 0x86 g 0 (a.setWidth 6) (b.setWidth 6) (((0#5 ++ md) ++ es) ++ lc))
  | .join g a => some (.of 0x88 g 0 (a.setWidth 6) 0 0)
  | .leave g a => some (.of 0x89 g 0 (a.setWidth 6) 0 0)
  | .gbar g a => some (.of 0x8A g 0 (a.setWidth 6) 0 0)
  | .gcount g d a => some (.of 0x8B g d (a.setWidth 6) 0 0)
  | .spawn g a => some (.of 0x8C g 0 (a.setWidth 6) 0 0)
  | .jdec g a => some (.of 0x8D g 0 (a.setWidth 6) 0 0)
  | .cdset g n a off sz => some (.of 0x90 g (n.setWidth 6) a 0 ((0#8 ++ sz) ++ off))
  | .cdadr g n a off => some (.of 0x91 g (n.setWidth 6) (a.setWidth 6) 0 (off.setWidth 17))
  | .cdrd g d n off sz => some (.of 0x92 g d (n.setWidth 6) 0 ((0#8 ++ sz) ++ off))
  | .cdld g n a imm => some (.of 0x93 g (n.setWidth 6) (a.setWidth 6) 0 imm)
  | .tcfg g t a => some (.of 0x94 g (t.setWidth 6) a 0 0)
  | .trd g d t => some (.of 0x95 g d (t.setWidth 6) 0 0)
  | .csrr g d ix => some (.of 0xA0 g d 0 0 (ix.setWidth 17))
  | .csrw g a ix => some (.of 0xA1 g 0 a 0 (ix.setWidth 17))
  | .eret g => some (.of 0xA2 g 0 0 0 0)
  | .swap g n => some (.of 0xA3 g 0 0 0 (n.setWidth 17))
  | .tlbinvPage g a b k => some (.of 0xA4 g 0 (a.setWidth 6) b ((0#14 ++ k) ++ 0#2))
  | .tlbinvCtx g b k => some (.of 0xA4 g 0 0 b ((0#14 ++ k) ++ 1#2))
  | .tlbinvAll g k => some (.of 0xA4 g 0 0 0 ((0#14 ++ k) ++ 2#2))
  | .jbegin g d => some (.of 0xA5 g d 0 0 0)
  | .jwrite g a b => some (.of 0xA6 g 0 a b 0)
  | .jcommit g => some (.of 0xA7 g 0 0 0 0)
  | .jabort g => some (.of 0xA8 g 0 0 0 0)
  | .jverifyCrc g d a b => some (.of 0xA9 g d a b 0)
  | .jverifyWear g d a => some (.of 0xA9 g d a 0 1)
  | .jverifyStatus g d => some (.of 0xA9 g d 0 0 2)
  | .wake g a => some (.of 0xAA g 0 a 0 0)
  | .scrubrRange g d a b n => some (.of 0xAB g d (a.setWidth 6) b ((0#7 ++ n) ++ 0#2))
  | .scrubrSecded g d n => some (.of 0xAB g d 0 0 ((0#7 ++ n) ++ 1#2))
  | .scrubrDected g d n => some (.of 0xAB g d 0 0 ((0#7 ++ n) ++ 2#2))
  | .lgwait g d => some (.of 0xAC g d 0 0 0)
  | _ => none

/-- The V-format fields of an instruction of the V grid (R52); none for every other row. -/
def encodeVFields (i : Instr) : Option VFields :=
  match i with
  | .vnop => some (.of 0x00 .always 0 0 0 0 0 0)
  | .vadd g ty m vd va vb => some (.of 0x01 g ty vd va vb 0 m)
  | .vsub g ty m vd va vb => some (.of 0x02 g ty vd va vb 0 m)
  | .vmul g ty m vd va vb => some (.of 0x03 g ty vd va vb 0 m)
  | .vmulHi g ty vd va vb => some (.of 0x03 g ty vd va vb 0 1)
  | .vfma g ty m vd va vb vc => some (.of 0x04 g ty vd va vb vc m)
  | .vfms g ty m vd va vb vc => some (.of 0x05 g ty vd va vb vc m)
  | .vmin g ty m vd va vb => some (.of 0x06 g ty vd va vb 0 m)
  | .vmax g ty m vd va vb => some (.of 0x07 g ty vd va vb 0 m)
  | .vabs g ty vd va => some (.of 0x08 g ty vd va 0 0 0)
  | .vneg g ty vd va => some (.of 0x09 g ty vd va 0 0 0)
  | .vdiv g ty m vd va vb => some (.of 0x0A g ty vd va vb 0 m)
  | .vsqrt g ty m vd va => some (.of 0x0B g ty vd va 0 0 m)
  | .vrcp g ty m vd va => some (.of 0x0C g ty vd va 0 0 m)
  | .vrsq g ty m vd va => some (.of 0x0D g ty vd va 0 0 m)
  | .vexp2 g ty m vd va => some (.of 0x0E g ty vd va 0 0 m)
  | .vlog2 g ty m vd va => some (.of 0x0F g ty vd va 0 0 m)
  | .vadds g ty vd va vb => some (.of 0x10 g ty vd va vb 0 0)
  | .vsubs g ty vd va vb => some (.of 0x11 g ty vd va vb 0 0)
  | .vand g ty vd va vb => some (.of 0x12 g ty vd va vb 0 0)
  | .vor g ty vd va vb => some (.of 0x13 g ty vd va vb 0 0)
  | .vxor g ty vd va vb => some (.of 0x14 g ty vd va vb 0 0)
  | .vnot g ty vd va => some (.of 0x15 g ty vd va 0 0 0)
  | .vshl g ty vd va (.vec vb) => some (.of 0x16 g ty vd va vb 0 0)
  | .vshl g ty vd va (.imm k) => some (.of 0x16 g ty vd va (k.setWidth 11) 0 1)
  | .vshr g ty vd va (.vec vb) => some (.of 0x17 g ty vd va vb 0 0)
  | .vshr g ty vd va (.imm k) => some (.of 0x17 g ty vd va (k.setWidth 11) 0 1)
  | .vsar g ty vd va (.vec vb) => some (.of 0x18 g ty vd va vb 0 0)
  | .vsar g ty vd va (.imm k) => some (.of 0x18 g ty vd va (k.setWidth 11) 0 1)
  | .vceq g ty pd va vb => some (.of 0x19 g ty (pd.setWidth 11) va vb 0 0)
  | .vclt g ty pd va vb => some (.of 0x1A g ty (pd.setWidth 11) va vb 0 0)
  | .vcle g ty pd va vb => some (.of 0x1B g ty (pd.setWidth 11) va vb 0 0)
  | .vcne g ty pd va vb => some (.of 0x1C g ty (pd.setWidth 11) va vb 0 0)
  | .vsel g ty vd c va vb => some (.of 0x1D g ty vd va vb (c.setWidth 11) 0)
  | .vmov g ty vd va => some (.of 0x1E g ty vd va 0 0 0)
  | .vbcast g ty vd a => some (.of 0x1F g ty vd (a.setWidth 11) 0 0 0)
  | .viota g ty m vd a => some (.of 0x20 g ty vd (a.setWidth 11) 0 0 m)
  | .vredadd g ty m vd va => some (.of 0x21 g ty vd va 0 0 m)
  | .vredmax g ty vd va => some (.of 0x22 g ty vd va 0 0 0)
  | .vredmin g ty vd va => some (.of 0x23 g ty vd va 0 0 0)
  | .vperm g ty vd va vb => some (.of 0x24 g ty vd va vb 0 0)
  | .vshuf g ty vd va vb vc => some (.of 0x25 g ty vd va vb vc 0)
  | .vrot g ty vd va (.imm k) => some (.of 0x26 g ty vd va (k.setWidth 11) 0 0)
  | .vrot g ty vd va (.reg b) => some (.of 0x26 g ty vd va (b.setWidth 11) 0 1)
  | .vcvt g ty m vd va sr pt gp => some (.of 0x27 g ty vd va (sr.setWidth 11) ((0#4 ++ gp) ++ pt) m)
  | .vld g ty vd a off => some (.of 0x28 g ty vd (a.setWidth 11) (off.extractLsb' 11 11) (off.extractLsb' 0 11) 0)
  | .vst g ty vd a off => some (.of 0x29 g ty vd (a.setWidth 11) (off.extractLsb' 11 11) (off.extractLsb' 0 11) 0)
  | .vgath g ty vd a off => some (.of 0x2A g ty vd (a.setWidth 11) (off.extractLsb' 11 11) (off.extractLsb' 0 11) 0)
  | .vscat g ty vd a off => some (.of 0x2B g ty vd (a.setWidth 11) (off.extractLsb' 11 11) (off.extractLsb' 0 11) 0)
  | .vlds g ty vd a off => some (.of 0x2C g ty vd (a.setWidth 11) (off.extractLsb' 11 11) (off.extractLsb' 0 11) 0)
  | .vsts g ty vd a off => some (.of 0x2D g ty vd (a.setWidth 11) (off.extractLsb' 11 11) (off.extractLsb' 0 11) 0)
  | .vmvs g ty d va (.imm k) => some (.of 0x2E g ty (d.setWidth 11) va (k.setWidth 11) 0 0)
  | .vmvs g ty d va (.reg b) => some (.of 0x2E g ty (d.setWidth 11) va (b.setWidth 11) 0 1)
  | .vins g ty vd a (.imm k) => some (.of 0x2F g ty vd (a.setWidth 11) (k.setWidth 11) 0 0)
  | .vins g ty vd a (.reg b) => some (.of 0x2F g ty vd (a.setWidth 11) (b.setWidth 11) 0 1)
  | .venq g a vb => some (.of 0x30 g 0 0 (a.setWidth 11) vb 0 0)
  | .vqrd g vd n => some (.of 0x31 g 0 vd (n.setWidth 11) 0 0 0)
  | .trw g ty t v (.imm k) => some (.of 0x32 g ty 0 v (k.setWidth 11) (t.setWidth 11) 0)
  | .trw g ty t v (.reg b) => some (.of 0x32 g ty 0 v (b.setWidth 11) (t.setWidth 11) 1)
  | .trr g ty t v (.imm k) => some (.of 0x33 g ty v 0 (k.setWidth 11) (t.setWidth 11) 0)
  | .trr g ty t v (.reg b) => some (.of 0x33 g ty v 0 (b.setWidth 11) (t.setWidth 11) 1)
  | .tcw g ty t v (.imm k) => some (.of 0x34 g ty 0 v (k.setWidth 11) (t.setWidth 11) 0)
  | .tcw g ty t v (.reg b) => some (.of 0x34 g ty 0 v (b.setWidth 11) (t.setWidth 11) 1)
  | .tcr g ty t v (.imm k) => some (.of 0x35 g ty v 0 (k.setWidth 11) (t.setWidth 11) 0)
  | .tcr g ty t v (.reg b) => some (.of 0x35 g ty v 0 (b.setWidth 11) (t.setWidth 11) 1)
  | .tzero g t => some (.of 0x36 g 0 0 0 0 (t.setWidth 11) 0)
  | .tmov g t s => some (.of 0x37 g 0 0 (s.setWidth 11) 0 (t.setWidth 11) 0)
  | .affset g t va vb (.imm k) => some (.of 0x38 g 11 (k ++ t) va vb 0 0)
  | .affset g t va vb (.reg c) => some (.of 0x38 g 11 (t.setWidth 11) va vb (c.setWidth 11) 1)
  | .scan g t k => some (.of 0x39 g 11 0 0 (k.setWidth 11) (t.setWidth 11) 0)
  | .apply g vd t (.imm k) (.vec va) => some (.of 0x3A g 10 vd va (k.setWidth 11) (t.setWidth 11) 0)
  | .apply g vd t (.imm k) (.carry m) => some (.of 0x3A g 10 vd 0 (k.setWidth 11) ((0#5 ++ m) ++ t) 1)
  | .apply g vd t (.reg b) (.vec va) => some (.of 0x3A g 10 vd va (b.setWidth 11) (t.setWidth 11) 2)
  | .apply g vd t (.reg b) (.carry m) => some (.of 0x3A g 10 vd 0 (b.setWidth 11) ((0#5 ++ m) ++ t) 3)
  | .kld g k va => some (.of 0x3B g 11 0 va 0 (k.setWidth 11) 0)
  | .kst g vd k => some (.of 0x3C g 11 vd 0 0 (k.setWidth 11) 0)
  | _ => none

/-- The M-format fields of an instruction of the M grid (R53). -/
def encodeMFields (i : Instr) : Option MFields :=
  match i with
  | .mnop => some ⟨0, 0, 0, 0, 0, 0, 0, 0, 0⟩
  | .mma t oa ob fmt acc ws wt ss => some ⟨1, t, oa, ob, fmt, acc, ws, wt, ss⟩
  | .lease ss => some ⟨2, 0, 0, 0, 0, 0, 0, 0, ss⟩
  | .unlease => some ⟨3, 0, 0, 0, 0, 0, 0, 0, 0⟩
  | .oclaim oa => some ⟨4, 0, oa, 0, 0, 0, 0, 0, 0⟩
  | .orelease oa => some ⟨5, 0, oa, 0, 0, 0, 0, 0, 0⟩
  | .ofill ob oa ws wt ss => some ⟨6, 0, oa, ob, 0, 0, ws, wt, ss⟩
  | .mrep n sa sb st => some ⟨7, 0, n, 0, ((0#1 ++ BitVec.ofBool sa) ++ BitVec.ofBool sb) ++ BitVec.ofBool st, 0, 0, 0, 0⟩
  | _ => none

/-- The X-format fields of an instruction of the X grid (R53). -/
def encodeXFields (i : Instr) : Option XFields :=
  match i with
  | .xnop => some ⟨0, 0, 0, 0⟩
  | .xexp vd va b => some ⟨1, vd, va, b.setWidth 4⟩
  | .xtrn vd va w => some ⟨2, vd, va, w.setWidth 4⟩
  | .xcvt vd va p q => some ⟨3, vd, va, p ++ q⟩
  | .xhad vd va h => some ⟨4, vd, va, h.setWidth 4⟩
  | .xqnt vd va f k => some ⟨5, vd, va, f ++ k⟩
  | .xdqn vd va f => some ⟨6, vd, va, f ++ 0#3⟩
  | _ => none

/-- The C-format fields of an instruction of the C grid (R53). -/
def encodeCFields (i : Instr) : Option CFields :=
  match i with
  | .cnop => some ⟨0, 0, 0, 0, 0, 0, 0, 0⟩
  | .copy cd ws wt ss si cm => some ⟨1, cd, ws, wt, ss, si, cm.setWidth 3, 0⟩
  | .copyn cd ws wt ss si cm => some ⟨2, cd, ws, wt, ss, si, cm.setWidth 3, 0⟩
  | .copyd cd wt ss si cm => some ⟨3, cd, 0, wt, ss, si, cm.setWidth 3, 0⟩
  | _ => none

/-- The slot word of an instruction, by the slot class that takes it. -/
inductive SlotWord where
  | s (s1 : Bool) (w : BitVec 48)
  | v (w : BitVec 64)
  | m (w : BitVec 48)
  | x (w : BitVec 32)
  | c (w : BitVec 48)
  deriving DecidableEq, Repr

/-- R50, R55: an instruction of rows 0x6-0x9 goes to S1, every other scalar instruction to S0. -/
def encode (i : Instr) : Option SlotWord :=
  match encodeSFields i, encodeVFields i, encodeMFields i, encodeXFields i, encodeCFields i with
  | some f, _, _, _, _ => some (.s (6 ≤ f.op.toNat / 16 && f.op.toNat / 16 ≤ 9) (packS f))
  | none, some f, _, _, _ => some (.v (packV f))
  | none, none, some f, _, _ => some (.m (packM f))
  | none, none, none, some f, _ => some (.x (packX f))
  | none, none, none, none, some f => some (.c (packC f))
  | none, none, none, none, none => none

/-- Decoding of a slot word by its slot class. -/
def decode (w : SlotWord) : Except Reject Instr :=
  match w with
  | .s s1 w => decodeS s1 w
  | .v w => decodeV w
  | .m w => decodeM w
  | .x w => decodeX w
  | .c w => decodeC w

/-- The bundle that holds one instruction, every other slot a no-op (R35, R55). -/
def bundleOf (w : SlotWord) : Bundle :=
  match w with
  | .s false w => packBundle 0 w 0 0 0 0 0 0
  | .s true w => packBundle 0 0 w 0 0 0 0 0
  | .v w => packBundle 0 0 0 w 0 0 0 0
  | .m w => packBundle 0 0 0 0 0 w 0 0
  | .x w => packBundle 0 0 0 0 0 0 w 0
  | .c w => packBundle 0 0 0 0 0 0 0 w

end Sys2Proof
end

