-- ==== Sys2Proof/Machine/Queue.lean ====
section
/-!
DEFINITION. Queue and group instructions, queue-head latches and POP, SPAWN and JDEC, and the events of their controllers (R72, R264-R283,
R287, R289).
-/

namespace Sys2Proof.Machine

/-! ### Issue (R264, R266) -/

/-- The address of a block: a multiple of 64, translated as an atomic; a block on a PEER page, in a slab or in MMIO raises PERMISSION
with EINFO 3 (R264, R266). -/
def State.blockAt (s : State) (aa : BitVec 4) (r : Nat → Try) : Try :=
  s.globalAt (s.ea aa 0) 64 64 3 none fun pa peer =>
    if peer.isSome || !blockable pa then .trap { code := 0x11, info := 3, addr := s.ar aa } else r pa

/-- A queue or group instruction is not allowed in a region (R86). -/
def State.queueSlot (s : State) (op : Nat) (r : Try) : Try := s.forbid op false true false r

/-- A queue operation of the acting strand on the block at `pa`. -/
def State.newOp (s : State) (kind : AccKind) (aa : BitVec 4) (pa : Nat) : Acc :=
  { id := 0, kind := kind, order := s.order, va := s.ar aa, pa := pa, size := 64 }

/-! ### Latches (R72, R272-R274) -/

/-- The latches before any of this bundle's POP, QBIND or QUNB (R32, R267). -/
def State.seen (s : State) : State :=
  s.modBk fun b => match b.qSeen with
    | some (o, _) => if o = s.order then b else { b with qSeen := some (s.order, b.q) }
    | none => { b with qSeen := some (s.order, b.q) }

/-- Latch `n` as a slot of this bundle reads it. -/
def State.latch (s : State) (n : Nat) : Latch :=
  match s.bk.qSeen with
  | some (o, m) => if o = s.order then mapGet (fun _ => ({} : Latch)) m n else s.bk.qget n
  | none => s.bk.qget n

/-- QRD (R72) -/
def execQrd (g : Guard) (d : BitVec 6) (n : BitVec 4) (w : BitVec 5) (s : State) : Host.Outcome State Fault Refusal :=
  let l := s.latch n.toNat
  s.guarded g (.ok (s.landS d
    (if l.bound = false ∨ l.esize ≤ 8 * w.toNat then 0 else BitVec.ofNat 64 (bitsOf l.elem (64 * w.toNat) 64)) 1))

/-- VQRD (R274) -/
def execVqrd (g : Guard) (vd : BitVec 11) (n : BitVec 4) (s : State) : Host.Outcome State Fault Refusal :=
  let l := s.latch n.toNat
  s.guarded g (s.vneed [(vd.toNat, 0)]
    (.ok (s.landV vd (if l.bound then BitVec.ofNat 2048 (l.elem % 2 ^ (8 * l.esize)) else 0) 2)))

/-- QBIND (R272, R273): the latch is bound at issue, and its refill is translated as it is sent. -/
def execQbind (g : Guard) (n : BitVec 4) (aa : BitVec 4) (s : State) : Host.Outcome State Fault Refusal :=
  let va := s.ar aa
  s.guarded g (s.queueSlot 0x80 (s.noGuard 0x80
    (if va.toNat % 64 ≠ 0 then .trap (alignTrap 64 va)
     else
       let t := (s.seen.releaseLatch s.cur.core s.cur.pos n.toNat false).modBk fun b => b.qput n.toNat { bound := true, va := va }
       .ok (t.sendRefill s.cur.core s.cur.pos n.toNat s.cur.slot))))

/-- QUNB (R272) -/
def execQunb (g : Guard) (n : BitVec 4) (s : State) : Host.Outcome State Fault Refusal :=
  s.guarded g (s.queueSlot 0x81 (.ok (s.seen.releaseLatch s.cur.core s.cur.pos n.toNat false)))

/-- POP of one latch (R273): the element is discarded, and a refill is sent. -/
def State.popLatch (s : State) (n : Nat) : State :=
  let l := s.bk.qget n
  if l.bound = false then s
  else
    let s := s.issueAcc { id := 0, kind := .pop n, order := s.order, va := l.va, pa := l.pa, size := 64 } false
    s.sendRefill s.cur.core s.cur.pos n 7

/-- POP (R31, R32, R273, R278): the bits of the header, in rising order. The pop of a bound latch is a queue operation (R267), so that it is
refused in a region (R86); a header holds no opcode, and EINFO is 0 (log 65). -/
def execPop (mask : BitVec 16) (s : State) : Host.Outcome State Fault Refusal :=
  s.settle (if s.bk.inSpec && (List.range 16).any (fun n => mask.getLsbD n && (s.bk.qget n).bound) then
      .trap { illegal 0 with slot := 7 }
    else if s.bk.guarded && mask != 0 then .trap { guardTrap 0 with slot := 7 }
    else .ok (((List.range 16).filter (fun n => mask.getLsbD n)).foldl (fun s n => s.popLatch n) s.seen))

/-! ### Queue instructions (R268-R270) -/

/-- QINIT (R268) -/
def execQinit (g : Guard) (aa ab : BitVec 4) (logCap : BitVec 5) (esz : BitVec 6) (md : BitVec 1) (s : State) :
    Host.Outcome State Fault Refusal :=
  let base := s.ar ab
  s.guarded g (s.queueSlot 0x86
    (if base.toNat % 8 ≠ 0 then .trap (alignTrap 8 base)
     else s.blockAt aa fun pa =>
       .ok (s.issueAcc { s.newOp .qinit aa pa with
         data := base.toNat, aux := logCap.toNat + esz.toNat * 32 + md.toNat * 2048 } true)))

/-- ENQ (R269) -/
def execEnq (g : Guard) (aa : BitVec 4) (b : BitVec 6) (s : State) : Host.Outcome State Fault Refusal :=
  s.guarded g (s.queueSlot 0x82 (s.blockAt aa fun pa => .ok (s.issueAcc { s.newOp .enq aa pa with data := (s.sr b).toNat } true)))

/-- DEQ (R269) -/
def execDeq (g : Guard) (d : BitVec 6) (aa : BitVec 4) (s : State) : Host.Outcome State Fault Refusal :=
  s.guarded g (s.queueSlot 0x83 (s.noGuard 0x83 (s.blockAt aa fun pa =>
    .ok (s.issueAcc { s.newOp .deq aa pa with dest := s.destS d } false))))

/-- The scratchpad offset of ENQT and DEQT (R269). -/
def State.elemAt (s : State) (b : BitVec 6) (r : Nat → Try) : Try :=
  let x := (s.sr b).toInt
  if x % 8 ≠ 0 then .trap (alignTrap 8 ((s.sr b).setWidth 80))
  else if x < 0 ∨ (Config.scratchBytes : Int) < x + 256 then .trap (causeTrap 0x09 (s.sr b))
  else r x.toNat

/-- ENQT (R269); the element's bytes are among the 256 from the offset on, read at issue. -/
def execEnqt (g : Guard) (aa : BitVec 4) (b : BitVec 6) (s : State) : Host.Outcome State Fault Refusal :=
  s.guarded g (s.queueSlot 0x84 (s.elemAt b fun x => s.blockAt aa fun pa =>
    match s.cr.scratchBad x 256 with
    | some o => .trap (ueTrap 2 o)
    | none => .ok (s.issueAcc { s.newOp .enq aa pa with data := natOfBytes (s.cr.scratchBytes x 256) } true)))

/-- DEQT (R269) -/
def execDeqt (g : Guard) (d : BitVec 6) (aa : BitVec 4) (b : BitVec 6) (s : State) : Host.Outcome State Fault Refusal :=
  s.guarded g (s.queueSlot 0x85 (s.noGuard 0x85 (s.elemAt b fun x => s.blockAt aa fun pa =>
    .ok (s.issueAcc { s.newOp .deqt aa pa with dest := s.destS d, aux := x } false))))

/-- VENQ (R270) -/
def execVenq (g : Guard) (aa : BitVec 4) (vb : BitVec 11) (s : State) : Host.Outcome State Fault Refusal :=
  s.guarded g (s.queueSlot 0x30 (s.vneed [(vb.toNat, BitVec.allOnes 2048)] (s.blockAt aa fun pa =>
    .ok (s.issueAcc { s.newOp .enq aa pa with data := (s.vget vb.toNat).toNat } true))))

/-! ### Groups (R280-R283) -/

/-- The GMEM entry that names a group. -/
def Bank.gmemOf (b : Bank) (va : Addr) : Option Nat := (b.gmem.find? (fun g => g.2.2 != 0 && g.2.1 == va)).map (·.1)
def Bank.gmemFree (b : Bank) : Option Nat := [0, 1, 2, 3].find? (fun i => (mapGet (fun _ => ((0 : Addr), 0)) b.gmem i).2 == 0)
def Bank.putGmem (b : Bank) (i : Nat) (v : Addr × Nat) : Bank := { b with gmem := mapSet (fun _ => ((0 : Addr), 0)) b.gmem i v }
def Bank.dropGmem (b : Bank) (va : Addr) : Bank := match b.gmemOf va with | some i => b.putGmem i (0, 0) | none => b

/-- A group instruction: the address's alignment, the strand's own check, then the block (R280, R282). -/
def State.groupOp (s : State) (g : Guard) (op : Nat) (guardFree : Bool) (aa : BitVec 4) (check : Option Nat) (r : Nat → Try) :
    Host.Outcome State Fault Refusal :=
  let body : Try :=
    if (s.ar aa).toNat % 64 ≠ 0 then .trap (alignTrap 64 (s.ar aa))
    else match check with
      | some k => .trap { code := 0x16, info := BitVec.ofNat 64 k, addr := s.ar aa }
      | none => s.blockAt aa r
  s.guarded g (s.queueSlot op (if guardFree then s.noGuard op body else body))

/-- JOIN (R282) -/
def execJoin (g : Guard) (aa : BitVec 4) (s : State) : Host.Outcome State Fault Refusal :=
  let b := s.bk
  s.groupOp g 0x88 true aa
    (if (b.gmemOf (s.ar aa)).isSome then some 0x11 else if b.gmemFree.isNone then some 0x10 else none) fun pa =>
    .ok ((s.issueAcc (s.newOp .join aa pa) false).modBk fun b => b.putGmem (b.gmemFree.getD 0) (s.ar aa, pa))

/-- LEAVE (R282) -/
def execLeave (g : Guard) (aa : BitVec 4) (s : State) : Host.Outcome State Fault Refusal :=
  s.groupOp g 0x89 true aa (if (s.bk.gmemOf (s.ar aa)).isNone then some 0x12 else none) fun pa =>
    .ok ((s.issueAcc (s.newOp .leave aa pa) false).modBk fun b => b.dropGmem (s.ar aa))

/-- GBAR (R282) -/
def execGbar (g : Guard) (aa : BitVec 4) (s : State) : Host.Outcome State Fault Refusal :=
  s.groupOp g 0x8A true aa (if (s.bk.gmemOf (s.ar aa)).isNone then some 0x12 else none) fun pa =>
    .ok (s.issueAcc (s.newOp .gbar aa pa) false)

/-- GCOUNT (R282) -/
def execGcount (g : Guard) (d : BitVec 6) (aa : BitVec 4) (s : State) : Host.Outcome State Fault Refusal :=
  s.groupOp g 0x8B false aa none fun pa => .ok (s.issueAcc { s.newOp .gcount aa pa with dest := s.destS d } false)

/-! ### SPAWN and JDEC (R289) -/

/-- A record lies in local memory (R285); elsewhere its address raises PERMISSION as a block's does. -/
def State.recordOp (s : State) (g : Guard) (op : Nat) (kind : AccKind) (aa : BitVec 4) : Host.Outcome State Fault Refusal :=
  s.guarded g (s.queueSlot op (s.globalAt (s.ea aa 0) 64 64 3 none fun pa peer =>
    if peer.isSome || !isLocal pa || isSlab pa then .trap { code := 0x11, info := 3, addr := s.ar aa }
    else .ok (s.issueAcc (s.newOp kind aa pa) true)))

/-- SPAWN (R289) -/
def execSpawn (g : Guard) (aa : BitVec 4) (s : State) : Host.Outcome State Fault Refusal := s.recordOp g 0x8C .spawn aa
/-- JDEC (R289) -/
def execJdec (g : Guard) (aa : BitVec 4) (s : State) : Host.Outcome State Fault Refusal := s.recordOp g 0x8D .jdec aa

/-! ### Controller events -/

/-- Whether a refresh holds an operation back at its controller (R212): at its block, or at the element that it moves. -/
def State.controllerHeld (s : State) (c ctx : Nat) (a : Acc) : Bool :=
  let q := s.qblock a.pa
  let ring (n : Nat) (write : Bool) : Bool :=
    match (s.ringAt c ctx a.user q n write).2 with
    | .ok l => l.any (fun e => s.refreshing e.1)
    | .error _ => false
  s.refreshing a.pa || (a.kind.isEnq && ring q.tail true) || (a.kind.isTake && ring q.head false)

/-- An operation reaches its controller, where the strand's order lets it (R237, R266, R267). -/
def State.atController (s : State) (p : AccKind → Bool) (f : State → Nat → Nat → Acc → State) : State :=
  let b := s.bank s.ev.core s.ev.pos
  match b.acc? s.ev.id with
  | some a => if p a.kind && a.st == .queued && b.mayPerform a && !s.controllerHeld s.ev.core b.ctx a then (f s s.ev.core b.uid a).modBank s.ev.core s.ev.pos (·.tidy) else s
  | none => s

/-- QUEUE_PERFORM: operands core, pos, id. -/
def execQueuePerform (s : State) : Host.Outcome State Fault Refusal :=
  .next (s.atController (fun k => k.queueOp && !k.isRefill) (fun s c uid a => s.queuePerform c uid a))
/-- LATCH_REFILL: operands core, pos, id. -/
def execLatchRefill (s : State) : Host.Outcome State Fault Refusal :=
  .next (s.atController (fun k => k.isRefill) (fun s c uid a => s.queuePerform c uid a))
/-- GROUP_PERFORM: operands core, pos, id. -/
def execGroupPerform (s : State) : Host.Outcome State Fault Refusal :=
  .next (s.atController (fun k => k == .join || k == .leave || k == .gbar || k == .gcount) (fun s c uid a => s.groupPerform c uid a))

/-- A failure found at a controller (R266, R273, R282): the cause is raised at the next bundle; a latch ends unbound, a refused JOIN
loses its entry, a pending destination takes a free value (log 5). -/
def State.reportFailure (s : State) (c p : Nat) (a : Acc) (t : Trap) : State :=
  let v := Config.freeWord s.fresh
  let s := s.drawn
  s.modBank c p fun b =>
    let b := { b.unpend a.dest with async := b.async ++ [t] }
    let b := match a.kind with
      | .refill n => b.unbind n
      | .join => b.dropGmem a.va
      | _ => b.applyWrite (deliverWrite a.dest v) a.order
    b.dropAcc a.id

/-- CONTROLLER_REPORT (R266): operands core, pos, id. -/
def execControllerReport (s : State) : Host.Outcome State Fault Refusal :=
  let c := s.ev.core
  let p := s.ev.pos
  match (s.bank c p).acc? s.ev.id with
  | none => .next s
  | some a =>
    match a.st, a.err with
    | .waiting, _ =>
      let gang := match a.kind with | .lgwait _ => true | _ => false
      if a.peer.isSome || gang then .next s else .next (s.modBank c p fun b => b.modAcc a.id fun x => { x with told := true })
    | .performed, some t => .next (s.reportFailure c p a t)
    | .performed, none => if a.kind.delivers then .next s else .next (s.modBank c p fun b => b.dropAcc a.id)
    | _, _ => .next s

/-- Whether an operation of the strand waits, as its core has been told (R266). -/
def Bank.reported (b : Bank) : Bool := b.accs.any (fun a => a.told && a.st != .failed && !a.kind.isRefill)

/-- RESERVATION_TABLE_WAIT_END (R275): operands die. -/
def execReservationTableWaitEnd (s : State) : Host.Outcome State Fault Refusal :=
  .next (s.wakeTable s.ev.die ((s.die s.ev.die).waiters.length + 1))

/-- JOIN_DECREMENT (R287): operands die, pa. -/
def execJoinDecrement (s : State) : Host.Outcome State Fault Refusal :=
  .next (s.joinDec s.ev.va s.ev.pa s.ev.ctx)

end Sys2Proof.Machine
end

