-- ==== Sys2Proof/Machine/Scratch.lean ====
section
/-!
DEFINITION. Semaphore instructions (R144), LDS and STS (R140), vector scratchpad forms (R135) and the bank turns of a bundle's
scratchpad accesses (R136).
-/

namespace Sys2Proof.Machine

/-! ### Semaphores (R142, R144) -/

/-- WAITS (R144): the bundle blocks until the count is at least t. -/
def execWaits (g : Guard) (n : BitVec 8) (t : BitVec 8) (s : State) : Host.Outcome State Fault Refusal :=
  s.guarded g (s.semNeed [n.toNat]
    (let k := s.bk.semPhys n.toNat
     if s.cr.semReady k t.toNat then .ok (if k = 0 then s else s.modCr fun x => x.takeSem k t.toNat) else .block (.sem k t.toNat) s))

/-- SIGS (R144). -/
def execSigs (g : Guard) (n : BitVec 8) (i : BitVec 8) (s : State) : Host.Outcome State Fault Refusal :=
  s.guarded g (s.semNeed [n.toNat]
    (let k := s.bk.semPhys n.toNat
     .ok (if k = 0 then s else s.modCr fun x => x.signal k i.toNat s.bk.uid)))

/-- SEMSET (R144). -/
def execSemset (g : Guard) (a : BitVec 6) (n : BitVec 8) (s : State) : Host.Outcome State Fault Refusal :=
  s.guarded g (s.semNeed [n.toNat]
    (let k := s.bk.semPhys n.toNat
     .ok (if k = 0 then s else s.modCr fun x => { x with semSet := x.semSet ++ [(k, min (s.sr a).toNat 0xFFFF)] })))

/-- SEMRD (R144): the count at the start of the issue clk. -/
def execSemrd (g : Guard) (d : BitVec 6) (n : BitVec 8) (s : State) : Host.Outcome State Fault Refusal :=
  s.guarded g (s.semNeed [n.toNat] (.ok (s.landS d (BitVec.ofNat 64 (s.cr.semCount (s.bk.semPhys n.toNat))) 1)))

/-! ### Scalar scratchpad access (R140) -/

/-- SignExt(s[A], 64) + SignExt(IMM, 17). -/
def State.scratchOff (s : State) (a : BitVec 6) (imm : BitVec 17) : Int := (s.sr a).toInt + imm.toInt

/-- The checks of R140 on `n` bytes at offset x, in the order ALIGN, SCRATCH_RANGE. -/
def scratchCheck (align n : Nat) (x : Int) : Option Trap :=
  if x % (align : Int) ≠ 0 then some (alignTrap align ((BitVec.ofInt 64 x).setWidth 80))
  else if x < 0 ∨ (Config.scratchBytes : Int) < x + n then some (causeTrap 0x09 (BitVec.ofInt 64 x))
  else none

/-- LDS: the bytes as they stand at the start of the issue clk (R137). -/
def State.lds (s : State) (d : BitVec 6) (a : BitVec 6) (imm : BitVec 17) (n : Nat) : Try :=
  let x := s.scratchOff a imm
  match scratchCheck n n x with
  | some t => .trap t
  | none =>
    match s.cr.scratchBad x.toNat n with
    | some o => .trap (ueTrap 2 o)
    | none => .ok (s.landS d (BitVec.ofNat 64 (natOfBytes (s.cr.scratchBytes x.toNat n))) 5)

def State.sts (s : State) (a b : BitVec 6) (imm : BitVec 17) (n : Nat) : Try :=
  let x := s.scratchOff a imm
  match scratchCheck n n x with
  | some t => .trap t
  | none => .ok (s.storeScratch x.toNat ((bytesOfNat n (s.sr b).toNat).map some))

/-- LDS.W (R140) -/
def execLdsW (g : Guard) (d : BitVec 6) (a : BitVec 6) (imm : BitVec 17) (s : State) : Host.Outcome State Fault Refusal :=
  s.guarded g (s.lds d a imm 4)
/-- LDS.D (R140) -/
def execLdsD (g : Guard) (d : BitVec 6) (a : BitVec 6) (imm : BitVec 17) (s : State) : Host.Outcome State Fault Refusal :=
  s.guarded g (s.lds d a imm 8)
/-- STS.W (R140) -/
def execStsW (g : Guard) (a : BitVec 6) (b : BitVec 6) (imm : BitVec 17) (s : State) : Host.Outcome State Fault Refusal :=
  s.guarded g (s.sts a b imm 4)
/-- STS.D (R140) -/
def execStsD (g : Guard) (a : BitVec 6) (b : BitVec 6) (imm : BitVec 17) (s : State) : Host.Outcome State Fault Refusal :=
  s.guarded g (s.sts a b imm 8)

/-! ### Vector scratchpad access (R135) -/

/-- The offset of element i: base, signed offset and the form's e(i). -/
def State.elemOff (s : State) (a : BitVec 6) (off : BitVec 22) (e : Nat → Int) (i : Nat) : Int :=
  (s.sr a).toInt + off.toInt + e i

/-- The first failing check over the active elements in increasing order; `whole` is VLD and VST, whose alignment is that of
x(0) (R135). -/
def State.vectorCheck (s : State) (g : Guard) (w : Nat) (whole : Bool) (x : Nat → Int) : Option Trap :=
  let act := (List.range (2048 / w)).filter (fun i => s.active g w i)
  if whole then
    match scratchCheck 16 0 (x 0 % 16 : Int) with
    | some _ => some (alignTrap 16 ((BitVec.ofInt 64 (x 0)).setWidth 80))
    | none => act.findSome? (fun i => scratchCheck 1 (w / 8) (x i))
  else act.findSome? (fun i => scratchCheck (w / 8) (w / 8) (x i))

/-- A load form (R135, R137): the elements as they stand at the start of the issue clk. -/
def State.vload (s : State) (g : Guard) (ty : BitVec 4) (vd : BitVec 11) (whole : Bool) (lat : Nat) (x : Nat → Int) : Try :=
  let w := tyWidth ty
  match s.vectorCheck g w whole x with
  | some t => .trap t
  | none =>
    match (List.range (2048 / w)).findSome? (fun i =>
      if s.active g w i then s.cr.scratchBad (x i).toNat (w / 8) else none) with
    | some o => .trap (ueTrap 2 o)
    | none => .ok (s.elementwise g w vd lat (fun i => (natOfBytes (s.cr.scratchBytes (x i).toNat (w / 8)), 0)))

/-- A store form (R135): of two elements at one offset the higher is kept, as the bytes land in element order. -/
def State.vstore (s : State) (g : Guard) (ty : BitVec 4) (v : BitVec 11) (whole : Bool) (x : Nat → Int) : Try :=
  let w := tyWidth ty
  match s.vectorCheck g w whole x with
  | some t => .trap t
  | none =>
    let a := elems w (s.vget v.toNat)
    if whole then
      let bs := (List.range 256).map (fun k =>
        if s.active g w (k / (w / 8)) then some (BitVec.ofNat 8 (bitsOf (a.getD (k / (w / 8)) 0) (8 * (k % (w / 8))) 8)) else none)
      .ok (s.storeScratch (x 0).toNat (bs.drop (-(x 0)).toNat))
    else
      .ok ((List.range (2048 / w)).foldl (fun s' i =>
        if s.active g w i then s'.storeScratch (x i).toNat ((bytesOfNat (w / 8) (a.getD i 0)).map some) else s') s)

/-- The index element i of v(D + 1), zero-extended (R135). -/
def State.gatherIndex (s : State) (vd : BitVec 11) (i : Nat) : Int :=
  ((elems 32 (s.vget (vd.toNat + 1))).getD i 0 : Nat)

/-- The stride s[A + 1] as a signed byte count (R135). -/
def State.stride (s : State) (a : BitVec 6) (i : Nat) : Int := (i : Int) * (s.sr (a + 1)).toInt

/-- VLD (R135) -/
def execVld (g : Guard) (ty : BitVec 4) (vd : BitVec 11) (a : BitVec 6) (off : BitVec 22) (s : State) :
    Host.Outcome State Fault Refusal :=
  let w := tyWidth ty
  s.vslot g w (s.vneed [(vd.toNat, s.keepMask g w)] (s.vload g ty vd true 6 (s.elemOff a off (fun i => (i * (w / 8) : Nat)))))
/-- VST (R135). An uncorrectable word that the form reads traps before ALIGN and SCRATCH_RANGE are looked at (log 77). -/
def execVst (g : Guard) (ty : BitVec 4) (vd : BitVec 11) (a : BitVec 6) (off : BitVec 22) (s : State) :
    Host.Outcome State Fault Refusal :=
  let w := tyWidth ty
  s.vslot g w (s.vneed [(vd.toNat, s.activeMask g w)] (s.vstore g ty vd true (s.elemOff a off (fun i => (i * (w / 8) : Nat)))))
/-- VGATH (R135) -/
def execVgath (g : Guard) (ty : BitVec 4) (vd : BitVec 11) (a : BitVec 6) (off : BitVec 22) (s : State) :
    Host.Outcome State Fault Refusal :=
  s.vslot g 32 (s.vneed [(vd.toNat, s.keepMask g 32), (vd.toNat + 1, s.activeMask g 32)]
    (s.vload g ty vd false 10 (s.elemOff a off (s.gatherIndex vd))))
/-- VSCAT (R135) -/
def execVscat (g : Guard) (ty : BitVec 4) (vd : BitVec 11) (a : BitVec 6) (off : BitVec 22) (s : State) :
    Host.Outcome State Fault Refusal :=
  s.vslot g 32 (s.vneed [(vd.toNat, s.activeMask g 32), (vd.toNat + 1, s.activeMask g 32)]
    (s.vstore g ty vd false (s.elemOff a off (s.gatherIndex vd))))
/-- VLDS (R135) -/
def execVlds (g : Guard) (ty : BitVec 4) (vd : BitVec 11) (a : BitVec 6) (off : BitVec 22) (s : State) :
    Host.Outcome State Fault Refusal :=
  s.vslot g (tyWidth ty) (s.vneed [(vd.toNat, s.keepMask g (tyWidth ty))] (s.vload g ty vd false 6 (s.elemOff a off (s.stride a))))
/-- VSTS (R135) -/
def execVsts (g : Guard) (ty : BitVec 4) (vd : BitVec 11) (a : BitVec 6) (off : BitVec 22) (s : State) :
    Host.Outcome State Fault Refusal :=
  s.vslot g (tyWidth ty) (s.vneed [(vd.toNat, s.activeMask g (tyWidth ty))] (s.vstore g ty vd false (s.elemOff a off (s.stride a))))

/-! ### Bank turns (R136) -/

/-- The 16-byte chunks that the active elements of an access take. -/
def State.vchunks (s : State) (g : Guard) (w : Nat) (x : Nat → Int) : List Nat :=
  ((List.range (2048 / w)).filter (fun i => s.active g w i)).map (fun i => (x i).toNat / 16)

/-- The chunks of the scratchpad that an instruction's access needs. -/
def State.chunksOf (s : State) (i : Instr) : List Nat :=
  match i with
  | .ldsW g _ a imm | .ldsD g _ a imm | .stsW g a _ imm | .stsD g a _ imm =>
    if s.guard g then [(s.scratchOff a imm).toNat / 16] else []
  | .vld g ty _ a off | .vst g ty _ a off =>
    s.vchunks g (tyWidth ty) (s.elemOff a off (fun i => (i * (tyWidth ty / 8) : Nat)))
  | .vgath g _ vd a off | .vscat g _ vd a off => s.vchunks g 32 (s.elemOff a off (s.gatherIndex vd))
  | .vlds g ty _ a off | .vsts g ty _ a off => s.vchunks g (tyWidth ty) (s.elemOff a off (s.stride a))
  | _ => []

/-- k of R136: the largest number of distinct chunks that one bank must serve. -/
def bankTurns (chunks : List Nat) : Nat :=
  let cs := chunks.eraseDups
  (cs.map (fun c => (cs.filter (fun d => d % 96 == c % 96)).length)).foldl max 1

end Sys2Proof.Machine
end

