-- ==== Sys2Proof/Machine/Tiles.lean ====
section
/-!
DEFINITION. Tiles, slices and chunk carries (R165-R171) and affine pairs in the core (R195-R197).
-/

namespace Sys2Proof.Machine

/-! ### Shapes (R166, R167) -/

/-- Whether a word configures a legal shape of the strand (R166). -/
def Bank.shapeOk (b : Bank) (w : Word) : Bool :=
  fieldOf w 26 38 == 0 && !w.getLsbD 24 && shCols w != 0 && decide (shCols w ≤ 128) && decide (shRows w ≤ 128)
    && (shFmt w == 0x4 || shFmt w == 0xA || shFmt w == 0xB) && b.frameGranted (fieldOf w 20 4)
    && decide (shRows w * shCols w * shSize w ≤ 65536)

/-- TCFG (R166). -/
def execTcfg (g : Guard) (t : BitVec 4) (a : BitVec 6) (s : State) : Host.Outcome State Fault Refusal :=
  s.guarded g
    (let w := s.sr a
     let old := s.bk.tshape t.toNat
     if s.bk.tileOk t.toNat = false then .trap (rangeTrap 1 t.toNat)
     else if shValid old && s.cr.frameBusy (shFrame old) || s.cr.tileNamed s.bk.uid t.toNat then
       .block (.tiles (if shValid old then [shFrame old] else []) [t.toNat]) s
     else if shRows w = 0 then .ok (s.landCsr (0x040 + t.toNat) 0 (BitVec.allOnes 64))
     else if s.bk.shapeOk (putField w 25 1 0) then
       .ok (s.landCsr (0x040 + t.toNat) (putField w 25 1 1) (BitVec.allOnes 64))
     else .trap (shapeTrap t.toNat w))

/-- TRD (R167). -/
def execTrd (g : Guard) (d : BitVec 6) (t : BitVec 4) (s : State) : Host.Outcome State Fault Refusal :=
  s.guarded g (if s.bk.tileOk t.toNat then .ok (s.landS d (s.bk.tshape t.toNat) 1) else .trap (rangeTrap 1 t.toNat))

/-! ### Elements of a tile (R162) -/

/-- The accumulator-store offset of element (r, c). -/
def tileAt (w : Word) (r c : Nat) : Nat := 65536 * shFrame w + (r * shCols w + c) * shSize w
/-- Element (r, c), as bits. -/
def Core.tileElem (x : Core) (w : Word) (r c : Nat) : Nat := natOfBytes (x.accumBytes (tileAt w r c) (shSize w))
/-- An element written at latency `n` (R164). -/
def State.landElem (s : State) (w : Word) (r c v n : Nat) : State :=
  s.land (.frame (tileAt w r c) ((bytesOfNat (shSize w) v).map some)) n

/-- An immediate or register row or column index (R169, R195, R197). -/
def State.sliceIndex (s : State) (j : SliceIndex) : Nat :=
  match j with
  | .imm k => k.toNat
  | .reg b => (s.sr b).toNat

/-- TILE_SHAPE with the offending index (R168). -/
def indexTrap (t : Nat) (w : Word) (idx : Nat) : Trap :=
  { code := 0x08, info := BitVec.ofNat 64 (t + (idx % 256) * 256 + (w.toNat % 2 ^ 32) * 2 ^ 32) }

/-! ### Slices (R169) -/

/-- The elements of a slice, and how many registers its gains (or values) take. -/
def sliceLen (w : Word) (row : Bool) : Nat := if row then shCols w else shRows w
def sliceRegs (w : Word) (row : Bool) : Nat := (if 64 < sliceLen w row then 2 else 1) * (if shFmt w = 0xB then 2 else 1)

/-- The register lanes that hold slice element k: register offset and lane of the value or gain, and of the offset. -/
def sliceLane (w : Word) (row : Bool) (k : Nat) : (Nat × Nat) × (Nat × Nat) :=
  let hi := if 64 < sliceLen w row then 2 else 1
  ((k / 64, k % 64), (hi + k / 64, k % 64))

/-- The own checks of R169. -/
def State.sliceCheck (s : State) (ty : BitVec 4) (t v : Nat) (row : Bool) (idx : Nat) : Option Trap :=
  let w := s.bk.tshape t
  if ty.toNat ≠ shFmt w then some (shapeTrap t w)
  else if (if row then shRows w else shCols w) ≤ idx then some (indexTrap t w idx)
  else if v % sliceRegs w row ≠ 0 then some (shapeTrap t w)
  else none

/-- The lanes of a vector as written in a register of the slice, bits of lane i of register `v`. -/
def State.lane (s : State) (v i : Nat) : Nat := bitsOf (s.vget v).toNat (32 * i) 32

/-- Whether any element of the slice is active (R124, R169). -/
def State.sliceActive (s : State) (g : Guard) (w : Word) (row : Bool) : Bool :=
  (List.range 64).any (fun i => s.active g 32 i && (!shValid w || decide (i < sliceLen w row)))

/-- The registers that a slice uses, with the bits read: a source's active lanes, or the lanes that a destination keeps, which have a slice
element and are not active (R124, R169). -/
def State.sliceNeed (s : State) (g : Guard) (w : Word) (row read : Bool) (v : Nat) : List (Nat × VReg) :=
  let hi := if 64 < sliceLen w row then 2 else 1
  (List.range (if shValid w then sliceRegs w row else 1)).map (fun i =>
    (v + i, if read then s.activeMask g 32
            else packV 32 ((List.range 64).map (fun l =>
              if 64 * (i % hi) + l < sliceLen w row ∧ s.active g 32 l = false then 2 ^ 32 - 1 else 0))))

/-- TRW and TCW: active elements of the slice take the vector's lanes. -/
def State.sliceWrite (s : State) (g : Guard) (ty t : BitVec 4) (v : BitVec 11) (row : Bool) (j : SliceIndex) :
    Host.Outcome State Fault Refusal :=
  let w := s.bk.tshape t.toNat
  let idx := s.sliceIndex j
  if s.sliceActive g w row then
    s.settle (s.tneed (s.sliceNeed g w row true v.toNat) [t.toNat] (s.sliceCheck ty t.toNat v.toNat row idx) []
      (.ok ((List.range (sliceLen w row)).foldl (fun s' k =>
        if s.active g 32 (k % 64) then
          let l := sliceLane w row k
          let x := s.lane (v.toNat + l.1.1) l.1.2 +
            (if shFmt w = 0xB then 2 ^ 32 * s.lane (v.toNat + l.2.1) l.2.2 else 0)
          if row then s'.landElem w idx k x 3 else s'.landElem w k idx x 3
        else s') s)))
  else .next s

/-- TRR and TCR: inactive lanes keep the old destination; lanes without a slice element are written 0. -/
def State.sliceRead (s : State) (g : Guard) (ty t : BitVec 4) (v : BitVec 11) (row : Bool) (j : SliceIndex) :
    Host.Outcome State Fault Refusal :=
  let w := s.bk.tshape t.toNat
  let idx := s.sliceIndex j
  let n := sliceLen w row
  let at_ (k : Nat) : Nat × Nat := if row then (idx, k) else (k, idx)
  if s.sliceActive g w row then
    s.settle (s.tneed (s.sliceNeed g w row false v.toNat) [t.toNat] (s.sliceCheck ty t.toNat v.toNat row idx)
      (((List.range n).filter (fun k => s.active g 32 (k % 64))).map (fun k => (tileAt w (at_ k).1 (at_ k).2, shSize w)))
      (.ok ((List.range (sliceRegs w row)).foldl (fun s' i =>
        let hi := if 64 < n then 2 else 1
        let lanes := (List.range 64).map (fun l =>
          let k := 64 * (i % hi) + l
          if n ≤ k then 0
          else if s.active g 32 l then
            bitsOf (s.cr.tileElem w (at_ k).1 (at_ k).2) (if hi ≤ i then 32 else 0) 32
          else s.lane (v.toNat + i) l)
        s'.land (.v (s.bk.vphys (v.toNat + i)) (packV 32 lanes) (BitVec.allOnes 2048)) 3) s)))
  else .next s

/-- TRW (R169) -/
def execTrw (g : Guard) (ty t : BitVec 4) (v : BitVec 11) (j : SliceIndex) (s : State) : Host.Outcome State Fault Refusal :=
  s.sliceWrite g ty t v true j
/-- TRR (R169) -/
def execTrr (g : Guard) (ty t : BitVec 4) (v : BitVec 11) (j : SliceIndex) (s : State) : Host.Outcome State Fault Refusal :=
  s.sliceRead g ty t v true j
/-- TCW (R169) -/
def execTcw (g : Guard) (ty t : BitVec 4) (v : BitVec 11) (j : SliceIndex) (s : State) : Host.Outcome State Fault Refusal :=
  s.sliceWrite g ty t v false j
/-- TCR (R169) -/
def execTcr (g : Guard) (ty t : BitVec 4) (v : BitVec 11) (j : SliceIndex) (s : State) : Host.Outcome State Fault Refusal :=
  s.sliceRead g ty t v false j

/-! ### Whole tiles (R170) -/

/-- The zero of a format: the identity map for AFF. -/
def zeroElem (fmt : Nat) : Nat := if fmt = 0xB then 0x3F800000 else 0

/-- TZERO (R170). -/
def execTzero (g : Guard) (t : BitVec 4) (s : State) : Host.Outcome State Fault Refusal :=
  let w := s.bk.tshape t.toNat
  s.guarded g (s.tneed [] [t.toNat] none []
    (.ok (s.land (.frame (65536 * shFrame w)
      (((List.replicate (shRows w * shCols w) (bytesOfNat (shSize w) (zeroElem (shFmt w)))).flatten).map some)) 2)))

/-- TMOV (R170). -/
def execTmov (g : Guard) (t : BitVec 4) (ts : BitVec 4) (s : State) : Host.Outcome State Fault Refusal :=
  let w := s.bk.tshape t.toNat
  let u := s.bk.tshape ts.toNat
  let n := shRows u * shCols u * shSize u
  s.guarded g (s.tneed [] [t.toNat, ts.toNat]
    (if fieldOf w 0 20 = fieldOf u 0 20 then none else some (shapeTrap t.toNat w)) [(65536 * shFrame u, n)]
    (.ok (s.land (.frame (65536 * shFrame w) ((s.cr.accumBytes (65536 * shFrame u) n).map some)) 4)))

/-! ### Carries (R171) -/

/-- Pair i of a carry, as 64 bits. -/
def carryPair (k : Carry) (i : Nat) : Nat := bitsOf k.toNat (64 * i) 64

/-- KLD (R171): only active pairs change. -/
def execKld (g : Guard) (k : BitVec 2) (va : BitVec 11) (s : State) : Host.Outcome State Fault Refusal :=
  let m := s.activeMask g 32
  s.vslot g 32 (s.vneed [(va.toNat, m), (va.toNat + 1, m)]
    (let v := (List.range 64).map (fun i => s.lane va.toNat i + 2 ^ 32 * s.lane (va.toNat + 1) i)
     let on := (List.range 64).map (fun i => if s.active g 32 i then 2 ^ 64 - 1 else 0)
     .ok (s.land (.k k.toNat (BitVec.ofNat 4096 (packBits 64 v)) (BitVec.ofNat 4096 (packBits 64 on))) 3)))

/-- KST (R171): inactive lanes of both registers keep their value. -/
def execKst (g : Guard) (vd : BitVec 11) (k : BitVec 2) (s : State) : Host.Outcome State Fault Refusal :=
  s.vslot g 32 (s.vneed [(vd.toNat, s.keepMask g 32), (vd.toNat + 1, s.keepMask g 32)]
    (let lanes (r : Nat) := (List.range 64).map (fun i =>
       if s.active g 32 i then bitsOf (carryPair (s.bk.kget k.toNat) i) (32 * r) 32 else s.lane (vd.toNat + r) i)
     .ok ((s.landV vd (packV 32 (lanes 0)) 3).land (.v (s.bk.vphys (vd.toNat + 1)) (packV 32 (lanes 1)) (BitVec.allOnes 2048)) 3)))

/-! ### Affine pairs in the core (R195-R197) -/

/-- A tile that must be AFF, with a row index (R195-R197). -/
def State.affCheck (s : State) (t : Nat) (idx : Option Nat) : Option Trap :=
  let w := s.bk.tshape t
  if shFmt w ≠ 0xB then some (shapeTrap t w)
  else match idx with
    | some i => if shRows w ≤ i then some (indexTrap t w i) else none
    | none => none

/-- AFFSET (R195). -/
def execAffset (g : Guard) (t : BitVec 4) (va vb : BitVec 11) (j : SliceIndex) (s : State) : Host.Outcome State Fault Refusal :=
  let w := s.bk.tshape t.toNat
  let idx := s.sliceIndex j
  let m := s.activeMask g 32
  if s.sliceActive g w true then
    s.settle (s.tneed [(va.toNat, m), (vb.toNat, m)] [t.toNat] (s.affCheck t.toNat (some idx)) []
      (.ok ((List.range (shCols w)).foldl (fun s' c =>
        if s.active g 32 c then s'.landElem w idx c (s.lane va.toNat c + 2 ^ 32 * s.lane vb.toNat c) 3 else s') s)))
  else .next s

/-- One Kogge–Stone level over a group: rows from `d` on compose with the row `d` before (R196). -/
def scanLevel (d : Nat) (ms : List Nat) : Flagged (List Nat) :=
  let rs := ms.mapIdx (fun i m => if d ≤ i then compose m (ms.getD (i - d) 0) else (m, 0))
  (rs.map (·.1), rs.foldl (fun f r => f ||| r.2) 0)

/-- The four levels of a group. -/
def scanGroup (ms : List Nat) : Flagged (List Nat) :=
  [1, 2, 4, 8].foldl (fun (acc : Flagged (List Nat)) d =>
    let (r, f) := scanLevel d acc.1
    (r, acc.2 ||| f)) (ms, 0)

/-- Groups of 16 rows. -/
def groups16 : Nat → List Nat → List (List Nat)
  | 0, _ => []
  | n + 1, xs => xs.take 16 :: groups16 n (xs.drop 16)

/-- A column of R196: every group is scanned, then the carry is composed behind it, group by group. -/
def scanColumn (ms : List Nat) (x : Nat) : Flagged (List Nat × Nat) :=
  (groups16 ((ms.length + 15) / 16) ms).foldl (fun (acc : Flagged (List Nat × Nat)) grp =>
    let (lv, f) := scanGroup grp
    let rs := lv.map (fun m => compose m acc.1.2)
    ((acc.1.1 ++ rs.map (·.1), ((rs.getLast?).map (·.1)).getD acc.1.2), rs.foldl (fun f r => f ||| r.2) (acc.2 ||| f)))
    (([], x), 0)

/-- SCAN (R196): tile and carry are read at issue and written at latency 6 + 2·⌈ROWS/16⌉. -/
def execScan (g : Guard) (t : BitVec 4) (k : BitVec 2) (s : State) : Host.Outcome State Fault Refusal :=
  let w := s.bk.tshape t.toNat
  let rows := shRows w
  let cols := shCols w
  s.guarded g (s.tneed [] [t.toNat] (s.affCheck t.toNat none) [(65536 * shFrame w, rows * cols * 8)]
    (let kv := s.bk.kget k.toNat
     let out := (List.range cols).map (fun c =>
       scanColumn ((List.range rows).map (fun r => s.cr.tileElem w r c)) (carryPair kv c))
     let bytes := (List.range rows).flatMap (fun r =>
       out.flatMap (fun col => bytesOfNat 8 (col.1.1.getD r 0)))
     let lat := 6 + 2 * ((rows + 15) / 16)
     let mask := BitVec.ofNat 4096 (2 ^ (64 * cols) - 1)
     .ok ((s.land (.frame (65536 * shFrame w) (bytes.map some)) lat (out.foldl (fun f col => f ||| col.2) 0)).land
       (.k k.toNat (BitVec.ofNat 4096 (packBits 64 (out.map (fun col => col.1.2)))) mask) lat)))

/-- APPLY (R197): the value of lane j is that of a vector, or the offset of a carry's pair. -/
def execApply (g : Guard) (vd : BitVec 11) (t : BitVec 4) (j : SliceIndex) (src : ApplySrc) (s : State) :
    Host.Outcome State Fault Refusal :=
  let w := s.bk.tshape t.toNat
  let idx := s.sliceIndex j
  let srcRegs : List (Nat × VReg) := match src with | .vec va => [(va.toNat, s.activeMask g 32)] | .carry _ => []
  let kept := packV 32 ((List.range 64).map (fun c => if c < shCols w ∧ s.active g 32 c = false then 2 ^ 32 - 1 else 0))
  let value (c : Nat) : Nat := match src with
    | .vec va => s.lane va.toNat c
    | .carry k => carryPair (s.bk.kget k.toNat) c / 2 ^ 32
  if s.sliceActive g w true then
    s.settle (s.tneed ([(vd.toNat, kept)] ++ srcRegs) [t.toNat] (s.affCheck t.toNat (some idx))
      [(tileAt w idx 0, 8 * shCols w)]
      (let res := (List.range 64).map (fun c =>
         if shCols w ≤ c then ((0, 0) : Flagged Nat)
         else if s.active g 32 c then applyMap (s.cr.tileElem w idx c) (value c)
         else (s.lane vd.toNat c, 0))
       .ok (s.landV vd (packV 32 (res.map (·.1))) 4 (res.foldl (fun f r => f ||| r.2) 0))))
  else .next s

end Sys2Proof.Machine
end

