-- ==== Sys2Proof/Machine/Hazard.lean ====
section
/-!
DEFINITION. The registers that a slot names, for the interlock of R18 and the debug modes of R141, and the hazards of a bundle.
-/

namespace Sys2Proof.Machine

/-- A register that a slot names: its file (0 scalar, 1 address, 2 predicate, 3 vector, 4 queue latch, 5 copy descriptor), its
number as written, whether it is a source and whether a destination. -/
structure Operand where
  file : Nat
  idx : Nat
  reads : Bool
  writes : Bool
  deriving DecidableEq, Repr

def Operand.rd (f n : Nat) : Operand := ⟨f, n, true, false⟩
def Operand.wr (f n : Nat) : Operand := ⟨f, n, false, true⟩
def Operand.rw (f n : Nat) : Operand := ⟨f, n, true, true⟩

/-- The index of an element, of a slice, the count of a shift, the source of an APPLY. -/
def elemOperands (j : ElemIndex) : List Operand := match j with | .reg b => [.rd 0 b.toNat] | .imm _ => []
def sliceIndexOperands (j : SliceIndex) : List Operand := match j with | .reg b => [.rd 0 b.toNat] | .imm _ => []
def shiftOperands (c : ShiftCount) : List Operand := match c with | .vec v => [.rd 3 v.toNat] | .imm _ => []
def applyOperands (x : ApplySrc) : List Operand := match x with | .vec v => [.rd 3 v.toNat] | .carry _ => []

/-- Consecutive vector registers. -/
def vecs (read : Bool) (v n : Nat) : List Operand := (List.range n).map (fun i => ⟨3, v + i, read, !read⟩)

/-- A vector destination: whether it is read as well. -/
def vdest (keeps : Bool) (n : Nat) : Operand := ⟨3, n, keeps, true⟩

/-- The registers of a conversion: a source or a destination of a DX type is a pair (R133), and a destination that takes only a part
keeps the rest (R133, R134). -/
def cvtOperands (ty : BitVec 4) (vd va : BitVec 11) (src : BitVec 4) : List Operand :=
  let keeps := tyDx ty || decide (tyCount src < tyCount ty)
  (List.range (if tyDx ty then 2 else 1)).map (fun i => vdest keeps (vd.toNat + i)) ++ vecs true va.toNat (if tyDx src then 2 else 1)

/-- The registers of a tile slice. -/
def State.sliceOperands (s : State) (t : BitVec 4) (v : Nat) (row read : Bool) : List Operand :=
  vecs read v (sliceRegs (s.bk.tshape t.toNat) row)

/-- The registers that an instruction names beside its guard, in field order. -/
def State.names (s : State) (i : Instr) : List Operand :=
  match i with
  | .add _ d a b | .sub _ d a b | .mul _ d a b | .mulh _ d a b | .mulhu _ d a b | .div _ d a b | .divu _ d a b
  | .rem _ d a b | .remu _ d a b | .and _ d a b | .or _ d a b | .xor _ d a b | .shl _ d a b | .shr _ d a b
  | .sar _ d a b | .min _ d a b | .max _ d a b | .minu _ d a b | .maxu _ d a b | .jverifyCrc _ d a b =>
    [Operand.wr 0 d.toNat, .rd 0 a.toNat, .rd 0 b.toNat]
  | .addi _ d a _ | .andi _ d a _ | .ori _ d a _ | .xori _ d a _ | .shli _ d a _ | .shri _ d a _ | .sari _ d a _
  | .clz _ d a | .popc _ d a | .ext _ d a _ _ | .extS _ d a _ _ | .ldsW _ d a _ | .ldsD _ d a _ | .jverifyWear _ d a =>
    [Operand.wr 0 d.toNat, .rd 0 a.toNat]
  | .movi _ d _ | .semrd _ d _ | .trd _ d _ | .csrr _ d _ | .jbegin _ d | .jverifyStatus _ d | .scrubrSecded _ d _
  | .scrubrDected _ d _ | .lgwait _ d => [Operand.wr 0 d.toNat]
  | .movk _ d _ _ => [Operand.rw 0 d.toNat]
  | .sel _ d pc a b => [Operand.wr 0 d.toNat, .rd 0 a.toNat, .rd 0 b.toNat, .rd 2 pc.toNat]
  | .ceq _ pd a b | .cne _ pd a b | .clt _ pd a b | .cle _ pd a b | .cltu _ pd a b | .cleu _ pd a b =>
    [Operand.wr 2 pd.toNat, .rd 0 a.toNat, .rd 0 b.toNat]
  | .ceqi _ pd a _ | .clti _ pd a _ => [Operand.wr 2 pd.toNat, .rd 0 a.toNat]
  | .pand _ pd pa pb | .por _ pd pa pb | .pxor _ pd pa pb => [Operand.wr 2 pd.toNat, .rd 2 pa.toNat, .rd 2 pb.toNat]
  | .pnot _ pd pa | .pany _ pd pa => [Operand.wr 2 pd.toNat, .rd 2 pa.toNat]
  | .pset _ pd _ => [Operand.wr 2 pd.toNat]
  | .ins _ d a _ _ => [Operand.rw 0 d.toNat, .rd 0 a.toNat]
  | .adda _ ad aa b => [Operand.wr 1 ad.toNat, .rd 1 aa.toNat, .rd 0 b.toNat]
  | .addai _ ad aa _ => [Operand.wr 1 ad.toNat, .rd 1 aa.toNat]
  | .mova _ ad a => [Operand.wr 1 ad.toNat, .rd 0 a.toNat]
  | .movah _ ad a => [Operand.rw 1 ad.toNat, .rd 0 a.toNat]
  | .rda _ d aa | .rdah _ d aa | .ldB _ d aa _ | .ldBu _ d aa _ | .ldH _ d aa _ | .ldHu _ d aa _ | .ldW _ d aa _
  | .ldWu _ d aa _ | .ldD _ d aa _ | .ldaD _ d aa _ _ | .ldscD _ d aa _ | .deq _ d aa | .gcount _ d aa =>
    [Operand.wr 0 d.toNat, .rd 1 aa.toNat]
  | .ceqa _ pd aa ab => [Operand.wr 2 pd.toNat, .rd 1 aa.toNat, .rd 1 ab.toNat]
  | .suba _ d aa ab => [Operand.wr 0 d.toNat, .rd 1 aa.toNat, .rd 1 ab.toNat]
  | .qrd _ d n _ => [Operand.wr 0 d.toNat, .rd 4 n.toNat]
  | .jmp _ a | .calli _ a | .semset _ a _ | .phase _ a | .tcfg _ _ a | .csrw _ a _ | .wake _ a =>
    [Operand.rd 0 a.toNat]
  | .ret _ => [Operand.rd 0 (47 : BitVec 6).toNat]
  | .spok _ pa => [Operand.rd 2 pa.toNat]
  | .stB _ aa b _ | .stH _ aa b _ | .stW _ aa b _ | .stD _ aa b _ | .stlD _ aa b _ _ | .stscD _ aa b _ | .enq _ aa b
  | .enqt _ aa b | .tlbinvPage _ aa b _ => [Operand.rd 1 aa.toNat, .rd 0 b.toNat]
  | .pref _ aa _ | .qbind _ _ aa | .join _ aa | .leave _ aa | .gbar _ aa | .spawn _ aa | .jdec _ aa =>
    [Operand.rd 1 aa.toNat]
  | .stsW _ a b _ | .stsD _ a b _ | .jwrite _ a b => [Operand.rd 0 a.toNat, .rd 0 b.toNat]
  | .aadd _ d aa b _ _ _ | .aand _ d aa b _ _ _ | .aor _ d aa b _ _ _ | .axor _ d aa b _ _ _ | .amin _ d aa b _ _ _
  | .amax _ d aa b _ _ _ | .axchg _ d aa b _ _ _ | .deqt _ d aa b | .scrubrRange _ d aa b _ =>
    [Operand.wr 0 d.toNat, .rd 1 aa.toNat, .rd 0 b.toNat]
  | .acas _ d aa b _ _ _ => [Operand.rw 0 d.toNat, .rd 1 aa.toNat, .rd 0 b.toNat]
  | .qinit _ aa ab _ _ _ => [Operand.rd 1 aa.toNat, .rd 1 ab.toNat]
  | .cdset _ n a _ _ => [Operand.wr 5 n.toNat, .rd 0 a.toNat]
  | .cdadr _ n aa _ | .cdld _ n aa _ => [Operand.wr 5 n.toNat, .rd 1 aa.toNat]
  | .cdrd _ d n _ _ => [Operand.wr 0 d.toNat, .rd 5 n.toNat]
  | .tlbinvCtx _ b _ => [Operand.rd 0 b.toNat]
  | .vadd _ _ _ vd va vb | .vsub _ _ _ vd va vb | .vmul _ _ _ vd va vb | .vmulHi _ _ vd va vb | .vmin _ _ _ vd va vb
  | .vmax _ _ _ vd va vb | .vdiv _ _ _ vd va vb | .vadds _ _ vd va vb | .vsubs _ _ vd va vb | .vand _ _ vd va vb
  | .vor _ _ vd va vb | .vxor _ _ vd va vb | .vperm _ _ vd va vb =>
    [Operand.wr 3 vd.toNat, .rd 3 va.toNat, .rd 3 vb.toNat]
  | .vfma _ _ _ vd va vb vc | .vfms _ _ _ vd va vb vc | .vshuf _ _ vd va vb vc =>
    [Operand.wr 3 vd.toNat, .rd 3 va.toNat, .rd 3 vb.toNat, .rd 3 vc.toNat]
  | .vabs _ _ vd va | .vneg _ _ vd va | .vsqrt _ _ _ vd va | .vrcp _ _ _ vd va | .vrsq _ _ _ vd va
  | .vexp2 _ _ _ vd va | .vlog2 _ _ _ vd va | .vnot _ _ vd va | .vmov _ _ vd va | .vredadd _ _ _ vd va
  | .vredmax _ _ vd va | .vredmin _ _ vd va | .xexp vd va _ | .xtrn vd va _ | .xhad vd va _ =>
    [Operand.wr 3 vd.toNat, .rd 3 va.toNat]
  | .vshl _ _ vd va cnt | .vshr _ _ vd va cnt | .vsar _ _ vd va cnt =>
    [Operand.wr 3 vd.toNat, .rd 3 va.toNat] ++ shiftOperands cnt
  | .vceq _ _ pd va vb | .vclt _ _ pd va vb | .vcle _ _ pd va vb | .vcne _ _ pd va vb =>
    [Operand.wr 2 pd.toNat, .rd 3 va.toNat, .rd 3 vb.toNat]
  | .vsel _ _ vd pc va vb => [Operand.wr 3 vd.toNat, .rd 3 va.toNat, .rd 3 vb.toNat, .rd 2 pc.toNat]
  | .vbcast _ _ vd a | .viota _ _ _ vd a | .vld _ _ vd a _ => [Operand.wr 3 vd.toNat, .rd 0 a.toNat]
  | .vrot _ _ vd va j => [Operand.wr 3 vd.toNat, .rd 3 va.toNat] ++ elemOperands j
  | .vcvt _ ty _ vd va src _ _ => cvtOperands ty vd va src
  | .vst _ _ vd a _ => [Operand.rd 3 vd.toNat, .rd 0 a.toNat]
  | .vgath _ _ vd a _ => [Operand.wr 3 vd.toNat, .rd 3 (vd.toNat + 1), .rd 0 a.toNat]
  | .vscat _ _ vd a _ => [Operand.rd 3 vd.toNat, .rd 3 (vd.toNat + 1), .rd 0 a.toNat]
  | .vlds _ _ vd a _ => [Operand.wr 3 vd.toNat, .rd 0 a.toNat, .rd 0 (a.toNat + 1)]
  | .vsts _ _ vd a _ => [Operand.rd 3 vd.toNat, .rd 0 a.toNat, .rd 0 (a.toNat + 1)]
  | .vmvs _ _ d va j => [Operand.wr 0 d.toNat, .rd 3 va.toNat] ++ elemOperands j
  | .vins _ _ vd a j => [vdest true vd.toNat, .rd 0 a.toNat] ++ elemOperands j
  | .xcvt vd va pair _ => [vdest (decide (pair.toNat < 2)) vd.toNat, .rd 3 va.toNat]
  | .venq _ aa vb => [Operand.rd 1 aa.toNat, .rd 3 vb.toNat]
  | .vqrd _ vd n => [Operand.wr 3 vd.toNat, .rd 4 n.toNat]
  | .trw _ _ t v j => (s.sliceOperands t v.toNat true true) ++ sliceIndexOperands j
  | .trr _ _ t v j => (s.sliceOperands t v.toNat true false) ++ sliceIndexOperands j
  | .tcw _ _ t v j => (s.sliceOperands t v.toNat false true) ++ sliceIndexOperands j
  | .tcr _ _ t v j => (s.sliceOperands t v.toNat false false) ++ sliceIndexOperands j
  | .affset _ _ va vb j => [Operand.rd 3 va.toNat, .rd 3 vb.toNat] ++ sliceIndexOperands j
  | .apply _ vd _ j src => [Operand.wr 3 vd.toNat] ++ sliceIndexOperands j ++ applyOperands src
  | .kld _ _ va => [Operand.rd 3 va.toNat, .rd 3 (va.toNat + 1)]
  | .kst _ vd _ => [Operand.wr 3 vd.toNat, .wr 3 (vd.toNat + 1)]
  | .xqnt vd va f _ => vecs false vd.toNat 2 ++ vecs true va.toNat (if f = 1 then 8 else 4)
  | .xdqn vd va f => vecs false vd.toNat (if f = 1 then 8 else 4) ++ vecs true va.toNat 2
  | .copy cd _ _ _ _ _ | .copyn cd _ _ _ _ _ | .copyd cd _ _ _ _ => [Operand.rd 5 cd.toNat]
  | _ => []

/-- The guard of an S or V instruction (R42). -/
def guardOf (i : Sys2Proof.Instr) : Option Guard :=
  match i with
  | .add g _ _ _ | .addi g _ _ _ | .sub g _ _ _ | .mul g _ _ _ | .mulh g _ _ _ | .mulhu g _ _ _ | .div g _ _ _
  | .divu g _ _ _ | .rem g _ _ _ | .remu g _ _ _ | .and g _ _ _ | .or g _ _ _ | .xor g _ _ _ | .andi g _ _ _
  | .ori g _ _ _ | .xori g _ _ _ | .shl g _ _ _ | .shr g _ _ _ | .sar g _ _ _ | .shli g _ _ _ | .shri g _ _ _
  | .sari g _ _ _ | .min g _ _ _ | .max g _ _ _ | .minu g _ _ _ | .maxu g _ _ _ | .clz g _ _ | .popc g _ _
  | .movi g _ _ | .movk g _ _ _ | .sel g _ _ _ _ | .ceq g _ _ _ | .cne g _ _ _ | .clt g _ _ _ | .cle g _ _ _
  | .cltu g _ _ _ | .cleu g _ _ _ | .ceqi g _ _ _ | .clti g _ _ _ | .pand g _ _ _ | .por g _ _ _ | .pxor g _ _ _
  | .pnot g _ _ | .pset g _ _ | .pany g _ _ | .ext g _ _ _ _ | .extS g _ _ _ _ | .ins g _ _ _ _ | .adda g _ _ _
  | .addai g _ _ _ | .mova g _ _ | .movah g _ _ | .rda g _ _ | .rdah g _ _ | .ceqa g _ _ _ | .suba g _ _ _
  | .qrd g _ _ _ | .br g _ | .jmp g _ | .call g _ | .calli g _ | .ret g | .loop g _ | .spec g _ | .spok g _
  | .waits g _ _ | .sigs g _ _ | .semset g _ _ | .semrd g _ _ | .retire g | .retireFail g _ | .retireRequeue g
  | .rest g | .yield g | .trap g _ | .uiret g | .phase g _ | .ldB g _ _ _ | .ldBu g _ _ _ | .ldH g _ _ _
  | .ldHu g _ _ _ | .ldW g _ _ _ | .ldWu g _ _ _ | .ldD g _ _ _ | .stB g _ _ _ | .stH g _ _ _ | .stW g _ _ _
  | .stD g _ _ _ | .ldaD g _ _ _ _ | .stlD g _ _ _ _ | .ldscD g _ _ _ | .stscD g _ _ _ | .pref g _ _ | .ldsW g _ _ _
  | .ldsD g _ _ _ | .stsW g _ _ _ | .stsD g _ _ _ | .aadd g _ _ _ _ _ _ | .aand g _ _ _ _ _ _ | .aor g _ _ _ _ _ _
  | .axor g _ _ _ _ _ _ | .amin g _ _ _ _ _ _ | .amax g _ _ _ _ _ _ | .axchg g _ _ _ _ _ _ | .acas g _ _ _ _ _ _
  | .fence g _ _ | .lsmark g | .efence g | .qbind g _ _ | .qunb g _ | .enq g _ _ | .deq g _ _ | .enqt g _ _
  | .deqt g _ _ _ | .qinit g _ _ _ _ _ | .join g _ | .leave g _ | .gbar g _ | .gcount g _ _ | .spawn g _ | .jdec g _
  | .cdset g _ _ _ _ | .cdadr g _ _ _ | .cdrd g _ _ _ _ | .cdld g _ _ _ | .tcfg g _ _ | .trd g _ _ | .csrr g _ _
  | .csrw g _ _ | .eret g | .swap g _ | .tlbinvPage g _ _ _ | .tlbinvCtx g _ _ | .tlbinvAll g _ | .jbegin g _
  | .jwrite g _ _ | .jcommit g | .jabort g | .jverifyCrc g _ _ _ | .jverifyWear g _ _ | .jverifyStatus g _
  | .wake g _ | .scrubrRange g _ _ _ _ | .scrubrSecded g _ _ | .scrubrDected g _ _ | .lgwait g _ | .vadd g _ _ _ _ _
  | .vsub g _ _ _ _ _ | .vmul g _ _ _ _ _ | .vmulHi g _ _ _ _ | .vfma g _ _ _ _ _ _ | .vfms g _ _ _ _ _ _
  | .vmin g _ _ _ _ _ | .vmax g _ _ _ _ _ | .vabs g _ _ _ | .vneg g _ _ _ | .vdiv g _ _ _ _ _ | .vsqrt g _ _ _ _
  | .vrcp g _ _ _ _ | .vrsq g _ _ _ _ | .vexp2 g _ _ _ _ | .vlog2 g _ _ _ _ | .vadds g _ _ _ _ | .vsubs g _ _ _ _
  | .vand g _ _ _ _ | .vor g _ _ _ _ | .vxor g _ _ _ _ | .vnot g _ _ _ | .vshl g _ _ _ _ | .vshr g _ _ _ _
  | .vsar g _ _ _ _ | .vceq g _ _ _ _ | .vclt g _ _ _ _ | .vcle g _ _ _ _ | .vcne g _ _ _ _ | .vsel g _ _ _ _ _
  | .vmov g _ _ _ | .vbcast g _ _ _ | .viota g _ _ _ _ | .vredadd g _ _ _ _ | .vredmax g _ _ _ | .vredmin g _ _ _
  | .vperm g _ _ _ _ | .vshuf g _ _ _ _ _ | .vrot g _ _ _ _ | .vcvt g _ _ _ _ _ _ _ | .vld g _ _ _ _ | .vst g _ _ _ _
  | .vgath g _ _ _ _ | .vscat g _ _ _ _ | .vlds g _ _ _ _ | .vsts g _ _ _ _ | .vmvs g _ _ _ _ | .vins g _ _ _ _
  | .venq g _ _ | .vqrd g _ _ | .trw g _ _ _ _ | .trr g _ _ _ _ | .tcw g _ _ _ _ | .tcr g _ _ _ _ | .tzero g _
  | .tmov g _ _ | .affset g _ _ _ _ | .scan g _ _ | .apply g _ _ _ _ | .kld g _ _ | .kst g _ _ => some g
  | _ => none

/-- The element width by which a vector slot tests its guard (R124, R169, R171, R195, R197); none for the forms that test bit 0 as a
scalar instruction does (R170, R270, R274). -/
def guardWidth (i : Instr) : Option Nat :=
  match i with
  | .tzero _ _ | .tmov _ _ _ | .scan _ _ _ | .venq _ _ _ | .vqrd _ _ _ => none
  | .vadd _ ty _ _ _ _ | .vsub _ ty _ _ _ _ | .vmul _ ty _ _ _ _ | .vmulHi _ ty _ _ _ | .vfma _ ty _ _ _ _ _
  | .vfms _ ty _ _ _ _ _ | .vmin _ ty _ _ _ _ | .vmax _ ty _ _ _ _ | .vabs _ ty _ _ | .vneg _ ty _ _
  | .vdiv _ ty _ _ _ _ | .vsqrt _ ty _ _ _ | .vrcp _ ty _ _ _ | .vrsq _ ty _ _ _ | .vexp2 _ ty _ _ _
  | .vlog2 _ ty _ _ _ | .vadds _ ty _ _ _ | .vsubs _ ty _ _ _ | .vand _ ty _ _ _ | .vor _ ty _ _ _ | .vxor _ ty _ _ _
  | .vnot _ ty _ _ | .vshl _ ty _ _ _ | .vshr _ ty _ _ _ | .vsar _ ty _ _ _ | .vceq _ ty _ _ _ | .vclt _ ty _ _ _
  | .vcle _ ty _ _ _ | .vcne _ ty _ _ _ | .vsel _ ty _ _ _ _ | .vmov _ ty _ _ | .vbcast _ ty _ _ | .viota _ ty _ _ _
  | .vredadd _ ty _ _ _ | .vredmax _ ty _ _ | .vredmin _ ty _ _ | .vperm _ ty _ _ _ | .vshuf _ ty _ _ _ _
  | .vrot _ ty _ _ _ | .vcvt _ ty _ _ _ _ _ _ | .vld _ ty _ _ _ | .vst _ ty _ _ _ | .vlds _ ty _ _ _
  | .vsts _ ty _ _ _ | .vmvs _ ty _ _ _ | .vins _ ty _ _ _ => some (tyWidth ty)
  | _ => some 32

/-- The width by which the guard of a vector word is tested that no decode admits, from its opcode and TY (R12, R124). Of an unassigned
opcode or a reserved TY the spec names no element width: 32 bits, a DESIGN CHOICE (log 65). -/
def wordGuardWidth (op : Nat) (ty : BitVec 4) : Option Nat :=
  match op with
  | 0x30 | 0x31 | 0x36 | 0x37 | 0x39 => none
  | 0x2A | 0x2B | 0x32 | 0x33 | 0x34 | 0x35 | 0x38 | 0x3A | 0x3B | 0x3C => some 32
  | _ => if op ≤ 0x2F ∧ ty.toNat < 14 then some (tyWidth ty) else some 32

/-- Whether a vector form keeps in its destination the elements that are not active (R124); a reduction and VQRD write it whole (R131,
R274). -/
def mergesDest (i : Instr) : Bool :=
  match i with
  | .vredadd _ _ _ _ _ | .vredmax _ _ _ _ | .vredmin _ _ _ _ | .vqrd _ _ _ => false
  | _ => true

/-- VMVS and VINS act where element j's guard bit holds (R138); an index in a pending register is not known yet, and names it where
some element is active. -/
def State.actsAt (s : State) (g : Guard) (ty : BitVec 4) (j : ElemIndex) : Bool :=
  let w := tyWidth ty
  match j with
  | .imm k => s.active g w k.toNat
  | .reg b =>
    if b.toNat ≠ 0 ∧ s.bk.pend.contains (s.bk.regS b.toNat) then (List.range (2048 / w)).any (fun k => s.active g w k)
    else s.active g w (s.elemIndex ty j)

/-- Whether a slot acts: its guard holds, or that of one element (R12, R42, R124). -/
def State.acts (s : State) (slot : Nat) (i : Instr) : Bool :=
  match guardOf i with
  | none => true
  | some g =>
    match i, (if slot = 2 ∨ slot = 3 then guardWidth i else none) with
    | .vmvs _ ty _ _ j, _ | .vins _ ty _ _ j, _ => s.actsAt g ty j
    | _, some w => (List.range (2048 / w)).any (fun k => s.active g w k)
    | _, none => s.guard g

/-- Everything a slot names, in field order (R36, R38): its guard predicate, and the rest where it acts; a slot whose guard is false names
nothing else (R42). A vector destination, or the predicate of a vector compare, that keeps the bits of inactive elements is read as well
(R124, R129). -/
def State.slotNames (s : State) (slot : Nat) (i : Instr) : List Operand :=
  let merges := match guardOf i with | some g => mergesDest i && s.guardBits g != BitVec.allOnes 256 | none => false
  let guard := match guardOf i with | some g => [Operand.rd 2 g.pg.toNat] | none => []
  let rest := if s.acts slot i then (s.names i).map (fun o => if merges && (o.file == 3 || (o.file == 2 && o.writes && decide (2 ≤ slot))) then { o with reads := true } else o) else []
  if slot < 2 then guard ++ rest else rest ++ guard

/-- The register that an operand names, where it can be pending (R18). -/
def Bank.operandReg (b : Bank) (o : Operand) : Option Reg :=
  match o.file with
  | 0 => if o.idx = 0 then none else some (b.regS o.idx)
  | 4 => some (.q o.idx)
  | 5 => some (.cd o.idx)
  | _ => none

def Bank.pending (b : Bank) (o : Operand) : Bool := match b.operandReg o with | some r => b.pend.contains r | none => false

/-- Whether an exposed result to the register is in flight (R16, R141). -/
def Bank.inFlight (b : Bank) (o : Operand) : Bool :=
  b.flight.any (fun l => match l.write, o.file with
    | .s i _, 0 => o.idx != 0 && b.regS o.idx == .s i
    | .sh n _, 0 => b.regS o.idx == .sh n
    | .a n _, 1 => n == o.idx
    | .p n _, 2 => n == o.idx
    | .v i _ _, 3 => i == b.vphys o.idx
    | .cdb n _ _, 5 => n == o.idx
    | _, _ => false)

/-- PENDING_READ (R141). -/
def pendingTrap (slot : Nat) (o : Operand) : Trap :=
  { code := 0x0A, info := BitVec.ofNat 64 (o.idx + o.file * 4096), slot := slot }

/-- The number of the physical scalar register that an operand names in the bank (R101). -/
def Bank.physReg (b : Bank) (n : Nat) : Nat :=
  match b.regS n with
  | .s i => i
  | _ => n
/-- Whether a scalar source is an uncorrectable register of the bank (R101). -/
def Bank.badReg (b : Bank) (o : Operand) : Bool :=
  o.file == 0 && o.idx != 0 && (match b.regS o.idx with | .s i => b.badS.contains i | _ => false)

/-- What the hazards of a bundle come to; `bank` is UE_CONSUMED at an uncorrectable scalar register (R101). -/
inductive Hazard where
  | none
  | debug (t : Trap)
  | held (n : Nat)
  | pend (rs : List Reg)
  | bank (t : Trap)
  deriving DecidableEq, Repr

/-- The operands of a bundle, in the order in which R141 reports them; the POP bits of the header name bound latches (R273). The header
stands before the slots, as among the causes of R21, and its latches report slot 7 (DEDUCED, log 76). -/
def State.bundleNames (s : State) (slots : List (Nat × Instr)) (pop : BitVec 16) : List (Nat × Operand) :=
  ((List.range 16).filter (fun n => pop.getLsbD n && (s.bk.qget n).bound)).map (fun n => (7, Operand.rd 4 n))
    ++ slots.flatMap (fun e => (s.slotNames e.1 e.2).map (fun o => (e.1, o)))

/-- R18, R141, R273: a bundle that names a pending register blocks, or traps in debug mode; one that names a latch whose refill is
held parks. QBIND and QUNB do not wait for their latch, since they withdraw its refill (R272). -/
def State.hazard (s : State) (slots : List (Nat × Instr)) (pop : BitVec 16) : Hazard :=
  let b := s.bk
  let ns := s.bundleNames slots pop
  let prt := (b.csrAt 0x070).getLsbD 0
  let expt := (b.csrAt 0x070).getLsbD 1
  match ns.find? (fun e => (prt && b.pending e.2) || (expt && e.2.reads && b.inFlight e.2)) with
  | some (k, o) => .debug (pendingTrap k o)
  | none =>
    match ns.find? (fun e => e.2.file == 4 && (b.qget e.2.idx).held) with
    | some (_, o) => .held o.idx
    | none =>
      match (ns.filter (fun e => b.pending e.2)).filterMap (fun e => b.operandReg e.2) with
      | [] =>
        match ns.find? (fun e => e.2.reads && b.badReg e.2) with
        | some (k, o) => .bank { ueTrap 3 (b.physReg o.idx) with slot := k }
        | none => .none
      | rs => .pend rs

end Sys2Proof.Machine
end

