-- ==== Sys2Proof/Machine/Issue.lean ====
section
/-!
DEFINITION. How a core issues (R21, R30-R35, R42-R49, R73, R90, R100): the fetch of a bundle, what blocks a strand, the switch of
strands, how the slots of a bundle come together, and the header's GAP and CRIT.
-/

namespace Sys2Proof.Machine

/-! ### What a strand waits for -/

/-- Whether a JVERIFY of the strand (core, uid) is placed, whose result it still awaits (R218). -/
def Slab.asksFor (x : Slab) (me : Nat × Nat) : Bool := x.asked.any (fun e => e.1 == me.1 && e.2.1 == me.2)

/-- Whether the journal engine no longer keeps a strand's journal instruction waiting, by opcode (R203, R204). -/
def Slab.waitDone (x : Slab) (op c uid ctx : Nat) : Bool :=
  match op with
  | 0xA5 => !x.work.contains .apply
  | 0xA6 => decide (x.queued < 64)
  | 0xA8 => !x.busyWithTxn
  | 0xA9 => x.results.any (fun e => e.1 == c && e.2.1 == uid) || !x.asksFor (c, uid)
  | _ => x.commits.contains (c, uid) || match x.txn with
    | some t => t.committed || t.owner != ctx ||
        (if t.commitUnit.isSome then !x.work.contains .commit else t.recs.all (fun r => r.written || r.failed))
    | none => true

/-- Whether a bundle that waits for frame `f` is attempted again (R172, R175): no exchange of the frame is under way, and no other strand of
the core waits whose context owns the frame, and so comes first. At the attempt it has the frame, or asks for it again. -/
def Core.frameTurn (x : Core) (p f ctx : Nat) : Bool :=
  !x.frameMoves.any (fun m => m.1 == f) &&
    (x.owns f ctx || [0, 1, 2, 3].all (fun q => q == p || (x.bank q).wait != some (.frames f) || !x.owns f (x.bank q).ctx))

/-- Whether what a blocked bundle waits for has come about (R18, R90), so that it may be attempted. The waits of SPOK and UIRET keep
the issue unit and are attempted each clk. -/
def State.waitOver (s : State) (c p : Nat) (w : Wait) : Bool :=
  let b := s.bank c p
  let x := s.core c
  match w with
  | .regs rs => rs.all (fun r => !b.pend.contains r)
  | .sem n t => x.semReady n t
  | .clk k | .turns k => decide (k ≤ s.clk)
  | .walk => false
  | .exchange => x.issue.exch.isNone
  | .tiles fs ts => fs.all (fun f => !x.frameBusy f) && ts.all (fun t => !x.tileNamed b.uid t)
  | .vgroup g => !s.groupAway c b.uid g
  | .frames f => x.frameTurn p f b.ctx
  | .copies => decide (b.copies.length < 16)
  | .mqueue => decide (x.mq.length < 16)
  | .report id => (b.acc? id).isNone
  | .fill => b.accs.all (fun a => a.kind != .fill)
  | .dict => !b.dictDue
  | .park => true
  | .drain => true
  | .far => b.far.all (fun q => q.bytes.isSome || q.err.isSome)
  | .journal op => (s.cluster (clusterOf c)).slab.waitDone op c b.uid b.ctx
  | .accs l => l.all (fun e => (s.uidBank e.1 e.2.1).standing.all (fun a => a.id != e.2.2 || a.st == .performed))

/-- Whether a strand is parked: an entry of the fault queue is outstanding, or waits for a place (R232). -/
def State.isParked (s : State) (c p : Nat) : Bool :=
  let b := s.bank c p
  !b.parked.isEmpty || (s.die (dieOf c)).faultWait.any (fun e => e.uid == b.uid)

/-- Whether the strand has accesses that failed at a fenced peer and are not in the fault queue yet (R352). -/
def Bank.hasFailed (b : Bank) : Bool := b.task.any (fun t => t.ending.isNone) && b.accs.any (fun a => a.st == .failed && !a.told)

/-- Whether accesses that failed have still to be sent again (R352). -/
def Bank.sendsAgain (b : Bank) : Bool := b.accs.any (fun a => a.again && (a.st == .queued || a.st == .waiting))

/-- What keeps every bundle of a strand from issuing, whatever it holds: no task, a task that ends, an exchange under way, a park, with the
accesses that are sent again after it, a dictionary that is not resident, a window spill or fill (R48, R80, R90, R94, R232, R296, R352). The last two are blocks, which PHASE_OVERRUN abandons
(R294). -/
def State.stopped (s : State) (c p : Nat) : Bool :=
  let b := s.bank c p
  let leaving := match (s.core c).issue.exch with | some (n, _) => n == p | none => false
  let ends := match b.task with | some t => t.ending.isSome | none => true
  let window := b.win.isSome || b.accs.any (fun a => a.kind == .fill)
  ends || leaving || s.isParked c p || b.sendsAgain || ((b.dictDue || window) && b.async.all (fun t => t.code != 0x17))

/-- A strand is ready (R90): its next bundle is not known to block. A trap that waits to be raised is raised at a blocked bundle as
well (R158, R266), and a strand whose access has failed parks there (R352). -/
def State.strandReady (s : State) (c p : Nat) : Bool :=
  let b := s.bank c p
  !s.stopped c p && (b.hasFailed || !b.async.isEmpty || b.entry.isSome ||
    (!b.reported && (match b.wait with | some w => s.waitOver c p w | none => true)))

/-! ### The switch (R89, R90) -/

/-- STRAND_SWITCH: operands core. The next ready strand in round-robin order takes the unit, and this clk is the bubble; after a YIELD
or the end of a task the strand itself stands last in the order. -/
def execStrandSwitch (s : State) : Host.Outcome State Fault Refusal :=
  let c := s.ev.core
  let i := (s.core c).issue
  let order := (if i.yielded then [1, 2, 3, 4] else [1, 2, 3]).map (fun k => (i.pos + k) % 4)
  match order.find? (fun p => s.strandReady c p) with
  | some p =>
    .next (s.modCore c fun x => { x with issue := { i with pos := p, yielded := false, hold := max i.hold (s.clk + 1) } })
  | none => .next (s.modCore c fun x => { x with issue := { i with yielded := false } })

/-- Put an event at the front of the agenda: it is the next step (log 1). -/
def State.pushFront (s : State) (i : Instr) (e : EvArgs) : State := { s with agenda := (i, e) :: s.agenda }

/-! ### Code units (R43-R46) -/

/-- What a read of code comes to: the bytes, a trap, a walk to wait for, a refresh to wait for (R212), a piece of a peer's memory. -/
inductive Code where
  | bytes (v : List Byte)
  | trap (t : Trap)
  | walk (va : Addr)
  | later
  | far (x pa : Nat)

/-- The piece of a peer's memory that the strand has asked for (R348). -/
def Bank.farPiece (b : Bank) (x line : Nat) : Option FarPiece := b.far.find? (fun q => q.peer == x && q.line == line)

/-- `n` bytes at a peer that code or a dictionary reads: those of the piece that has been answered; the failure of its request, or of a fenced
peer (R353); none while the answer is out or nothing has been asked. -/
def State.farBytes (s : State) (b : Bank) (x pa n : Nat) (va : Addr) : Option (Except Trap (List Byte)) :=
  match b.farPiece x (pa / 128) with
  | some q =>
    match q.err, q.bytes with
    | some t, _ => some (.error { t with addr := va })
    | none, some bs => some (.ok ((bs.drop (pa % 128)).take n))
    | none, none => none
  | none => if (s.peer x).fenced then some (.error { code := 0x1A, info := BitVec.ofNat 64 x, addr := va }) else none

/-- The strand in position `p` asks a peer for a piece of code, unless it has (R348). -/
def State.askFar (s : State) (c p x line : Nat) : State :=
  let b := s.bank c p
  if (b.farPiece x line).isSome then s
  else
    let s := (s.askPeer c x (.code b.uid b.nextId) { pa := 128 * line, size := 128, write := false, data := 0 }).1
    s.modBank c p fun b => { b with nextId := b.nextId + 1, far := b.far ++ [{ tok := b.nextId, peer := x, line := line }] }

/-- `n` bytes of code at `pc` of the acting strand, within one page (R43, R46), read through the shared cache (R223). Bytes on a PEER page
come with the peer's answer (R348); uncorrectable bytes raise UE_CONSUMED (R303). Of the values that R48
permits for a unit stored over during the task, the model takes the one that memory holds at the fetch (log 65). -/
def State.codeAt (s : State) (pc : Word) (n : Nat) : State × Code :=
  let va := s.bk.codeAddr pc
  match s.translate va (needOf 5 n) (!s.bk.priv) with
  | .walking => (s, .walk va)
  | .failed t => (s, .trap { t with slot := 7 })
  | .at_ pa none =>
    if s.refreshing pa then (s, .later)
    else
      let (s, bs, ue) := s.readHome s.bk.ctx pa n
      (s, if ue then .trap (memTrap pa va) else .bytes bs)
  | .at_ pa (some x) =>
    (s, match s.farBytes s.bk x pa n va with
      | some (.ok bs) => .bytes bs
      | some (.error t) => .trap t
      | none => .far x pa)

/-- The 24 units of a literal, each by itself, since they may lie in two pages and wrap (R43, R44). -/
def State.codeUnits (s : State) : Nat → Word → State × Code
  | 0, _ => (s, .bytes [])
  | n + 1, pc =>
    match s.codeAt pc 2 with
    | (s, .bytes v) =>
      match s.codeUnits n (pc + 2) with
      | (s, .bytes w) => (s, .bytes (v ++ w))
      | r => r
    | r => r

/-! ### Decoding a bundle -/

/-- The forms whose whole effect is to write registers of the strand (R33), by slot opcode. -/
def registersOnly (slot op : Nat) : Bool :=
  if slot < 2 then decide (1 ≤ op) && decide (op ≤ 0x37)
  else decide (1 ≤ op) && (decide (op ≤ 0x27) || op == 0x2E || op == 0x2F)

/-- Whether a slot word without a decode acts (R42): its guard, read as its opcode reads it; for VMVS and VINS that of element j, where
their MOD and VB give one (R138). Of an unassigned opcode or a reserved TY the width is a DESIGN CHOICE (log 65). -/
def State.wordActs (s : State) (k : Sys2Proof.Slot) (v : Bundle) : Bool :=
  match k.guard with
  | none => true
  | some g =>
    if k.idx < 2 then s.guard g
    else
      let f := unpackV (if k.idx = 2 then slotV0 v else slotV1 v)
      match wordGuardWidth k.opcode.toNat f.ty with
      | none => s.guard g
      | some w =>
        let all := (List.range (2048 / w)).any (fun i => s.active g w i)
        if k.opcode.toNat = 0x2E ∨ k.opcode.toNat = 0x2F then
          if f.mod = 0 ∧ f.vb.toNat % 512 < 2048 / w then s.active g w (f.vb.toNat % 512)
          else if f.mod = 1 then s.actsAt g f.ty (.reg (BitVec.ofNat 6 f.vb.toNat))
          else all
        else all

def isNoop (i : Instr) : Bool := match i with | .nop | .vnop | .mnop | .xnop | .cnop => true | _ => false

/-- What is left of an S0 word that no decode admits and whose guard is false: a transfer still makes its delay bundles (R42, R73). -/
def deadTransfer (k : Sys2Proof.Slot) : Option Instr :=
  match k.guard with
  | none => none
  | some g =>
    if k.idx ≠ 0 then none
    else match k.opcode.toNat with
      | 0x40 => some (.br g 0)
      | 0x41 => some (.jmp g 0)
      | 0x42 => some (.call g 0)
      | 0x43 => some (.calli g 0)
      | 0x44 => some (.ret g)
      | _ => none

/-- The slots up to the first that no decode admits and whose guard holds; a rejected slot with a false guard is a no-op, but for a
transfer (R42). -/
def State.liveSlots (s : State) (v : Bundle) : List Sys2Proof.Slot → List (Nat × Instr) × Option (Nat × Nat)
  | [] => ([], none)
  | k :: ks =>
    match k.body with
    | .ok i =>
      let (l, b) := s.liveSlots v ks
      (if isNoop i then l else (k.idx, i) :: l, b)
    | .error _ =>
      if s.wordActs k v then ([], some (k.idx, k.opcode.toNat))
      else
        let (l, b) := s.liveSlots v ks
        (match deadTransfer k with | some i => (k.idx, i) :: l | none => l, b)

/-- The bundle as the core decodes it, or ILLEGAL_BUNDLE (R31). A CRIT bit takes effect by the slot's opcode alone, on a word that no decode
admits and whose guard is false as well: a DESIGN CHOICE (R33, log 65). -/
def State.decodeBundle (s : State) (v : Bundle) : Except Trap Fetch :=
  match decodeHeader (slotHeader v) with
  | .error _ => .error { code := 0x03, info := (slotHeader v).setWidth 64, decode := true }
  | .ok h =>
    let ks := decodeSlots v
    let (slots, bad) := s.liveSlots v ks
    let crit := (ks.filter (fun k => decide (k.idx < 4) && h.crit.getLsbD (3 - k.idx) && registersOnly k.idx k.opcode.toNat)).foldl
      (fun (m : BitVec 4) k => m ||| BitVec.ofNat 4 (2 ^ (3 - k.idx))) 0
    .ok { pop := h.pop, crit := crit, gap := h.gap, slots := slots, bad := bad }

/-! ### BUNDLE_FETCH -/

/-- A trap raised before a slot is reached: a fetch or header cause, or a cause of an earlier bundle. -/
def State.trapHere (s : State) (t : Trap) : State :=
  ((s.unask s.cur.core s.bk).modBk fun b => { b with idle := none, walkErr := none, far := [], wait := none }).takeTrap
    s.cur.core s.cur.pos t s.cur.pc

/-- Block the strand at its next bundle. -/
def State.blockHere (s : State) (w : Wait) : State := s.modBk fun b => { b with wait := some w }

/-- R18, R141, R273: the bundle issues, or its registers or its latches hold it back; a replay takes logged values for registers that are not
delivered yet (R310). Only the slots before the first that no decode admits
count: a bundle that also names a pending register traps at once where the rejected slot stands before the one that names it, and blocks
first where it stands after it (DESIGN CHOICE, log 76). -/
def State.letIn (s : State) (f : Fetch) : State :=
  let c := s.cur.core
  let p := s.cur.pos
  let s := match s.hazard f.slots f.pop with
    | .pend rs => if s.bk.task.any Task.replay then s.giveLogged c p rs else s
    | _ => s
  match s.hazard f.slots f.pop with
  | .pend rs => s.modBk fun b => { b with wait := some (.regs rs), since := s.clk }
  | .held n =>
    let l := s.bk.qget n
    let e := s.faultOf c p l.va 3 { code := 0x10, info := l.info, slot := 7 } none
    (s.putFault { e with latch := some n }).blockHere .park
  | _ => { s with fetched := some f }

/-- The bundle blocks until the code that it reads is at hand, or traps. -/
def State.codeWaits (s : State) : Code → State
  | .walk va => (s.askWalk va (needOf 5 2) (!s.bk.priv) false).blockHere .walk
  | .later => s.blockHere (.clk (s.clk + 1))
  | .far x pa => (s.askFar s.cur.core s.cur.pos x (pa / 128)).blockHere .far
  | .trap t => s.trapHere t
  | .bytes _ => s

/-- The bundle at `pc`, whose translation and bytes are at hand or not (R44, R46, R47, R49). -/
def State.fetchBundle (s : State) : State :=
  let b := s.bk
  let pc := s.cur.pc
  let go (s : State) (v : Bundle) (next : Word) : State :=
    let s := { s with cur := { s.cur with next := next } }
    match s.decodeBundle v with
    | .error t => s.trapHere t
    | .ok f => s.letIn f
  match s.codeAt pc 2 with
  | (s, .bytes u) =>
    let n := natOfBytes u
    if n < (b.csrAt 0x016).toNat then
      match b.dict[n]? with
      | some v => go s v (pc + 2)
      | none => s.modBk fun b => { b with dictDue := true, wait := some .dict }
    else if n = 0xFFFF then
      match s.codeUnits 24 (pc + 2) with
      | (s, .bytes w) =>
        if b.idle = some pc then go s (BitVec.ofNat 384 (natOfBytes w)) (pc + 50)
        else (s.modBk fun b => { b with idle := some pc }).modCr fun x => { x with issue := { x.issue with hold := max x.issue.hold (s.clk + 1) } }
      | (s, r) => s.codeWaits r
    else s.trapHere { code := 0x01, info := BitVec.ofNat 64 n }
  | (s, r) => s.codeWaits r

/-- Accesses of the strand that failed at a fenced peer get their fault-queue entries, in issue order, and the strand parks
(R352). -/
def State.parkFailed (s : State) (c p : Nat) : State :=
  let b := s.bank c p
  (b.accs.filter (fun a => a.st == .failed && !a.told)).foldl (fun s a =>
    let k := s.bank c p
    if k.accs.any (fun x => x.id != a.id && k.partsOf a.id x && x.st == .failed && x.told) then
      s.modBank c p fun b => b.modAcc a.id fun y => { y with told := true }
    else
    let kind := match a.kind with | .atomic _ => 0xC | .cdld _ => 0xD | .store => 0xB | _ => 0xA
    (s.putFault (s.faultOf c p a.va kind { code := 0x1A, slot := a.slot } (some a.id))).modBank c p fun b =>
      b.modAcc a.id fun y => { y with told := true }) s

/-- One entry for the clk in which a recorded strand was ready and did not issue (R309); the value of a stall is free (log 5). -/
def State.recordStall (s : State) (c p : Nat) : State :=
  let b := s.bank c p
  if b.status 7 && b.stall != 0 then
    ((s.record c p 2 b.stall (Config.freeWord s.fresh)).modBank c p fun b => { b with stall := 0 }).drawn
  else s

/-- While it records, a ready strand of the core that does not issue in this clk counts a stall, and one that waits at a WAITS the clk of
its wait (R309). -/
def State.countStalls (s : State) (c : Nat) (issuing : Option Nat) : State :=
  [0, 1, 2, 3].foldl (fun s p =>
    if (s.bank c p).status 7 = false then s
    else if some p ≠ issuing ∧ s.strandReady c p = true then s.modBank c p fun b => { b with stall := b.stall + 1 }
    else match (s.bank c p).wait with
      | some (.sem n t) => if (s.core c).semReady n t then s else s.modBank c p fun b => { b with waited := b.waited + 1 }
      | _ => s) s

/-- Whether a strand that replays is still before the clk in which its next bundle issues (R310). -/
def State.replayHold (s : State) (c p : Nat) : State × Option Nat :=
  match (s.bank c p).task with
  | none => (s, none)
  | some t =>
    if t.replay = false then (s, none)
    else
      let s := if t.due = 0 then s.setDue c p s.clk else s
      let due := ((s.bank c p).task.map (·.due)).getD 0
      (s, if s.clk < due then some due else none)

/-- The strand of a core that replays and whose next bundle is due: it takes the issue unit from whatever strand holds it (R310, log 70). -/
def State.dueReplay (s : State) (c : Nat) : Option Nat :=
  [0, 1, 2, 3].find? (fun p => match (s.bank c p).task with
    | some t => t.replay && t.due != 0 && decide (t.due ≤ s.clk) && s.strandReady c p
    | none => false)

/-- The holder of the issue unit issues, traps, blocks, or gives the unit up. -/
def State.fetchStrand (s : State) (c p : Nat) : State :=
  let b := s.bank c p
  let s := { s with cur := { core := c, pos := p, slot := 7, pc := b.pc, next := b.pc } }
  if b.hasFailed then
    (s.parkFailed c p).pushFront .strandSwitch { core := c }
  else if s.stopped c p then s.pushFront .strandSwitch { core := c }
  else if b.entry.isSome then s
  else
    match b.async with
    | t :: ts =>
      (s.modBk fun b => { b with async := ts }).trapHere (if t.code = 0x17 then { t with info := b.csrAt 0x028 } else t)
    | [] =>
      if b.uiDue then s.pushFront .userInterruptEntry { core := c }
      else if b.reported || !(match b.wait with | some w => s.waitOver c p w | none => true) then
        s.pushFront .strandSwitch { core := c }
      else
        match b.dictErr with
        | some t => (s.modBk fun b => { b with dictErr := none }).trapHere t
        | none =>
          match s.replayHold c p with
          | (s, some n) => (s.blockHere (.clk n)).pushFront .strandSwitch { core := c }
          | (s, none) =>
            let s := (s.recordStall c p).fetchBundle
            let held := match (s.bank c p).wait with | none | some (.turns _) => true | _ => false
            if held || s.fetched.isSome || (s.bank c p).idle.isSome then s else s.pushFront .strandSwitch { core := c }

/-- BUNDLE_FETCH (R44, R90): operands core. Nothing issues on a cluster that is not On, nor while an idle clk, a gap, a bubble or a
frozen pipeline holds the core. -/
def execBundleFetch (s : State) : Host.Outcome State Fault Refusal :=
  let c := s.ev.core
  let i := (s.core c).issue
  let s := { s with fetched := none }
  let due := if s.isFrozen c then none else (s.dueReplay c).filter (fun q => q != i.pos || q != i.lastPos)
  if (s.cluster (clusterOf c)).power ≠ .on then .next s
  else if due.isSome then
    let q := due.getD 0
    .next (((s.modCore c fun x => { x with issue := { i with pos := q, yielded := false } }).countStalls c (some q)).fetchStrand c q)
  else if i.yielded && !s.isFrozen c then .next ((s.countStalls c none).pushFront .strandSwitch { core := c })
  else if s.clk < i.hold then .next (s.countStalls c none)
  else
    let s := s.countStalls c (some i.pos)
    .next (s.fetchStrand c i.pos)

/-! ### The slots of a bundle -/

/-- GAP (R34): the core issues nothing for `n` clk after the bundle. -/
def execGap (n : BitVec 4) (s : State) : Host.Outcome State Fault Refusal :=
  .next (s.modCr fun x => { x with issue := { x.issue with hold := max x.issue.hold (s.clk + 1) + n.toNat } })

/-- The number of marked slots whose three results disagree: a free choice for each that acts (log 5). -/
def State.disagreements (s : State) : Nat → Nat
  | 0 => 0
  | n + 1 => s.disagreements n + (s.cur.live.getLsbD n && Config.chooses (s.fresh + n)).toNat

/-- CRIT (R100): the marked slots are triple-issued, and the core issues nothing for 2 clk. -/
def execCrit (mask : BitVec 4) (s : State) : Host.Outcome State Fault Refusal :=
  if mask = 0 then .next s
  else
    let s := { s with cur := { s.cur with crit := mask } }
    .next { s.modCr fun x =>
      { x with issue := { x.issue with hold := max x.issue.hold (s.clk + 3), tmrBad := x.issue.tmrBad + s.disagreements 4 } } with
      fresh := s.fresh + 4 }

/-- VNOP, MNOP, XNOP, CNOP (R35). -/
def execVnop (s : State) : Host.Outcome State Fault Refusal := .next s
def execMnop (s : State) : Host.Outcome State Fault Refusal := .next s
def execXnop (s : State) : Host.Outcome State Fault Refusal := .next s
def execCnop (s : State) : Host.Outcome State Fault Refusal := .next s

/-- A block of a journal instruction, which the engine's work ends (R203, R218). -/
def Mark.journal : Mark → Bool
  | .blocked (.journal _) => true
  | _ => false

/-- The instructions of S0 that change what the other slots of their bundle read: they act after those, which read the state before the
bundle (R7). -/
def actsLast (i : Instr) : Bool :=
  match i with
  | .spok _ _ | .eret _ | .uiret _ | .swap _ _ | .tlbinvPage _ _ _ _ | .tlbinvCtx _ _ _ | .tlbinvAll _ _ => true
  | _ => false

/-- The instruction of slot `k` on a state. -/
def State.slotOn (s : State) (ex : Instr → State → Host.Outcome State Fault Refusal) (k : Nat) (i : Instr) :
    Host.Outcome State Fault Refusal := ex i { s with cur := { s.cur with slot := k }, mark := .done }

/-- A bundle that traps or blocks has no other effect (R21, R18): the trap or the block `m` that slot `k` came to, on the state before the
bundle. -/
def State.onlySlot (ex : Instr → State → Host.Outcome State Fault Refusal) (base : State) (k : Nat) (i : Instr) (m : Mark) :
    Host.Outcome State Fault Refusal :=
  match base.slotOn ex k i with
  | .next u =>
    .next (match u.mark, m with
      | .done, .trapped t => { base.takeTrap base.cur.core base.cur.pos t base.cur.pc with mark := m }
      | .done, .blocked w => { base.modBk (fun b => { b with wait := some w }) with mark := m }
      | _, _ => u)
  | o => o

/-- Run the slots in order, each on the state that those before it left, up to the first that does not complete. A journal instruction that
waits for the engine places its work only where no later slot traps or blocks (R21, R218). -/
def State.runSlots (ex : Instr → State → Host.Outcome State Fault Refusal) (base : State) :
    List (Nat × Instr) → State → Host.Outcome State Fault Refusal
  | [], s => .next s
  | (k, i) :: l, s =>
    match s.slotOn ex k i with
    | .next t =>
      match t.mark with
      | .done =>
        if actsLast i then
          match base.runSlots ex l s with
          | .next u =>
            if u.mark = .done then
              match u.slotOn ex k i with
              | .next v => if v.mark = .done then .next v else base.onlySlot ex k i v.mark
              | o => o
            else .next u
          | o => o
        else base.runSlots ex l t
      | .blocked (.journal _) =>
        match base.runSlots ex l { s with mark := .done } with
        | .next u => if u.mark = .done then base.onlySlot ex k i t.mark else .next u
        | o => o
      | _ => base.onlySlot ex k i t.mark
    | o => o

/-- The first slot that raises a decode cause, by itself on the state before the bundle: what it comes to (R141). -/
def State.decodeCause (ex : Instr → State → Host.Outcome State Fault Refusal) (base : State) : List (Nat × Instr) → Option State
  | [] => none
  | (k, i) :: l =>
    match base.slotOn ex k i with
    | .next u => (match u.mark with | .trapped t => if t.decode then some u else base.decodeCause ex l | _ => base.decodeCause ex l)
    | _ => base.decodeCause ex l

/-- The clk in which a bundle has issued: where the strand goes next (R22, R29, R73). -/
def State.advance (s : State) (before : Option Owed) : State :=
  let b := s.bk
  let next := s.cur.next
  match before with
  | some o =>
    if o.left ≤ 1 then
      let s := s.modBk fun b => { b with owed := none, go := none, goRun := none, pc := o.target.getD next, run := o.target.getD b.run }
      match o.target, o.shift with
      | some _, some retreat => s.push .windowShift { core := s.cur.core, pos := s.cur.pos, flag := retreat, v := next }
      | _, _ => s
    else s.modBk fun b => { b with owed := some { o with left := o.left - 1 }, pc := next }
  | none =>
    match b.go with
    | some t => s.modBk fun b => { b with go := none, goRun := none, pc := t, run := b.goRun.getD t }
    | none => s.modBk fun b => { b with pc := next }

/-- What a bundle that has issued leaves behind. -/
def State.commit (s : State) (before : Option Owed) (released : Bool) : State :=
  let s := if released && s.bk.status 7 then
      ((s.record s.cur.core s.cur.pos 4 (s.bk.waited + 1) (Config.freeWord s.fresh)).drawn).modBk fun b => { b with waited := 0 } else s
  let s := (s.advance before).modBk fun b =>
    { b with walkErr := none, idle := none, far := [], task := b.task.map fun t => { t with bundles := t.bundles + 1 } }
  (s.modBk Bank.forwardNow).modCr fun x => { x with issue := { x.issue with lastClk := s.clk, lastPos := s.cur.pos, replays := 0 } }

/-- An issue clk counts for the world of the task (R343). -/
def State.countIssue (s before : State) : State :=
  match before.bk.task with
  | none => s
  | some t =>
    let w := s.worldOf t.ctx
    let count (m : SMap Nat) : SMap Nat := mapSet (fun _ => 0) m w (mapGet (fun _ => 0) m w + 1)
    s.modCluster (s.cur.core / 4) fun k => { k with issueClk := count (k.issueClk.headD []) :: k.issueClk.tail }

/-- A bundle of a replay has issued: the clk of the next one is known (R310). -/
def State.nextDue (s : State) : State := s.setDue s.cur.core s.cur.pos (max (s.clk + 1) s.cr.issue.hold)

/-- What would take the bundle back that has issued from `before` (R99). -/
def State.remember (s before : State) : State :=
  let x := before.cr
  let y := s.cr
  let u : Undo := { uid := before.bk.uid, order := s.order, bank := { before.bk with wait := none },
                    waits := y.semWait.drop x.semWait.length, sigs := (y.semSig.drop x.semSig.length).map fun e => (e.1, e.2.1),
                    sets := (y.semSet.drop x.semSet.length).map fun e => (e.1, x.semCount e.1) }
  s.modCr fun z => { z with issue := { z.issue with undo := some u } }

/-- What a bundle that has trapped leaves behind. -/
def State.afterTrap (t s : State) : State :=
  (t.unask s.cur.core s.bk).modBk fun b => { b with idle := none, walkErr := none, far := [] }

/-- The turns of the scratchpad banks that a bundle still owes before it issues (R136): it is held once, from the clk in which nothing
else blocks it; a bundle whose JVERIFY has been answered was held in the clk in which that was placed (R218). -/
def State.turnsDue (s : State) (f : Fetch) : Nat :=
  let k := bankTurns (f.slots.flatMap (fun e => s.chunksOf e.2))
  match s.bk.wait with
  | some (.turns _) | some (.journal 0xA9) => 0
  | _ => k - 1

/-- Hold the core for `n` clk (R136); the hold is no block. -/
def State.holdTurns (s : State) (n : Nat) : State := if n = 0 then s else s.holdCore (s.clk + n)

/-- The state that the slots of a bundle find: its place in issue order taken, which of S0 to S3 carry a CRIT mark and act (R100), and the
vector groups that change hands without a block (R95); the clk of its vector accesses is noted for the spill engine. -/
def State.begun (s : State) (f : Fetch) : State :=
  let live := (f.slots.filter (fun e => decide (e.1 < 4) && f.crit.getLsbD (3 - e.1) && s.acts e.1 e.2)).foldl
    (fun (m : BitVec 4) e => m ||| BitVec.ofNat 4 (2 ^ (3 - e.1))) 0
  let groups := ((f.slots.flatMap (fun e => s.slotNames e.1 e.2)).filter (fun o => o.file == 3 && s.bk.vok o.idx)).map (fun o => s.bk.vphys o.idx / 8)
  let s := if groups = [] then s else s.modCr fun x => { x with portClk := s.clk }
  { ({ s with order := s.order + 1, cur := { s.cur with live := live } }.modBk
    fun b => { b with wait := none, uiReady := true }).bringGroups groups with mark := .done }

/-- Issue the fetched bundle (R21): POP acts on the latches as every slot sees them before it (R32), CRIT, the slots S0 to C, GAP. A
slot that no decode admits traps where no earlier slot does; in a debug mode PENDING_READ is checked after every decode cause
(R141). An uncorrectable scalar source traps at its slot, after the slot's decode causes (R101). -/
def State.runBundle (ex : Instr → State → Host.Outcome State Fault Refusal) (s0 : State) (f : Fetch) :
    Host.Outcome State Fault Refusal :=
  let b := s0.bk
  let s0 := { s0 with fetched := none }
  let base := s0.begun f
  let head := (if f.pop = 0 then [] else [(7, Instr.pop f.pop)]) ++ (if f.crit = 0 then [] else [(7, Instr.crit f.crit)])
  let tail := if f.gap = 0 then [] else [(7, Instr.gap f.gap)]
  let turns := s0.turnsDue f
  match base.runSlots ex (head ++ f.slots) base with
  | .next t =>
    let decodeTrap := match t.mark with | .trapped d => d.decode | _ => false
    match s0.hazard f.slots f.pop, f.bad with
    | .debug p, bad =>
      .next (match base.decodeCause ex (head ++ f.slots), bad with
        | some u, _ => u.afterTrap s0
        | none, some (k, op) => (base.trapHere { illegal op with slot := k }).afterTrap s0
        | none, none => (base.trapHere p).afterTrap s0)
    | .bank p, bad =>
      let encoding := match bad with | some (k, op) => if k ≤ p.slot then some { illegal op with slot := k } else none | none => none
      let k := t.cur.slot
      let earlier := t.mark != .done && !t.mark.journal && (decide (7 ≤ k) || decide (k < p.slot) || (k == p.slot && decodeTrap))
      .next (if earlier then t else (base.trapHere (encoding.getD p)).afterTrap s0)
    | _, some (k, op) =>
      .next (if t.mark = .done ∨ t.mark.journal = true then (base.trapHere { illegal op with slot := k }).afterTrap s0 else t)
    | _, none =>
      match t.mark with
      | .done =>
        if turns ≠ 0 then .next ((s0.blockHere (.turns (s0.clk + turns))).holdTurns turns)
        else
          match t.runSlots ex tail t with
          | .next u => .next ((u.commit b.owed (match b.wait with | some (.sem _ _) => true | _ => false)).remember s0 |>.countIssue s0).nextDue
          | o => o
      | .trapped _ => .next (t.afterTrap s0)
      | .blocked w =>
        let t := t.modBk fun b => { b with uiReady := s0.bk.uiReady }
        let t := if w = .journal 0xA9 then t.holdTurns turns else t
        .next (if w = .drain then t else t.pushFront .strandSwitch { core := s0.cur.core })
  | o => o

/-! ### Dictionaries and corrected words -/

/-- The dictionary that a bank names: context, code region, address, length. Strands share a resident copy where all four agree, since DBASE
and DLEN name the same bundles only then (R47; DEDUCED, log 76). -/
def Bank.dictionary (b : Bank) : Nat × Word × Word × Word := (b.ctx, b.csrAt 0x00B, b.csrAt 0x015, b.csrAt 0x016)
/-- The distinct dictionaries of a core's tasks (R47, R290). -/
def Core.dictionaries (x : Core) : List (Nat × Word × Word × Word) :=
  (([0, 1, 2, 3, 4].map x.bank).filter (fun b => b.task.isSome)).map Bank.dictionary |>.eraseDups
/-- Whether an image fits into the store of 4,096 entries beside the resident images of the core's other strands (R48, R290). -/
def Core.dictRoom (x : Core) (p : Nat) : Bool :=
  let others := ([0, 1, 2, 3, 4].filter (fun q => q != p && (x.bank q).task.isSome && !(x.bank q).dictDue)).map (fun q => (x.bank q).dictionary)
  decide ((((x.bank p).dictionary :: others).eraseDups.map (fun d => d.2.2.2.toNat)).sum ≤ 4096)

/-- What a read of a dictionary comes to: the state with the bytes or the trap, or none where it must wait, for a refresh or a peer. -/
abbrev DictRead (α : Type) := State × Except (Option Trap) α

/-- `n` bytes of a dictionary in one page, read as access kind 6 (R47, R229) through the shared cache (R223). EINFO of a denial by the
firewall is access kind 6 as well (R290). -/
def State.dictAt (s : State) (c ctx : Nat) (user : Bool) (va : Addr) (n : Nat) : State × Code :=
  match s.lookup c ctx va (needOf 6 n) user with
  | (s, .error t) => (s, .trap { t with info := if t.code = 0x13 then 6 else t.info })
  | (s, .ok (pa, some x)) => (s, .far x pa)
  | (s, .ok (pa, none)) =>
    if s.refreshing pa then (s, .later)
    else
      let (s, bs, ue) := s.readHome ctx pa n
      (s, if ue then .trap (memTrap pa va) else .bytes bs)

/-- `n` bytes of the dictionary of the strand in position `p`, of a peer in one piece (R348). -/
def State.dictPart (s : State) (c p : Nat) (va : Addr) (n : Nat) : DictRead (List Byte) :=
  let b := s.bank c p
  match s.dictAt c b.ctx (!b.priv) va n with
  | (s, .bytes bs) => (s, .ok bs)
  | (s, .trap t) => (s, .error (some t))
  | (s, .far x pa) =>
    match s.farBytes b x pa n va with
    | some (.ok bs) => (s, .ok bs)
    | some (.error t) => (s, .error (some (if t.code = 0x11 then { t with info := 6 } else t)))
    | none => (s.askFar c p x (pa / 128), .error none)
  | (s, _) => (s, .error none)

/-- DLEN as the 16 bytes at DICT hold it (R290). -/
def dlenOf (bs : List Byte) : Nat := min (natOfBytes bs % 8192) 4096

/-- The image of DLEN bundles at DBASE, by the 16-byte chunks of its entries: the first failure of a translation, right or firewall check, or of a read (R47, R290, R303). Entry
addresses are formed in 80 bits: an image that passes the end of its region goes on in the next one (log 65). -/
def State.readImage (s : State) (c p : Nat) (at_ : Addr) : Nat → DictRead (List Bundle)
  | 0 => (s, .ok [])
  | n + 1 =>
    match s.readImage c p at_ n with
    | (s, .error t) => (s, .error t)
    | (s, .ok l) =>
      let va := at_ + BitVec.ofNat 80 (48 * n)
      let r := [0, 16, 32].foldl (fun (r : DictRead (List Byte)) o =>
        match r with
        | (s, .error t) => (s, .error t)
        | (s, .ok bs) =>
          match s.dictPart c p (va + BitVec.ofNat 80 o) 16 with
          | (s, .ok more) => (s, .ok (bs ++ more))
          | (s, .error t) => (s, .error t)) (s, .ok [])
      match r with
      | (s, .ok bs) => (s, .ok (l ++ [BitVec.ofNat 384 (natOfBytes bs)]))
      | (s, .error t) => (s, .error t)

/-- The dictionary of a strand is not resident for a failure, which traps at its next bundle (R48, R290). -/
def State.dictFails (s : State) (c p : Nat) (t : Trap) : State :=
  s.modBank c p fun b => { b with dict := [], dictDue := false, dlenDue := false, dictErr := some t, far := [] }

/-- DICT_RELOAD (R48, R290): operands core, pos. DLEN is read where the pop could not read it; once it fits into the store, the new image is
resident, or its failure traps at the next bundle. Strands of a core share an image, and each keeps it as it stood when it was loaded: of the
values that R48 permits for an entry stored over during the task, the one at the load (log 65). -/
def execDictReload (s : State) : Host.Outcome State Fault Refusal :=
  let c := s.ev.core
  let p := s.ev.pos
  let b := s.bank c p
  let at_ : Addr := (b.csrAt 0x00B).setWidth 16 ++ b.csrAt 0x015
  if b.dictDue = false then .next s
  else if b.dlenDue then
    match s.dictPart c p (at_ - 16) 16 with
    | (s, .ok bs) => .next (s.modBank c p fun b => { b.putCsr 0x016 (BitVec.ofNat 64 (dlenOf bs)) with dlenDue := false, far := [] })
    | (s, .error (some t)) => .next (s.dictFails c p t)
    | (s, .error none) => .next s
  else if (s.core c).dictRoom p = false then .next s
  else
    match s.readImage c p at_ (b.csrAt 0x016).toNat with
    | (s, .ok l) => .next (s.modBank c p fun b => { b with dict := l, dictDue := false, dictErr := none, far := [] })
    | (s, .error (some t)) => .next (s.dictFails c p t)
    | (s, .error none) => .next s

/-- A correctable error of a memory word counts against its page; the sixteenth since reset retires it (R304). -/
def State.countCorrected (s : State) (pa : Nat) : State :=
  let d := s.die (homeDie pa)
  let n := mapGet (fun _ => 0) d.corrCount (pa / 4096) + 1
  let s := s.setDie (homeDie pa) { d with corrCount := mapSet (fun _ => 0) d.corrCount (pa / 4096) n }
  if n = 16 then s.retirePage pa else s

/-- ECC_REWRITE (R101, R199, R304): operands core, loc. A word that was read with a correctable error is written again with the same
value: nothing that software reads changes, but for the count of a page; a corrected MRAM unit goes to its slab's journal engine. -/
def execEccRewrite (s : State) : Host.Outcome State Fault Refusal :=
  match s.ev.loc with
  | .phys pa =>
    let s := s.countCorrected pa
    match placeOf pa with
    | .mram cl off => .next (s.modCluster cl fun k => { k with slab := { k.slab with work := k.slab.work ++ [.rewrite (64 * (off / 64)) false] } })
    | _ => .next s
  | _ => .next s

end Sys2Proof.Machine
end

