-- ==== Sys2Proof/Machine/Tasks.lean ====
section
/-!
DEFINITION. The life of a task (R285-R302): insertion, pop, the timetable, the phase timer, RETIRE and REST, the end of a clk for a
bank, held log entries, and the release of fault-queue entries (R234).
-/

namespace Sys2Proof.Machine

/-! ### RETIRE and REST (R209, R296) -/

/-- The strand stays at its RETIRE bundle while the end of the task goes on. -/
def State.beginEnd (s : State) (e : Ending) : State :=
  s.modBk fun b => { b with go := some s.cur.pc, task := b.task.map fun t => { t with ending := some e } }

/-- RETIRE (R296) -/
def execRetire (g : Guard) (s : State) : Host.Outcome State Fault Refusal :=
  s.guarded g (s.forbid 0x4C true true true (.ok (s.beginEnd {})))
/-- RETIRE.FAIL (R296) -/
def execRetireFail (g : Guard) (cause : BitVec 8) (s : State) : Host.Outcome State Fault Refusal :=
  s.guarded g (s.forbid 0x4C true true true (.ok (s.beginEnd { fail := some cause.toNat })))
/-- RETIRE.REQUEUE (R296) -/
def execRetireRequeue (g : Guard) (s : State) : Host.Outcome State Fault Refusal :=
  s.guarded g (s.forbid 0x4C true true true (.ok (s.beginEnd { requeue := true })))
/-- REST (R209) -/
def execRest (g : Guard) (s : State) : Host.Outcome State Fault Refusal :=
  s.guarded g (s.forbid 0x4D true true true (.ok (s.beginEnd { rest := true })))

def State.setEnding (s : State) (c p : Nat) (e : Ending) : State :=
  s.modBank c p fun b => { b with task := b.task.map fun t => { t with ending := some e } }

/-- Failures reported while the end goes on (R296, R300, R301): an uncorrectable error rolls a guarded task back, and fails the waiting
records that a task without its guard named; any other cause ends the task FAILED with it. -/
def State.endCauses (s : State) (c p : Nat) (e : Ending) : State :=
  let b := s.bank c p
  match b.async, b.task with
  | t :: ts, some k =>
    if t.code = 0x18 ∧ b.guarded then s.rollback c p
    else
      let dep := t.code == 0x18 && b.status 9
      let s := if dep then s.failNamed c p k else s
      (s.modBank c p fun b => { b with async := ts }).setEnding c p { e with cause := e.cause.orElse (fun _ => some t.code), dep := e.dep || dep }
  | _, _ => s

/-- Nothing of the strand is in flight: results, accesses, deliveries, operations to be sent again (R256, R296). -/
def Bank.endQuiet (b : Bank) : Bool := b.flight.isEmpty && b.accs.isEmpty && b.pend.isEmpty && b.resend.isEmpty && b.async.isEmpty
/-- The same, but for accesses that only staged work holds back, which can perform once it is let go (log 69). -/
def Bank.endHeld (b : Bank) : Bool :=
  b.flight.isEmpty && b.resend.isEmpty && b.async.isEmpty && !b.staged.isEmpty
    && b.accs.all (fun a => a.st == .queued && ((a.kind.marker && !a.sc) || !b.mayPerform a))
    && b.pend.all (fun r => b.accs.any (fun a => a.dest == some r))

/-- The last steps of an end (R296): STATE and log entry, the position, the requeue, the rest request. -/
def State.endFinish (s : State) (c p : Nat) (t : Task) (e : Ending) : State :=
  let cause := e.cause.orElse fun _ => e.fail
  let s := if e.dep then s.depFail t.ctx t.named else s
  let s := s.finish c p (if cause.isSome then 4 else if e.requeue then 5 else 3) (cause.getD 0) t.logFlags
  let s := if e.requeue ∧ cause.isNone then s.push .recordInsert { va := t.va, pa := t.pa, ctx := t.ctx, how := .requeue } else s
  if e.rest then s.modCluster (clusterOf c) fun k => { k with rest := true } else s

/-- One clk of an end under way, at the end of the clk (R296). -/
def State.endStep (s : State) (c p : Nat) : State :=
  match (s.bank c p).task with
  | none => s
  | some t =>
    match t.ending with
    | none => s
    | some e =>
      if e.phase = 0 then (s.releaseBound c p false).setEnding c p { e with phase := 1 }
      else
        let s := (s.parkFailed c p).endCauses c p e
        match (s.bank c p).task with
        | none => s
        | some t =>
          let e := t.ending.getD e
          let s := s.modBank c p (·.tidy)
          let b := s.bank c p
          let m := ((s.core c).mq ++ (s.core c).mrun).any (fun m => m.uid == t.uid)
          if b.endQuiet = false ∧ (e.phase ≠ 1 ∨ b.endHeld = false) then s
          else if e.phase = 1 then
            if b.guarded ∧ (e.fail.isSome ∨ e.requeue = true) then s.rollback c p
            else
              let s := s.modBank c p fun b => b.release.mergeHeld.putStatus 10 false
              s.setEnding c p { e with phase := 2 }
          else if b.copies.isEmpty && b.deferred.isEmpty && !m then s.endFinish c p t e
          else s

/-! ### The end of a clk (R15, R16, R20, R211, R294) -/

/-- The non-volatile copy at a quiet boundary (R211): no exposed result in flight, no register pending. -/
def Bank.snapshot (b : Bank) : Bank :=
  if b.task.isSome && b.flight.isEmpty && b.pend.isEmpty then
    { b with nv := some ⟨b.s, b.wbase, b.a, b.p, b.pc, b.csr, b.owed, b.spec, b.shadow, b.gmem, b.winKept⟩ }
  else b

/-- EXPOSED_RESULT_LANDS: operands core, pos. Results due land in issue order; PHCNT counts the clk unless the strand is parked or the
pipeline frozen (R99, R294); an end under way takes its next step. -/
def execExposedResultLands (s : State) : Host.Outcome State Fault Refusal :=
  let c := s.ev.core
  let p := s.ev.pos
  let s := if (s.bank c p).task.isNone || s.isParked c p || s.isFrozen c then s
    else s.modBank c p fun b => b.putCsr 0x028 (BitVec.ofNat 64 (min ((b.csrAt 0x028).toNat + 1) 0xFFFFFFFF))
  .next (((s.landShared c).landDue c p).endStep c p)

/-- NV_SNAPSHOT (R211): operands core, pos. A cluster without power keeps the copies of the last quiet boundaries until its tasks have
resumed. -/
def execNvSnapshot (s : State) : Host.Outcome State Fault Refusal :=
  if (s.cluster (clusterOf s.ev.core)).power = .on then .next (s.modBank s.ev.core s.ev.pos fun b => b.snapshot) else .next s

/-! ### Insertion (R286) -/

/-- RECORD_INSERT: operands va, pa, ctx, how. A record of a terminated context sets DEAD for SPAWN and NBAD for NOTIFY; so does any
refusal for NOTIFY (R338). -/
def execRecordInsert (s : State) : Host.Outcome State Fault Refusal :=
  let e := s.ev
  match s.insertRec e.va e.pa e.ctx, e.how with
  | (s, .ok), _ => .next s
  | (s, .dead), .spawn => .next (s.schedNote (homeDie e.pa) 3 e.va)
  | (s, _), .notify w => .next (s.modWorld w fun x => { x with nbad := true })
  | (s, _), _ => .next s

/-! ### The pop (R290-R293) -/

/-- A record as the scheduler reads it at its pop (R285). -/
structure Popped where
  code : Addr
  dict : Addr
  frame : Addr
  arg : Nat
  deriving DecidableEq, Repr

def State.readRec (s : State) (pa : Nat) : Popped :=
  let v := s.memNat pa 64
  ⟨BitVec.ofNat 80 (bitsOf v 0 80), BitVec.ofNat 80 (bitsOf v 80 80), BitVec.ofNat 80 (bitsOf v 160 80), bitsOf v 464 48⟩

/-- The tasks of a core, in its positions and its shadow bank. -/
def Core.tasks (x : Core) : List Task := [0, 1, 2, 3, 4].filterMap (fun p => (x.bank p).task)

/-- Whether a range of vector registers meets none that a task of the core holds. -/
def Core.vectorsFree (x : Core) (base n : Nat) : Bool :=
  x.tasks.all (fun t => t.vregs = 0 || decide (8 * base + n ≤ 8 * t.vbase) || decide (8 * t.vbase + t.vregs ≤ 8 * base))
def Core.semsFree (x : Core) (base n : Nat) : Bool :=
  x.tasks.all (fun t => t.sems = 0 || decide (base + n ≤ t.semBase) || decide (t.semBase + t.sems ≤ base))

/-- The lowest VBASE.BASE, and the lowest SEMBASE.BASE, that fit (R290). -/
def Core.fitVectors (x : Core) (n : Nat) : Option Nat :=
  (List.range 256).find? (fun b => decide (8 * b + n ≤ 2048) && (n = 0 || x.vectorsFree b n))
def Core.fitSems (x : Core) (n : Nat) : Option Nat :=
  (List.range 256).find? (fun b => decide (b + n ≤ 255) && (n = 0 || x.semsFree b n))

/-- The frames of a pop, in the order of R290. -/
def State.pickFrames (s : State) (c ctx n : Nat) : List Nat :=
  let x := s.core c
  let granted (f : Nat) : Bool := x.tasks.any (fun t => bitOf t.frames f)
  let all := List.range 16
  let a := all.filter (fun f => x.owns f ctx)
  let b := all.filter (fun f => (s.ctx ctx).saved.contains (c, f))
  ((a ++ b ++ all.filter (fun f => !granted f) ++ all.filter granted).eraseDups).take n

/-- DLEN as the 16 bytes at DICT hold it, or the failure of their read (R290); none where a refresh or a peer delays the read. -/
def State.readDlen (s : State) (c ctx : Nat) (user : Bool) (dict : Addr) : DictRead Nat :=
  match s.dictAt c ctx user dict 16 with
  | (s, .bytes bs) => (s, .ok (dlenOf bs))
  | (s, .trap t) => (s, .error (some t))
  | (s, _) => (s, .error none)

/-- Whether the dictionary of a record fits into the store of 4,096 entries (R290). -/
def State.dictFits (s : State) (c ctx : Nat) (r : Popped) : Bool :=
  let user := (s.ctx ctx).mode % 2 = 0
  match (s.readDlen c ctx user r.dict).2 with
  | .error _ => true
  | .ok n =>
    let mine := (ctx, (r.code >>> 64).setWidth 64, (r.dict.setWidth 64 + 16 : Word), BitVec.ofNat 64 n)
    let l := ((s.core c).dictionaries ++ [mine]).eraseDups
    decide ((l.map (fun d => d.2.2.2.toNat)).sum ≤ 4096)

/-- Whether a ready record may be popped on core `c` (R286, R290, R293 but for claims, R297, R327, R343). -/
def State.mayPop (s : State) (c : Nat) (r : Rec) : Bool :=
  let w := s.worldOf r.ctx
  let x := s.core c
  let k := s.ctx r.ctx
  (r.cmask = 0 || bitOf r.cmask (clusterOf c % 16)) && k.loaded && !k.dead
    && (w = 0 || (s.world w).tdisp == .run) && !s.pkg.stopped.contains w
    && ((s.refreshLog r.ctx).ctx r.ctx).slotFree && (s.die (dieOf c)).heldLog.all (fun h => h.ctx != r.ctx)
    && (x.fitVectors r.vregs).isSome && (x.fitSems r.sems).isSome && !s.refreshing r.pa && s.dictFits c r.ctx (s.readRec r.pa)

/-- The budget B of a context, and its claim on a core (R292); the core keeps B − CL. -/
def State.budget (s : State) (ctx : Nat) : Int := ((1024 * (s.ctx ctx).share : Nat) : Int)
def State.claim (s : State) (c ctx : Nat) : Int := s.budget ctx - mapGet (fun _ => (0 : Int)) (s.core c).claims ctx

/-- R293: eligible by claims. -/
def State.claimed' (s : State) (c : Nat) (r : Rec) : Bool :=
  decide ((r.cost : Int) ≤ s.claim c r.ctx) || (decide (s.budget r.ctx < (r.cost : Int)) && decide (s.claim c r.ctx = s.budget r.ctx))

/-- The place of a context in the round-robin order after the one chosen last. -/
def Core.turn (x : Core) (ctx : Nat) : Nat := match x.lastCtx with | some l => (ctx + 4095 - l) % 4096 | none => ctx

/-- Whether `a` is chosen before `b`, which stands earlier in its queue (R293). -/
def State.chosenOver (s : State) (c : Nat) (byClaim : Bool) (a b : Rec) : Bool :=
  if a.prio ≠ b.prio then decide (b.prio < a.prio)
  else if byClaim && decide (s.claim c a.ctx ≠ s.claim c b.ctx) then decide (s.claim c b.ctx < s.claim c a.ctx)
  else decide ((s.core c).turn a.ctx < (s.core c).turn b.ctx)

def State.pickBest (s : State) (c : Nat) (byClaim : Bool) : List Rec → Option Rec
  | [] => none
  | r :: rs => some (rs.foldl (fun best r => if s.chosenOver c byClaim r best then r else best) r)

/-- The record that a core pops, and whether its context is charged (R293). -/
def State.choosePop (s : State) (c : Nat) : Option (Rec × Bool) :=
  let l := (s.die (dieOf c)).recs.filter (fun r => r.ready && s.mayPop c r)
  match s.pickBest c true (l.filter (fun r => s.claimed' c r)) with
  | some r => some (r, true)
  | none => (s.pickBest c false l).map (fun r => (r, false))

/-- The groups of a granted vector window pass to the new task (R95, R328): clean, without a saved copy, and zeroed where they hold
another world's data. -/
def State.grantGroups (s : State) (c uid ctx base n : Nat) : State :=
  let w := s.worldOf ctx
  let gs := (List.range ((n + 7) / 8)).map (fun i => base + i)
  let s := s.modCtx ctx fun k => { k with saved := k.saved.filter (fun e => !(e.1 == c && gs.any (fun g => e.2 == 256 + g))) }
  gs.foldl (fun s g => s.modCore c fun x =>
    let t := x.vtagAt g
    let x := if t.uid.isSome ∧ t.world ≠ w then x.putGroup g (List.replicate 2048 0) else x
    { x with vtag := mapSet (fun _ => ({} : VGroup)) x.vtag g ⟨some uid, ctx, 0, false, w⟩ }) s

/-- R328: a scratchpad or decoder FIFO of another world is cleared before the first bundle, in 512 clk. -/
def State.clearWorld (s : State) (c w : Nat) : State × Bool :=
  let x := s.core c
  let a := decide (x.scratchWorld ≠ w)
  let b := decide (x.fifoWorld ≠ w)
  let x := if a || b then
      { x.zeroScratch with scratchWorld := w, fifo := [], fifoWorld := w }
    else x
  (s.setCore c x, a || b)

/-- The bank of a task at its start (R13, R168, R171, R190, R290). The registers that no rule sets at task start (trap and interrupt
registers, CPSTAT, CPCRC, DEBUGCTL, copy descriptors) keep what the bank held (log 24). -/
def startBank (b : Bank) (k : Ctx) (t : Task) (r : Popped) (rec : Rec) (dlen : Nat) (err : Option Trap) (wait : Option Wait) : Bank :=
  let supv := k.mode % 2 = 1
  let status := (if supv then 2 ^ 14 else 0) + (if bitOf rec.flags 0 then 2 ^ 10 else 0) + (if bitOf rec.flags 1 then 2 ^ 7 else 0)
  let csrs : List (Nat × Word) := [
    (0x000, BitVec.ofNat 64 status), (0x00B, (r.code >>> 64).setWidth 64), (0x010, BitVec.ofNat 64 (8 * t.vbase)),
    (0x011, BitVec.ofNat 64 t.vregs), (0x012, BitVec.ofNat 64 t.semBase), (0x013, BitVec.ofNat 64 (t.sems + 1)),
    (0x014, BitVec.ofNat 64 (t.frames * 65536 + k.tiles)), (0x015, r.dict.setWidth 64 + 16), (0x016, BitVec.ofNat 64 dlen),
    (0x018, k.wstk), (0x029, BitVec.ofNat 64 rec.cost), (0x02A, BitVec.ofNat 64 k.margin)]
  let kept : List Nat := [0x001, 0x002, 0x003, 0x004, 0x005, 0x006, 0x007, 0x020, 0x021, 0x022, 0x058, 0x059, 0x070]
  let old := b.csr.filter (fun e => kept.contains e.1)
  { b.clearTask with
    task := some t, pc := r.code.setWidth 64, s := mapSet (fun _ => 0) [] 16 (BitVec.ofNat 64 r.arg), wbase := 0,
    a := mapSet (fun _ => 0) [] 0 r.frame, p := [], k := [],
    csr := csrs.foldl (fun m e => mapSet csrReset m e.1 e.2) old,
    dict := [], dictDue := err.isNone, dictErr := err, run := r.code.setWidth 64, wait := wait, overrun := false, lastPos := b.lastPos,
    nextId := 0, stall := 0, badS := [] }

/-- Pop a record to a position (R290); `charged` where the choice was by claims (R292). A task whose record is uncorrectable by then consumes it
(R303): it traps at its first bundle. -/
def State.popTo (s : State) (c p : Nat) (rec : Rec) (charged : Bool) (league : Option Nat) : State :=
  let s := s.refreshLog rec.ctx
  let d := dieOf c
  let r := s.readRec rec.pa
  let spoilt := s.bad rec.pa 64
  let ctx := rec.ctx
  let w := s.worldOf ctx
  let base := ((s.core c).fitVectors rec.vregs).getD 0
  let sem := ((s.core c).fitSems rec.sems).getD 0
  let frames := ((s.pickFrames c ctx rec.tfrm).map (fun f => 2 ^ f)).sum
  let uid := s.uids + 1
  let s := s.setRecState ctx rec.pa 2
  let s := s.modDie d fun x => { x with recs := x.recs.filter (fun y => y.pa != rec.pa) }
  let logSlot := (s.ctx ctx).nextSlot
  let s := s.modCtx ctx fun k => { k with reserved := k.reserved + 1, popped := k.popped + 1 }
  let user := (s.ctx ctx).mode % 2 = 0
  let (s, dlen) := s.readDlen c ctx user r.dict
  let (n, err, late) : Nat × Option Trap × Bool := match dlen with | .ok n => (n, none, false) | .error t => (0, t, t.isNone)
  let err := if spoilt then some (memTrap rec.pa rec.va) else err
  let (s, cleared) := s.clearWorld c w
  let s := s.grantGroups c uid ctx base rec.vregs
  let t : Task := {
    uid := uid, va := rec.va, pa := rec.pa, ctx := ctx, prio := rec.prio, cost := rec.cost, flags := rec.flags, cmask := rec.cmask,
    frame := r.frame, arg := r.arg, vbase := base, vregs := rec.vregs, semBase := sem, sems := rec.sems, frames := frames,
    replay := decide ((s.ctx ctx).replay ≠ 0), startClk := s.clk, league := league, logSlot := logSlot }
  let k := s.ctx ctx
  let s := s.modBank c p fun b =>
    { startBank b k t r rec n err (if cleared then some (.clk (s.clk + 512)) else none) with dlenDue := late && err.isNone }
  let s := if (s.bank c p).status 7 then s.logHeader c t 0 else s
  let s := s.modCore c fun x =>
    { x with lastCtx := some ctx,
             claims := if charged then mapSet (fun _ => (0 : Int)) x.claims ctx (mapGet (fun _ => (0 : Int)) x.claims ctx + (rec.cost : Int)) else x.claims }
  { s with uids := uid }

/-- Whether a position is empty and its core may pop (R290). -/
def State.positionFree (s : State) (c p : Nat) : Bool :=
  let x := s.core c
  let busy := match x.issue.exch with | some (n, _) => n == p | none => false
  decide (p < 4) && (x.bank p).task.isNone && !busy && (s.cluster (clusterOf c)).power == .on

/-! ### Positions that a league frees (R357) -/

/-- FTIME now, in ns (R355). -/
def State.ns (s : State) : Nat := (Config.fabricNs s.age).toNat
/-- Stands for the physical address of a member that has no record. -/
def noRecord : Nat := 2 ^ 56
/-- The cores whose strands may pop a member's record (R286). -/
def State.memberCores (s : State) (m : Nat × Addr × Nat) : List Nat :=
  if m.1 = noRecord then [] else
  let cm := bitsOf (s.memNat m.1 64) 352 16
  (List.range 64).filterMap (fun i =>
    let c := 64 * homeDie m.1 + i
    if cm = 0 || bitOf cm (i / 4) then some c else none)

/-- Positions still missing for the members of a league, over the cores that may take them. -/
def State.freeFor (s : State) (cores : List Nat) : Nat :=
  (cores.flatMap (fun c => ([0, 1, 2, 3].filter (fun p => s.positionFree c p)))).length

/-- The cores that may take a league's members. -/
def State.leagueCores (s : State) (l : League) : List Nat := (l.members.flatMap (fun m => s.memberCores m)).eraseDups
/-- From 10 µs before its start a league's positions are freed for it (R357). -/
def League.near (l : League) (ns : Nat) : Bool := (l.state == 1 || l.state == 3) && decide (l.t ≤ ns + 10000)
/-- The free positions of core `c` are kept for a league that needs them (R357, log 53). -/
def State.keptForLeague (s : State) (c : Nat) : Bool :=
  s.leagues.any (fun e => e.2.near s.ns && (s.leagueCores e.2).contains c && decide (s.freeFor (s.leagueCores e.2) ≤ e.2.l))

/-- RECORD_POP: operands core, pos. -/
def execRecordPop (s : State) : Host.Outcome State Fault Refusal :=
  let c := s.ev.core
  let p := s.ev.pos
  if s.positionFree c p && !s.keptForLeague c then
    match s.choosePop c with
    | some (r, charged) => .next (s.popTo c p r charged none)
    | none => .next s
  else .next s

/-- FURLONG_START (R292): CL := min(B, CL + B), so B − CL loses B and stays at least 0. -/
def execFurlongStart (s : State) : Host.Outcome State Fault Refusal :=
  if s.clk % Config.furlong ≠ 0 then .next s
  else .next (s.cores.map (·.1) |>.foldl (fun s c => s.modCore c fun x =>
    { x with claims := x.claims.map (fun e => (e.1, max 0 (e.2 - s.budget e.1))) |>.filter (fun e => e.2 != 0) }) s)

/-! ### The phase timer (R294) -/

/-- EXP ≠ 0 and COUNT > EXP + MARGIN. -/
def Bank.phaseOver (b : Bank) : Bool :=
  b.csrAt 0x029 != 0 && decide ((b.csrAt 0x029).toNat + (b.csrAt 0x02A).toNat < (b.csrAt 0x028).toNat)

/-- Queue operations of the strand that wait are withdrawn and kept (R276, R294). -/
def State.withholdOps (s : State) (c p : Nat) : State :=
  let b := s.bank c p
  let waiting := b.accs.filter (fun a => a.st == .waiting && (a.kind.isEnq || (a.kind.isTake && !a.kind.isRefill)))
  let s := waiting.foldl (fun s a => s.withdraw c b.uid a) s
  s.modBank c p fun b => { b with resend := b.resend ++ waiting.map (fun a => { a with st := .queued, told := false }) }

/-- PHASE_OVERRUN: operands core, pos. The timer expires once for a phase; a block, or an end under way, is abandoned, and the trap is
taken at the bundle that the strand stands at. A parked strand is trapped when it is released. -/
def execPhaseOverrun (s : State) : Host.Outcome State Fault Refusal :=
  let c := s.ev.core
  let p := s.ev.pos
  let b := s.bank c p
  if b.task.isNone then .next s
  else if b.phaseOver = false then .next (s.modBank c p fun b => { b with overrun := false })
  else if b.overrun then .next s
  else
    let s := s.withholdOps c p
    .next (s.modBank c p fun b =>
      { b with overrun := true, async := b.async ++ [{ code := 0x17, info := b.csrAt 0x028 }],
               task := b.task.map fun t => { t with ending := none } })

/-! ### Held log entries (R297) -/

/-- HELD_LOG_WRITE: operands die. The oldest held entry whose context has a free slot is written, in order for each context. -/
def execHeldLogWrite (s : State) : Host.Outcome State Fault Refusal :=
  let d := s.ev.die
  match (s.die d).heldLog.find? (fun e => ((s.refreshLog e.ctx).ctx e.ctx).slotFree) with
  | none => .next s
  | some e =>
    let s := s.refreshLog e.ctx
    let s := s.writeLog (s.ctx e.ctx).nextSlot e
    .next (s.modDie d fun x => { x with heldLog := x.heldLog.erase e })

/-! ### The release of fault-queue entries (R234, R273, R352) -/

/-- ACTION 0: a failed access is sent again, a held refill is sent again, a parked strand attempts its bundle afresh. -/
def State.releaseRetry (s : State) (c p : Nat) (e : FaultEntry) : State :=
  match e.accId, e.latch with
  | some id, _ => s.modBank c p fun b =>
    { b with accs := b.accs.map fun x => if b.partsOf id x ∧ x.st = .failed then { x with st := .queued, told := false, again := true } else x }
  | none, some n => if ((s.bank c p).qget n).held then s.sendRefill c p n 7 else s
  | none, none => s

/-- ACTION 1: the cause is raised at the bundle that the strand stands at; a failed access is given up, its destination takes a free
value (log 5), and the strand traps once for all of them. -/
def State.releaseFail (s : State) (c p : Nat) (e : FaultEntry) : State :=
  match e.accId, e.latch with
  | some id, _ =>
    match (s.bank c p).acc? id with
    | none => s
    | some a =>
      let v := s.freeNat 16
      ({ s with fresh := s.fresh + 16 } : State).modBank c p fun b =>
        let b := (b.unpend a.dest).applyWrite (a.freeResult v) a.order
        let b := if b.async.any (fun t => t.code == 0x1A) then b else { b with async := b.async ++ [e.trap (a.peer.getD 0)] }
        { b with accs := b.accs.filter fun x => !b.partsOf id x }.tidy
  | none, some n => s.modBank c p fun b => { b.unbind n with async := b.async ++ [e.trap 0] }
  | none, none => s.modBank c p fun b => { b with async := b.async ++ [e.trap 0] }

/-- ACTION 2: the task ends FAILED with VERSION, and its context is terminated (R23, R234). -/
def State.releaseReject (s : State) (e : FaultEntry) : State := s.terminate e.ctx 0x12

/-- FAULT_RELEASE: operands die. One entry is released in a clk, after the clk's writes of FQRESOLVE. -/
def execFaultRelease (s : State) : Host.Outcome State Fault Refusal :=
  let d := s.ev.die
  match nextRelease [] (s.die d).faults with
  | none => .next s
  | some e =>
    let s := s.modDie d fun x => { x with faults := x.faults.filter (fun f => f.seq != e.seq) }
    match (s.core e.core).posOf e.uid with
    | none => .next s
    | some p =>
      let s := s.modBank e.core p fun b => { b with parked := b.parked.filter (fun n => n != e.seq) }
      let atomic := e.kind == 0xC
      match e.action with
      | some 0 => .next (if atomic then s.releaseFail e.core p e else s.releaseRetry e.core p e)
      | some 1 => .next (s.releaseFail e.core p e)
      | _ => .next (s.releaseReject e)

end Sys2Proof.Machine
end

