-- ==== Sys2Proof/Machine/League.lean ====
section
/-!
DEFINITION. The League (R356-R359): LGWAIT, launch, pre-emption, start, messages, abort, relaunch. A message to the other chips stands in
the package's list of messages.
-/

namespace Sys2Proof.Machine

/-! ### LGWAIT (R358) -/

/-- LGWAIT: the arrival joins the queues as a release at fabric scope, and s[D] is pending. A task with the LEAGUE flag that no launch
has started arrives at no barrier, and waits (log 25). -/
def execLgwait (g : Guard) (d : BitVec 6) (s : State) : Host.Outcome State Fault Refusal :=
  let b := s.bk
  s.guarded g (
    if (b.task.any (fun t => bitOf t.flags 3)) = false then .trap (illegal 0xAC)
    else s.forbid 0xAC true true false (s.noGuard 0xAC
      (.ok (s.issueAcc { id := 0, kind := .lgwait ((b.task.bind (·.league)).getD 64), order := s.order, ord := 3, scope := 5,
                         dest := s.destS d } false))))

/-! ### Time (R355) -/

def League.graceNs (l : League) : Nat := 1000 * l.grace
/-- k·P with k the least integer ≥ 1 for which k·P ≥ grace + 100 µs (R359). -/
def League.period (l : League) : Nat := max 1 ((l.grace + 100 + l.p - 1) / l.p) * l.p

/-! ### Launch (R356) -/

/-- A member's record is inserted as R285 and R286 give, which wakes the clusters its CMASK names; it stands in its die's queues held
waiting, and no decrement makes it ready (R356). A record that is not inserted is never popped (log 53). -/
def State.holdMember (s : State) (m : Nat × Addr × Nat) : State :=
  if m.1 = noRecord then s
  else
    match s.insertRec m.2.1 m.1 m.2.2 with
    | (s, .ok) => (s.setRecState m.2.2 m.1 0).modDie (homeDie m.1) fun x =>
        { x with recs := x.recs.map (fun r => if r.pa = m.1 then { r with ready := false } else r) }
    | (s, _) => s

/-- The entry of a member: its record's address and context. -/
def memberAt (bs : List Byte) (i : Nat) : Addr × Nat :=
  let v := natOfBytes ((bs.drop (16 * i)).take 16)
  (BitVec.ofNat 80 (bitsOf v 0 80), bitsOf v 80 12)

/-- A member of a launch by world `w`; none where R356 returns BADARG: the context belongs to another world, or the record lacks the LEAGUE
flag or has JOIN ≠ 0. A member whose address gives no record (R285) is one that is never inserted (log 53). -/
def State.checkMember (s : State) (w : Nat) (m : Addr × Nat) : State × Option (Nat × Addr × Nat) :=
  if s.worldOf m.2 ≠ w then (s, none)
  else
    match s.walk 0 m.2 m.1 (needOf 3 64) false with
    | (s, .error _) => (s, some (noRecord, m.1, m.2))
    | (s, .ok e) =>
      let pa := e.at m.1
      let v := s.memNat pa 64
      if e.peer.isSome || !isLocal pa || isSlab pa || m.1.toNat % 64 != 0 then (s, some (noRecord, m.1, m.2))
      else if bitOf v 375 = false ∨ bitsOf v 256 32 ≠ 0 then (s, none)
      else (s, some (pa, m.1, m.2))

def State.checkMembers (s : State) (w : Nat) : List (Addr × Nat) → State × Option (List (Nat × Addr × Nat))
  | [] => (s, some [])
  | m :: ms =>
    match s.checkMember w m with
    | (s, none) => (s, none)
    | (s, some x) =>
      match s.checkMembers w ms with
      | (s, none) => (s, none)
      | (s, some xs) => (s, some (x :: xs))

/-- LGLAUNCH by world `w` with its arguments and the bytes of its entries: true OK, false BADARG (R356). -/
def State.launch (s : State) (w : Nat) (a0 a1 : Word) (entries : List Byte) : State × Bool :=
  let n := fieldOf a0 0 6
  let cnt := fieldOf a0 16 16
  match s.checkMembers w ((List.range cnt).map (fun i => memberAt entries i)) with
  | (s, none) => (s, false)
  | (s, some ms) =>
    if (s.league n).state ≠ 0 then (s, false)
    else
      let l : League := { s.league n with
        state := 1, world := w, n := fieldOf a0 8 8, l := cnt, p := fieldOf a0 32 32, t := a1.toNat, grace := s.pkg.grace,
        members := ms, gen := 0, sent := false, held := [], heard := [], judged := false }
      (ms.foldl (fun s m => s.holdMember m) (s.setLeague n l), true)

/-! ### Start (R357) -/

def State.memberRec (s : State) (m : Nat × Addr × Nat) : Option Rec := (s.die (homeDie m.1)).recs.find? (fun r => r.pa == m.1)

/-- The first free position that may take a member. -/
def State.memberPlace (s : State) (m : Nat × Addr × Nat) (r : Rec) : Option (Nat × Nat) :=
  (s.memberCores m).findSome? (fun c =>
    if s.mayPop c r then ([0, 1, 2, 3].find? (fun p => s.positionFree c p)).map (fun p => (c, p)) else none)

/-- Pop every member together, or none of them. -/
def State.popMembers (s : State) (n : Nat) : List (Nat × Addr × Nat) → Option State
  | [] => some s
  | m :: ms =>
    match s.memberRec m with
    | none => none
    | some r =>
      match s.memberPlace m r with
      | none => none
      | some (c, p) => (s.popTo c p r false (some n)).popMembers n ms

/-- The position of a core that an urgent pre-emption for a league frees: that of a task of no league before another. -/
def Core.victim (x : Core) : Option Nat :=
  let held := [0, 1, 2, 3].filter (fun p => (x.bank p).task.isSome)
  (held.find? (fun p => (x.bank p).task.any (fun t => t.league.isNone))).or held.head?

/-- LEAGUE_PREEMPT (R357): operands n. From 10 µs before T, positions of the members' clusters are freed by urgent pre-emption, one in
each core whose shadow bank is empty, until enough are free or being freed; ordinary records are not popped to them meanwhile. -/
def execLeaguePreempt (s : State) : Host.Outcome State Fault Refusal :=
  let n := s.ev.n
  let l := s.league n
  if l.near s.ns = false then .next s
  else
    let cores := s.leagueCores l
    let coming := (cores.filter (fun c => (s.core c).issue.exch.isSome)).length
    let want := l.l - (s.freeFor cores + coming)
    let can := cores.filter (fun c =>
      (s.core c).issue.exch.isNone && ((s.core c).bank 4).task.isNone && (s.cluster (clusterOf c)).power == .on
        && (s.core c).victim.isSome)
    .next ((can.take want).foldl (fun s c => s.beginExchange c ((s.core c).victim.getD 0)) s)

/-- Log a member that ends because its league is aborted (R359); a guarded one rolls back. -/
def State.abortMember (s : State) (p : Nat) (m : Nat × Nat × Task) : State :=
  let c := m.1
  let pos := m.2.1
  let b := s.bank c pos
  let s := (b.accs.filter (fun a => a.st == .waiting && a.kind != .gbar && (a.kind.isEnq || a.kind.isTake))).foldl
    (fun s a => s.withdraw c b.uid a) s
  let s := s.releaseLatches c pos
  let s := s.modBank c pos fun b => if b.guarded then { b with staged := [], deferred := [], heldFlags := 0, heldMx := [] } else b
  s.finish c pos (if p = 0 then 4 else 5) 0x1B (m.2.2.logFlags + (if b.guarded then 8 else 0))

/-- The league is aborted (R359). A member that was never popped leaves its die's queues and is logged like the others (log 53). -/
def State.abortLeague (s : State) (n : Nat) : State :=
  let l := s.league n
  let st := if l.p = 0 then 4 else 5
  let s := s.send (.abort n)
  let s := (s.lgRunning n).foldl (fun s m => s.abortMember l.p m) s
  let unpopped := l.members.filter (fun m => (s.memberRec m).isSome)
  let s := unpopped.foldl (fun s m =>
    let s := s.modDie (homeDie m.1) fun x => { x with recs := x.recs.filter (fun r => r.pa != m.1) }
    (s.setRecState m.2.2 m.1 st).logNow (homeDie m.1) ⟨m.2.2, m.2.1, st, 0x1B, 0⟩) s
  s.setLeague n { l with
    state := if l.p = 0 then 0 else 3, aborts := min (l.aborts + 1) 255, t := l.t + 1000 * (if l.p = 0 then 0 else l.period),
    gen := 0, sent := false, held := [], heard := [], judged := false, members := if l.p = 0 then [] else l.members }

/-- LEAGUE_START (R357): operands n. At T the members are popped together; later, as soon as they can be, with LATE, DELAY and a START
message; past T + grace the chip aborts instead. -/
def execLeagueStart (s : State) : Host.Outcome State Fault Refusal :=
  let n := s.ev.n
  let l := s.league n
  if l.state ≠ 1 ∨ s.ns < l.t then .next s
  else if l.t + l.graceNs < s.ns then .next (s.abortLeague n)
  else
    match s.popMembers n l.members with
    | none => .next s
    | some s' =>
      let late := decide (l.t ≤ (Config.fabricNs (s.age - 1)).toNat)
      let d := s.ns - l.t
      let s' := s'.setLeague n { l with state := 2, late := l.late || late, delay := if late then min d 0xFFFFFFFF else 0 }
      .next (if late then s'.send (.start n s.ns) else s')

/-! ### Messages (R357-R359) -/

/-- LEAGUE_START_MESSAGE: operands n, id (the chip), aux (the stamp). -/
def execLeagueStartMessage (s : State) : Host.Outcome State Fault Refusal :=
  let n := s.ev.n
  let l := s.league n
  if l.state ≠ 1 ∧ l.state ≠ 2 then .next s
  else if l.t + l.graceNs < s.ev.aux then .next (s.abortLeague n)
  else .next (s.setLeague n { l with heard := (s.ev.id :: l.heard).eraseDups })

/-- LEAGUE_ARRIVE_MESSAGE: operands n, id, aux (the generation); it is held until this chip reaches that generation. -/
def execLeagueArriveMessage (s : State) : Host.Outcome State Fault Refusal :=
  let n := s.ev.n
  let l := s.league n
  if l.state ≠ 1 ∧ l.started = false then .next s
  else
    .next ((s.setLeague n { l with held := (l.held ++ [(s.ev.id, s.ev.aux)]).eraseDups, heard := (s.ev.id :: l.heard).eraseDups }).lgTest n)

/-- LEAGUE_ABORT_MESSAGE: operands n. -/
def execLeagueAbortMessage (s : State) : Host.Outcome State Fault Refusal :=
  let l := s.league s.ev.n
  if l.state = 1 ∨ l.state = 2 then .next (s.abortLeague s.ev.n) else .next s

/-- LEAGUE_GRACE_EXPIRE (R359): operands n. At T + grace + 10 µs the league is aborted if a late chip has sent no START; whether a chip
that nothing has been heard from is late is a free choice (log 5). -/
def execLeagueGraceExpire (s : State) : Host.Outcome State Fault Refusal :=
  let n := s.ev.n
  let l := s.league n
  if l.state ≠ 2 ∨ l.judged = true ∨ s.ns < l.t + l.graceNs + 10000 then .next s
  else
    let late := s.choice && decide (l.heard.length < l.n - 1)
    let s := (s.setLeague n { l with judged := true }).drawn
    .next (if late then s.abortLeague n else s)

/-- LEAGUE_RELAUNCH (R359): operands n. At T′ the members are held waiting again and the league is armed. -/
def execLeagueRelaunch (s : State) : Host.Outcome State Fault Refusal :=
  let n := s.ev.n
  let l := s.league n
  if l.state ≠ 3 ∨ s.ns < l.t then .next s
  else .next (l.members.foldl (fun s m => s.holdMember m) (s.setLeague n { l with state := 1 }))

/-- LGSTAT (R356). -/
def League.stat (l : League) : Word :=
  BitVec.ofNat 64 (l.delay % 2 ^ 32 * 2 ^ 32 + l.aborts % 256 * 256 + l.late.toNat * 16 + l.state % 8)

end Sys2Proof.Machine
end

