-- ==== Sys2Proof/Machine/Digest.lean ====
section
/-!
DEFINITION. SHA3-512, which R2 names and FIPS 202 defines (log 71), and the signatures of Flohild (R2, R325, R334).
-/

namespace Sys2Proof.Machine

/-! ### Keccak-f[1600]: the state is 25 lanes, lane (x, y) at index x + 5·y -/

def lane (a : List Word) (x y : Nat) : Word := a.getD (x % 5 + 5 * (y % 5)) 0

/-- θ: each lane takes the parities of two columns. -/
def theta (a : List Word) : List Word :=
  let c := (List.range 5).map (fun x => (List.range 5).foldl (fun p y => p ^^^ lane a x y) 0)
  (List.range 25).map (fun i => lane a i (i / 5) ^^^ c.getD ((i + 4) % 5) 0 ^^^ (c.getD ((i + 1) % 5) 0).rotateLeft 1)

/-- The rotation of lane (x, y), by index. -/
def rhoOffsets : List Nat :=
  [0, 1, 62, 28, 27, 36, 44, 6, 55, 20, 3, 10, 43, 25, 39, 41, 45, 15, 21, 8, 18, 2, 61, 56, 14]

/-- ρ and π: lane (x, y) takes lane (x + 3y, x), rotated. -/
def rhoPi (a : List Word) : List Word :=
  (List.range 25).map (fun i =>
    let x := i % 5
    let y := i / 5
    let u := (x + 3 * y) % 5
    (lane a u x).rotateLeft (rhoOffsets.getD (u + 5 * x) 0))

/-- χ. -/
def chi (a : List Word) : List Word :=
  (List.range 25).map (fun i => lane a i (i / 5) ^^^ (~~~(lane a (i + 1) (i / 5)) &&& lane a (i + 2) (i / 5)))

/-- The constants of ι. -/
def iotas : List Word :=
  [0x0000000000000001, 0x0000000000008082, 0x800000000000808A, 0x8000000080008000, 0x000000000000808B, 0x0000000080000001,
   0x8000000080008081, 0x8000000000008009, 0x000000000000008A, 0x0000000000000088, 0x0000000080008009, 0x000000008000000A]
  ++ [0x000000008000808B, 0x800000000000008B, 0x8000000000008089, 0x8000000000008003, 0x8000000000008002, 0x8000000000000080,
   0x000000000000800A, 0x800000008000000A, 0x8000000080008081, 0x8000000000008080, 0x0000000080000001, 0x8000000080008008]

def keccakRound (a : List Word) (rc : Word) : List Word :=
  match chi (rhoPi (theta a)) with
  | [] => []
  | l :: ls => (l ^^^ rc) :: ls

def keccak (a : List Word) : List Word := iotas.foldl keccakRound a

/-- The message with its padding 01 10*1, in blocks of 72 bytes. -/
def sha3Blocks (m : List Byte) : List (List Byte) :=
  let pad := 72 - m.length % 72
  let tail : List Byte := if pad = 1 then [0x86] else 0x06 :: (List.replicate (pad - 2) 0 ++ [0x80])
  let bs := m ++ tail
  (List.range (bs.length / 72)).map (fun i => (bs.drop (72 * i)).take 72)

/-- The 64 bytes of the SHA3-512 digest. -/
def sha3 (m : List Byte) : List Byte :=
  let absorb (a : List Word) (b : List Byte) : List Word :=
    keccak (a.mapIdx (fun i l => if i < 9 then l ^^^ BitVec.ofNat 64 (natOfBytes ((b.drop (8 * i)).take 8)) else l))
  (((sha3Blocks m).foldl absorb (List.replicate 25 0)).take 8).flatMap (fun l => bytesOfNat 8 l.toNat)

/-- The ML-DSA-87 signature of a byte string under a key seed: 4,627 bytes whose values are free (R334). -/
def mldsaSign (seed m : List Byte) : List Byte := bytesOfNat 4627 (Config.mldsaSig seed m).toNat

end Sys2Proof.Machine
end

