-- ==== Sys2Proof/Machine/Journal.lean ====
section
/-!
DEFINITION. The journal engine of a slab (R198-R207, R218, R219): attempts, remaps, the commit point, the apply, recovery, and the
journal instructions.
-/

namespace Sys2Proof.Machine

/-! ### Rows, units, attempts (R198, R201) -/

/-- Offset of Quire unit `u` (R198). -/
def quireOff (u : Nat) : Nat := 0x0FC00000 + 64 * u
/-- Physical address of an offset of the slab of cluster `k` (R221). -/
def slabPa (k off : Nat) : Nat := 0x10000000 * k + off
/-- The Quire unit after `u` in the ring, units 2 to 65,535 (R198). -/
def nextUnit (u : Nat) : Nat := if u = 65535 then 2 else u + 1

/-- The row that now holds an offset: its own, or a spare row after a remap (R201). -/
def Slab.rowAt (x : Slab) (off : Nat) : Nat :=
  match mapGet (fun _ => 0) x.remap (off / 256) with
  | 0 => off / 256
  | n + 1 => 2 ^ 20 + n
/-- The wear counter of the row that holds an offset (R204). -/
def Slab.wearAt (x : Slab) (off : Nat) : Nat := mapGet (fun _ => 0) x.wear (x.rowAt off)
def Slab.wearRow (x : Slab) (row : Nat) : Slab :=
  { x with wear := mapSet (fun _ => 0) x.wear row (min (mapGet (fun _ => 0) x.wear row + 1) 0xFFFFFFFF) }

/-- Clk of an attempt at pulse level `l`: program and check (R201). -/
def attemptClk (l : Nat) : Nat := 108 * (l + 1) + 4
/-- An attempt on `row` that starts in clk `now`. Its wear counts even if power cuts it off (R219). -/
def Slab.attempt (x : Slab) (row level copies : Nat) (spare : Option Nat) (now : Nat) : Slab :=
  { x.wearRow row with att := some ⟨level, copies, spare, now + attemptClk level - 1⟩ }

/-- The first record that the apply has not written. -/
def Txn.toApply (t : Txn) : Option (Nat × JRec) :=
  ((List.range t.recs.length).zip t.recs).find? (fun e => !e.2.applied)

/-- What a piece of work writes: the offset, and the home offset of a record's own unit, for JFI (R206). -/
def Slab.target (x : Slab) (w : JWork) : Option (Nat × Option Nat) :=
  match w, x.txn with
  | .record n, some t => t.recs[n]?.map (fun r => (quireOff r.unit, some r.home))
  | .commit, some t => t.commitUnit.map (fun u => (quireOff u, none))
  | .apply, some t => t.toApply.map (fun e => (e.2.home, some e.2.home))
  | .rewrite off _, _ => some (off, none)
  | _, _ => none

/-- The Quire unit at an offset of the slab (R198). -/
def quireUnit (off : Nat) : Option Nat := if 0x0FC00080 ≤ off ∧ off < 0x10000000 then some ((off - 0x0FC00000) / 64) else none

/-- A Quire unit that is being written has no tag that passes its check: a record's, a commit unit, one that is rewritten or scrubbed, whose
tag is kept meanwhile (R201, R219). -/
def Slab.untag (x : Slab) (w : JWork) : Slab :=
  match w, x.txn with
  | .record n, some t => match t.recs[n]? with | some r => { x with tags := mapSet (fun _ => (0, 0, 0)) x.tags r.unit (0, 0, 0) } | none => x
  | .commit, some t => match t.commitUnit with | some u => { x with tags := mapSet (fun _ => (0, 0, 0)) x.tags u (0, 0, 0) } | none => x
  | .rewrite off _, _ => match quireUnit off with
    | some u => { x with keepTag := mapGet (fun _ => (0, 0, 0)) x.tags u, tags := mapSet (fun _ => (0, 0, 0)) x.tags u (0, 0, 0) }
    | none => x
  | _, _ => x

/-- A Quire unit that has been rewritten with its own value has its tag again. -/
def Slab.retag (x : Slab) (off : Nat) : Slab :=
  match quireUnit off with
  | some u => { x with tags := mapSet (fun _ => (0, 0, 0)) x.tags u x.keepTag }
  | none => x

/-- The engine takes its next piece in clk `now` (R203, R218). A write of a read-only slab fails without an attempt (R201). -/
def Slab.kick (x : Slab) (now : Nat) : Slab :=
  if x.att.isSome then x
  else match x.work with
    | [] => x
    | .verify _ _ _ fn _ len :: _ => { x with att := some ⟨0, 0, none, now + 3 + (if fn = 0 then (len + 255) / 256 else 0)⟩ }
    | w :: _ =>
      if w.ofTxn && x.txn.any (·.aborting) then x
      else if x.ro then { x with att := some ⟨0, 0, none, now⟩ }
      else match x.target w with
        | some (off, _) => (x.untag w).attempt (x.rowAt off) 0 0 none now
        | none => { x with work := x.work.drop 1 }

/-- A piece placed by an instruction starts in the same clk if the engine is idle (R203, R218). -/
def Slab.place (x : Slab) (w : JWork) (now : Nat) : Slab :=
  let y := { x with work := x.work ++ [w] }
  if x.work.isEmpty && x.att.isNone then y.kick now else y

/-! ### The end of a wake (R207, R208, R211) -/

/-- What a bank holds after power was lost: the task, the copy of the last quiet boundary, its registers of groups (R211). -/
def Bank.lostPower (b : Bank) : Bank :=
  { b with shadow := none, k := [], cd := [], q := [], qSeen := none, pend := [], flight := [], owed := none, go := none, spec := none,
           accs := [], staged := [], deferred := [], copies := [], heldFlags := 0, heldMx := [], old := [], fenced := [], far := [], uiq := [], uiReady := true,
           mrep := none, async := [], entry := none, wait := none, walkErr := none, win := none, winKept := [], dict := [], dictDue := true,
           dictErr := none, idle := none, resend := [], badS := [],
           task := b.task.map fun t => { t with ending := none } }

/-- The state of a quiet boundary comes back (R211). -/
def Bank.restore (b : Bank) (v : Snapshot) : Bank :=
  { b.lostPower with s := v.s, wbase := v.wbase, a := v.a, p := v.p, pc := v.pc, csr := v.csr, owed := v.owed, spec := v.spec,
                     shadow := v.shadow, gmem := v.gmem, winKept := v.winKept,
                     run := v.pc, nv := some v }

/-- How a task whose cluster lost power goes on (R211, R300): a task that holds its guard is rolled back, an IDEMPOTENT one resumes
with its windows granted afresh, any other is queued again and logged REQUEUED. A shadow bank and a task without a copy are treated
alike (log 30). -/
def State.resume (s : State) (c p : Nat) : State :=
  let b := s.bank c p
  match b.task with
  | none => s
  | some t =>
    if b.guarded then s.rollback c p
    else match b.nv with
      | some v =>
        if bitOf t.flags 2 then
          (s.grantGroups c t.uid t.ctx t.vbase t.vregs).modBank c p fun b => b.restore v
        else ((s.finish c p 5 0 t.logFlags).insertRec t.va t.pa t.ctx).1
      | none => ((s.finish c p 5 0 t.logFlags).insertRec t.va t.pa t.ctx).1

/-- The end of the wake of a cluster: its tasks resume, and its strands may issue. -/
def State.clusterOn (s : State) (k : Nat) : State :=
  let s := [0, 1, 2, 3].foldl (fun s i => [0, 1, 2, 3, 4].foldl (fun s p => s.resume (4 * k + i) p) s) s
  s.modCluster k fun c => { c with power := .on }

/-! ### JOURNAL_ATTEMPT (R201, R206, R218) -/

/-- JFI: whether it makes the check of a record's unit fail, and its word after that (R206). -/
def jfiHits (jfi : Word) (home : Option Nat) : Bool :=
  match home with
  | some h => fieldOf jfi 40 5 != 0 && fieldOf jfi 6 22 == bitsOf h 6 22
  | none => false
def jfiSpent (jfi : Word) : Word := putField jfi 40 5 (fieldOf jfi 40 5 - 1)

/-- The 64 bytes that a piece of work programs; a rewrite keeps at its first attempt what the unit holds. The contents of a commit unit are
not stated (log 5). -/
def State.pieceBytes (s : State) (k : Nat) (w : JWork) (first : Bool) : List Byte :=
  let x := (s.cluster k).slab
  match w, x.txn with
  | .record n, some t => (t.recs[n]?.map (·.data)).getD []
  | .apply, some t => (t.toApply.map (·.2.data)).getD []
  | .rewrite _ true, _ => List.replicate 64 0
  | .rewrite off false, _ => if first then s.memBytes (slabPa k off) 64 else x.keep
  | _, _ => (List.range 8).flatMap (fun i => bytesOfNat 8 (Config.freeWord (s.fresh + 1 + i)).toNat)

/-- What 64 bytes hold after an attempt whose read-back differs: free values (log 5). -/
def State.strayBytes (s : State) : List Byte :=
  (List.range 8).flatMap (fun i => bytesOfNat 8 (Config.freeWord (s.fresh + 1 + i)).toNat)

/-- Program a unit of the slab: fresh ECC, no error left. -/
def State.program (s : State) (k off : Nat) (v : List Byte) : State :=
  let pa := slabPa k off
  { s.putMem pa v with ueMem := s.ueMem.filter (fun w => !(decide (pa ≤ 8 * w) && decide (8 * w + 8 ≤ pa + v.length))) }

def State.modSlab (s : State) (k : Nat) (f : Slab → Slab) : State := s.modCluster k fun c => { c with slab := f c.slab }

/-- The CRC-32C of a unit and its tag (R198): the 64 bytes, then number and home offset, 4 bytes each (log 34). -/
def tagCrc (unit : List Byte) (num home : Nat) : Nat := (crc32c (unit ++ bytesOfNat 4 num ++ bytesOfNat 4 home)).toNat
/-- A Quire unit that has been written gets its tag. -/
def State.tagUnit (s : State) (k u num home : Nat) : State :=
  let crc := tagCrc (s.memBytes (slabPa k (quireOff u)) 64) num home
  s.modSlab k fun x => { x with tags := mapSet (fun _ => (0, 0, 0)) x.tags u (num + 1, home, crc) }
/-- Whether a unit carries the tag of a transaction's commit unit and passes its check (R207, R219). -/
def State.tagSound (s : State) (k u num : Nat) : Bool :=
  mapGet (fun _ => (0, 0, 0)) (s.cluster k).slab.tags u == (num + 1, 2 ^ 28, tagCrc (s.memBytes (slabPa k (quireOff u)) 64) num (2 ^ 28))

/-- Record `n` of the open transaction. -/
def Slab.modRec (x : Slab) (n : Nat) (f : JRec → JRec) : Slab :=
  { x with txn := x.txn.map fun t => { t with recs := t.recs.mapIdx (fun i r => if i = n then f r else r) } }

/-- The head piece has been written: records and commit units get their tag, a commit unit brings the commit point, an apply its
unit. -/
def State.pieceOk (s : State) (k : Nat) (w : JWork) : State :=
  let done (s : State) : State := s.modSlab k fun x => { x with att := none, work := x.work.drop 1 }
  match w, (s.cluster k).slab.txn with
  | .record n, some t => match t.recs[n]? with
    | some r => ((done s).modSlab k fun x => x.modRec n (fun r => { r with written := true })).tagUnit k r.unit t.num r.home
    | none => done s
  | .commit, some t => match t.commitUnit with
    | some u => ((done s).tagUnit k u t.num (2 ^ 28)).pushFront .commitPoint { cl := k }
    | none => done s
  | .apply, _ => (s.modSlab k fun x => { x with att := none }).pushFront .journalApply { cl := k }
  | .rewrite off false, _ => (done s).modSlab k fun x => x.retag off
  | _, _ => done s

/-- The head piece has failed on every spare row, or the slab is read-only already (R201, R202): a zero that a sweep asked for is an
exception of its receipt (R308). -/
def State.pieceFailed (s : State) (k : Nat) (w : JWork) : State :=
  let s := s.modSlab k fun x => { x with ro := true, att := none, work := x.work.drop 1 }
  match w with
  | .record n => s.modSlab k fun x => x.modRec n fun r => { r with failed := true }
  | .rewrite off true =>
    let pa := slabPa k off
    s.modDie (k / 16) fun d => { d with sweeps := d.sweeps.map (fun w =>
      if w.base ≤ pa ∧ pa < w.base + w.len then { w with exc := w.exc ++ [(pa, 3)] } else w) }
  | _ => s

/-- The check of an attempt fails: the next level, then the next spare row with the copies of the row's other units, then the slab
becomes read-only (R201). -/
def State.checkFailed (s : State) (k off : Nat) (w : JWork) (a : Attempt) : State :=
  let x := (s.cluster k).slab
  let now := s.clk + 1
  let row := match a.spare with | some sp => 2 ^ 20 + sp | none => x.rowAt off
  if w.ofTxn && x.txn.any (·.aborting) then s.modSlab k fun x => { x with att := none }
  else if a.level < 3 then s.modSlab k fun x => x.attempt row (a.level + 1) a.copies a.spare now
  else if x.spUsed < 64 then
    s.modSlab k fun x => { x with spUsed := x.spUsed + 1 }.attempt (2 ^ 20 + x.spUsed) 0 3 (some x.spUsed) now
  else s.pieceFailed k w

/-- The check of an attempt passes: the next copy, the unit itself once the row is remapped, or the piece is written. -/
def State.checkPassed (s : State) (k off : Nat) (w : JWork) (a : Attempt) : State :=
  let now := s.clk + 1
  match a.copies, a.spare with
  | c + 1, some sp =>
    s.modSlab k fun x =>
      let x := if c = 0 then { x with remap := mapSet (fun _ => 0) x.remap (off / 256) (sp + 1) } else x
      x.attempt (2 ^ 20 + sp) 0 c a.spare now
  | _, _ => s.pieceOk k w

/-- The status word (R204). -/
def Slab.status (x : Slab) : Word :=
  BitVec.ofNat 64 (x.qnext * 2 ^ 48 + x.lastwake * 2 ^ 42 + (x.txn.any (fun t => !t.committed)).toNat * 2 ^ 41 + x.ro.toNat * 2 ^ 40
    + x.spUsed * 2 ^ 32 + x.gen.toNat)

/-- The result of a JVERIFY (R204). -/
def State.verified (s : State) (k fn off len : Nat) : Word :=
  let x := (s.cluster k).slab
  match fn with
  | 0 => x.gen ++ crc32c (s.seenBytes (slabPa k off) len)
  | 1 => BitVec.ofNat 64 (x.wearAt off)
  | _ => x.status

/-- An open transaction whose context has ended is dropped once no attempt of it is in progress (R200). -/
def State.dropOrphan (s : State) (k : Nat) : State :=
  s.modSlab k fun x => match x.txn with
    | some t => if t.aborting && (s.ctx t.owner).dead && !x.busyWithTxn then x.dropTxn t else x
    | none => x

/-- JOURNAL_ATTEMPT: operands cl. The engine's piece, or its attempt, ends in its last clk. -/
def execJournalAttempt (s : State) : Host.Outcome State Fault Refusal :=
  let k := s.ev.cl
  let c := s.cluster k
  match c.slab.att, c.slab.work with
  | some a, w :: _ =>
    if s.clk < a.due then .next s
    else match w with
      | .verify core uid ask fn off len =>
        let v := s.verified k fn off len
        .next (s.modSlab k fun x =>
          let rs := if x.asked.contains (core, uid, ask) then x.results ++ [(core, uid, v)] else x.results
          { x with att := none, work := x.work.drop 1, results := rs, asked := x.asked.filter (fun e => e != (core, uid, ask)) })
      | _ =>
        if c.slab.ro then
          let s := (s.pieceFailed k w).dropOrphan k
          .next (if w = .apply ∧ c.power = .recover then s.clusterOn k else s)
        else match c.slab.target w with
          | none => .next (s.modSlab k fun x => { x with att := none, work := x.work.drop 1 })
          | some (off, home) =>
            let hit := a.copies = 0 ∧ jfiHits c.jfi home = true
            let bad := Config.writeFails s.fresh
            let good := s.pieceBytes k w (decide (a.level = 0) && a.spare.isNone)
            let v := if bad then s.strayBytes else good
            let s : State := match w with | .rewrite _ false => s.modSlab k fun x => { x with keep := good } | _ => s
            let s : State := if hit then s.modCluster k fun c => { c with jfi := jfiSpent c.jfi } else s
            let s : State := if a.copies = 0 then { s.program k off v with fresh := s.fresh + 9 } else s.drawn
            let s : State := (if hit ∨ bad = true then s.checkFailed k off w a else s.checkPassed k off w a).dropOrphan k
            .next (if w = .apply ∧ c.power = .recover ∧ (s.cluster k).slab.ro = true then s.clusterOn k else s)
  | _, _ => .next s

/-! ### The commit point and the apply (R202, R203, R223) -/

/-- COMMIT_POINT: operands cl. GEN advances, every later beat sees the records, the home die drops its lines of those units, and the
apply is placed. -/
def execCommitPoint (s : State) : Host.Outcome State Fault Refusal :=
  let k := s.ev.cl
  let x := (s.cluster k).slab
  match x.txn with
  | none => .next s
  | some t =>
    match t.commitUnit with
    | none => .next s
    | some u =>
      if t.committed ∨ s.tagSound k u t.num = false then .next s
      else
        let lines := t.recs.map (fun r => slabPa k r.home / 128)
        let s := s.modDie (k / 16) fun d => d.dropLines (fun n _ => lines.contains n)
        .next (s.modSlab k fun x =>
          let x := { x with gen := BitVec.ofNat 32 t.num, commits := x.commits ++ [t.who] }
          if t.recs = [] then { x with txn := none }
          else { x with txn := some { t with committed := true }, work := x.work ++ [.apply] })

/-- JOURNAL_APPLY: operands cl. The unit that the engine has written is served from its home; the transaction ends with its last
record, and with it the wake that rolled it forward (R203, R207). -/
def execJournalApply (s : State) : Host.Outcome State Fault Refusal :=
  let k := s.ev.cl
  let c := s.cluster k
  match c.slab.txn, c.slab.work, c.slab.att with
  | some t, .apply :: _, none =>
    match t.toApply with
    | none => .next s
    | some (n, _) =>
      let s := s.modSlab k fun x => x.modRec n fun r => { r with applied := true }
      if ((s.cluster k).slab.txn.bind (·.toApply)).isSome then .next s
      else
        let s := s.modSlab k fun x => { x with txn := none, work := x.work.drop 1 }
        .next (if c.power = .recover then s.clusterOn k else s)
  | _, _, _ => .next s

/-! ### Recovery (R207, R219) -/

/-- JOURNAL_RECOVERY: operands cl. A transaction whose commit unit passes its tag check is applied again from its first record; any
other is discarded. JFI is 0. -/
def execJournalRecovery (s : State) : Host.Outcome State Fault Refusal :=
  let k := s.ev.cl
  let c := s.cluster k
  if c.power ≠ .recover ∨ c.slab.work.contains .apply then .next s
  else
    let s := s.modCluster k fun c => { c with jfi := 0 }
    match c.slab.txn with
    | none => .next ((s.modSlab k fun x => { x with lastwake := 0 }).clusterOn k)
    | some t =>
      let sound := t.commitUnit.any (fun u => s.tagSound k u t.num)
      if sound then
        let t : Txn := { t with committed := true, recs := t.recs.map (fun r => { r with applied := false }) }
        let x := { c.slab with lastwake := 2, gen := BitVec.ofNat 32 t.num, txn := some t, work := c.slab.work ++ [.apply] }
        if t.recs = [] then .next ((s.modSlab k fun _ => { x with txn := none, work := c.slab.work }).clusterOn k)
        else .next (s.modSlab k fun _ => x)
      else .next ((s.modSlab k fun x => { x.dropTxn t with lastwake := 1 }).clusterOn k)

/-! ### The journal instructions (R203-R205) -/

/-- A JOURNAL trap: the status code, and the unit concerned or the slab base (R205). -/
def State.journalTrap (s : State) (code : Nat) (unit : Option Nat) : Trap :=
  { code := 0x20, info := BitVec.ofNat 64 code, addr := BitVec.ofNat 80 (slabPa (clusterOf s.cur.core) (64 * (unit.getD 0 / 64))) }
/-- The unit that an offset names, if the slab has it. -/
def unitNamed (off : Nat) : Option Nat := if off < 0x10000000 then some off else none

/-- The slab of the acting core's cluster (R200). -/
def State.slab (s : State) : Slab := (s.cluster (clusterOf s.cur.core)).slab
def State.mySlab (s : State) (f : Slab → Slab) : State := s.modSlab (clusterOf s.cur.core) f

/-- The checks that every journal instruction has: mode, place (R51, R73, R86). -/
def State.journalOp (s : State) (op : Nat) (r : Try) : Try := s.needPriv op (s.forbid op true true false r)

/-- NO_TXN, NOT_OWNER (R203). -/
def State.withTxn (s : State) (f : Txn → Try) : Try :=
  match s.slab.txn with
  | some t => if t.committed then .trap (s.journalTrap 2 none) else if t.owner ≠ s.bk.ctx then .trap (s.journalTrap 6 none) else f t
  | none => .trap (s.journalTrap 2 none)

/-- JBEGIN (R203) -/
def execJbegin (g : Guard) (d : BitVec 6) (s : State) : Host.Outcome State Fault Refusal :=
  s.guarded g (s.journalOp 0xA5 (s.noGuard 0xA5
    (let x := s.slab
     if x.work.contains .apply then .block (.journal 0xA5) s
     else if x.ro then .trap (s.journalTrap 4 none)
     else if x.txn.isSome then .trap (s.journalTrap 1 none)
     else
       let n := x.gen + 1
       .ok ((s.mySlab fun x => { x with txn := some { owner := s.bk.ctx, num := n.toNat, first := x.qnext } }).landS d (n.setWidth 64) 1))))

/-- JWRITE (R203) -/
def execJwrite (g : Guard) (a b : BitVec 6) (s : State) : Host.Outcome State Fault Refusal :=
  s.guarded g (s.journalOp 0xA6 (s.noGuard 0xA6
    (let h := (s.sr a).toNat
     let x := (s.sr b).toInt
     if h % 64 ≠ 0 then .trap (alignTrap 64 ((s.sr a).setWidth 80))
     else if x % 16 ≠ 0 ∨ x < 0 ∨ 786432 < x + 64 then .trap (causeTrap 0x09 (s.sr b))
     else if 0x0FBFFFC0 < h then .trap (s.journalTrap 5 (unitNamed h))
     else s.withTxn fun t =>
       if 32768 ≤ t.recs.length then .trap (s.journalTrap 3 none)
       else if 64 ≤ s.slab.queued then .block (.journal 0xA6) s
       else match s.cr.scratchBad x.toNat 64 with
         | some o => .trap (ueTrap 2 o)
         | none =>
           .ok (s.mySlab fun y => { y with
             txn := some { t with recs := t.recs ++ [{ home := h, data := s.cr.scratchBytes x.toNat 64, unit := y.qnext }] },
             qnext := nextUnit y.qnext, work := y.work ++ [.record t.recs.length] }))))

/-- The transaction is discarded (R200, R203). -/
def State.discardTxn (s : State) (t : Txn) : State := s.mySlab fun x => x.dropTxn t

/-- What a JCOMMIT does next, and the state it does it in: a failed record or commit unit has discarded the transaction. -/
def State.commitStep (s : State) : State × Try :=
  let x := s.slab
  let me := (s.cur.core, s.bk.uid)
  if x.commits.contains me then (s, .ok (s.mySlab fun x => { x with commits := x.commits.filter (fun e => e != me) }))
  else match x.txn with
    | none => (s, .trap (s.journalTrap 2 none))
    | some t =>
      if t.committed then (s, .trap (s.journalTrap 2 none))
      else if t.owner ≠ s.bk.ctx then (s, .trap (s.journalTrap 6 none))
      else match t.commitUnit with
        | some u =>
          if x.work.contains .commit then (s, .block (.journal 0xA7) s)
          else (s.discardTxn t, .trap (s.journalTrap 7 (some (quireOff u))))
        | none =>
          if t.recs.any (fun r => !r.written && !r.failed) then (s, .block (.journal 0xA7) s)
          else match t.recs.find? (·.failed) with
            | some r => (s.discardTxn t, .trap (s.journalTrap 7 (some r.home)))
            | none =>
              let placed := s.mySlab fun y =>
                { y with txn := some { t with commitUnit := some y.qnext, who := me }, qnext := nextUnit y.qnext }.place .commit s.clk
              (s, .block (.journal 0xA7) placed)

/-- JCOMMIT (R203) -/
def execJcommit (g : Guard) (s : State) : Host.Outcome State Fault Refusal :=
  match s.journalOp 0xA7 (s.noGuard 0xA7 (.ok s)) with
  | .ok _ => if s.guard g then s.commitStep.1.settle s.commitStep.2 else .next s
  | r => s.guarded g r

/-- JABORT (R203): it blocks until the attempt of its transaction in progress ends, and no further one begins. -/
def execJabort (g : Guard) (s : State) : Host.Outcome State Fault Refusal :=
  s.guarded g (s.journalOp 0xA8 (s.noGuard 0xA8
    (s.withTxn fun t =>
      if s.slab.busyWithTxn then .block (.journal 0xA8) (s.mySlab fun x => { x with txn := some { t with aborting := true } })
      else .ok (s.discardTxn t))))

/-- JVERIFY (R204, R218): the piece is placed, the bundle blocks, and the result lands when the engine has it. -/
def State.jverify (s : State) (d : BitVec 6) (fn off len : Nat) : Try :=
  let x := s.slab
  let me := (s.cur.core, s.bk.uid)
  match x.results.find? (fun e => e.1 == me.1 && e.2.1 == me.2) with
  | some (_, _, v) =>
    let pa := slabPa (clusterOf s.cur.core) off
    match (if fn = 0 then (s.badSpans pa len).head? else none) with
    | some w => .trap (ueTrap 6 w.1)
    | none =>
      .ok ((s.mySlab fun x => { x with results := x.results.filter (fun e => !(e.1 == me.1 && e.2.1 == me.2)) }).landS d v 1)
  | none =>
    if x.asksFor me then .block (.journal 0xA9) s
    else .block (.journal 0xA9) (s.mySlab fun x =>
      { x with asked := x.asked ++ [(me.1, me.2, x.asks)], asks := x.asks + 1 }.place (.verify me.1 me.2 x.asks fn off len) s.clk)

/-- JVERIFY fn 0: the CRC of a range (R204). -/
def execJverifyCrc (g : Guard) (d a b : BitVec 6) (s : State) : Host.Outcome State Fault Refusal :=
  s.guarded g (s.journalOp 0xA9
    (let off := (s.sr a).toNat
     let len := (s.sr b).toNat
     if 0x10000000 ≤ off ∨ len = 0 ∨ 0x10000000 < len ∨ 0x10000000 < off + len then .trap (s.journalTrap 5 (unitNamed off))
     else s.jverify d 0 off len))

/-- JVERIFY fn 1: a wear counter (R204). -/
def execJverifyWear (g : Guard) (d a : BitVec 6) (s : State) : Host.Outcome State Fault Refusal :=
  s.guarded g (s.journalOp 0xA9
    (let off := (s.sr a).toNat
     if 0x10000000 ≤ off then .trap (s.journalTrap 5 none) else s.jverify d 1 off 0))

/-- JVERIFY fn 2: the status word (R204). -/
def execJverifyStatus (g : Guard) (d : BitVec 6) (s : State) : Host.Outcome State Fault Refusal :=
  s.guarded g (s.journalOp 0xA9 (s.jverify d 2 0 0))

end Sys2Proof.Machine
end

