-- ==== Sys2Proof/Machine/Power.lean ====
section
/-!
DEFINITION. Power and heat: clusters that go off and wake (R208-R211), refresh and sensors (R212, R213), the frequency (R214-R216,
R343), caps and floors (R341, R342), the energy counter (R344).
-/

namespace Sys2Proof.Machine

/-! ### Off and on (R208-R211) -/

/-- What a core holds once it has had no power: its SRAMs are zero, semaphores 0, queues empty, frames without OWNER (R208); the claims of
the scheduler stay. -/
def Core.lostPower (x : Core) : Core :=
  { claims := x.claims, lastCtx := x.lastCtx, dected := x.dected, nextId := x.nextId,
    banks := (x.banks.filter (fun e => decide (e.1 < 8))).map (fun e => (e.1, e.2.lostPower)) }

/-- What a cluster keeps without power: its slab, but for the piece of work under way, and the other non-volatile parts (R208, R219). -/
def Cluster.lostPower (k : Cluster) : Cluster :=
  let pieces := k.slab.work.filter (fun w => match w with | .rewrite _ _ => true | _ => false)
  { k with slots := [], lease := {}, bad := [], power := .off, wakeWaits := false,
           slab := { k.slab with work := pieces, att := none, results := [], asked := [], commits := [] } }

/-- A cluster loses its power: what its strands have waiting at controllers is withdrawn, walks go, SRAM contents are lost. -/
def State.loseCluster (s : State) (k : Nat) : State :=
  let cs := [0, 1, 2, 3].map (fun i => 4 * k + i)
  let s := cs.foldl (fun s c => [0, 1, 2, 3, 4].foldl (fun s p =>
    if (s.bank c p).task.isSome then s.withdrawStrand (s.bank c p).ctx c p false else s) s) s
  let s := cs.foldl (fun s c => s.modCore c Core.lostPower) s
  let s := s.modDie (k / 16) fun d =>
    { d with walks := (d.walks.map (fun w => { w with waits := w.waits.filter (fun a => !cs.contains a.core) })).filter (fun w => !w.waits.isEmpty) }
  s.modCluster k Cluster.lostPower

/-- Whether a cluster whose rest request is set goes Off (R209). -/
def State.mayRest (s : State) (k : Nat) : Bool :=
  let c := s.cluster k
  let cores := [0, 1, 2, 3].map (fun i => s.core (4 * k + i))
  c.rest && c.power == .on
    && cores.all (fun x => x.tasks.isEmpty && x.mq.isEmpty && x.mrun.isEmpty && x.banks.all (fun e => e.2.copies.isEmpty && e.2.deferred.isEmpty && e.2.accs.isEmpty))
    && c.slab.att.isNone && c.slab.work.isEmpty && !(c.slab.txn.any (fun t => !t.committed))
    && (s.die (k / 16)).recs.all (fun r => !(r.ready && bitOf r.cmask (k % 16)))

/-- CLUSTER_OFF (R209, R216): operands cl. -/
def execClusterOff (s : State) : Host.Outcome State Fault Refusal :=
  if s.mayRest s.ev.cl then .next ((s.traceEntry s.ev.cl 6).loseCluster s.ev.cl) else .next s

/-- CLUSTER_WAKE (R208): operands cl. -/
def execClusterWake (s : State) : Host.Outcome State Fault Refusal := .next (s.wakeCluster s.ev.cl)

/-- WAKE (R210) -/
def execWake (g : Guard) (a : BitVec 6) (s : State) : Host.Outcome State Fault Refusal :=
  s.guarded g (s.needPriv 0xAA (s.forbid 0xAA false true false (s.noGuard 0xAA
    (.ok (((List.range 64).filter (fun k => (s.sr a).getLsbD k)).foldl (fun s k => s.wakeCluster k) s)))))

/-- RAMP_ALLOWANCE_REACHED (R343): operands cl. A wake that was delayed begins. -/
def execRampAllowanceReached (s : State) : Host.Outcome State Fault Refusal :=
  if (s.cluster s.ev.cl).wakeWaits then .next (s.wakeCluster s.ev.cl) else .next s

/-- SUPPLY_RAMP_DONE (R208): operands cl. -/
def execSupplyRampDone (s : State) : Host.Outcome State Fault Refusal :=
  match (s.cluster s.ev.cl).power with
  | .ramp due => if s.clk < due then .next s
    else .next (s.modCluster s.ev.cl fun c => { c with power := .clear (s.clk + s.usClk 1) })
  | _ => .next s

/-- SRAM_CLEAR_DONE (R208, R213): operands cl. A sample is taken before any strand issues; its reading is free. -/
def execSramClearDone (s : State) : Host.Outcome State Fault Refusal :=
  let k := s.ev.cl
  match (s.cluster k).power with
  | .clear due => if s.clk < due then .next s
    else .next ((s.modCluster k fun c => { c with power := .recover }).pushFront .dramSensorSample
      { cl := k, dram := Config.dramHeat k s.age, logic := Config.logicHeat k s.age })
  | _ => .next s

/-- POWER_LOSS (R211, R219): power fails in every cluster that has any. Memory, the dies and Flohild keep what they hold; a power cycle
of the package is this event and then PACKAGE_RESET (log 31). -/
def execPowerLoss (s : State) : Host.Outcome State Fault Refusal :=
  .next (((s.clusters.map (·.1)).filter (fun k => decide ((s.cluster k).power ≠ .off))).foldl (fun s k => s.loseCluster k) s)

/-! ### Refresh and heat (R212-R214) -/

/-- The refresh interval of a cluster's region in clk (R212). -/
def State.refreshClk (s : State) (k : Nat) : Nat := if (s.cluster k).hot then s.usClk 195 / 100 else s.usClk 39 / 10

/-- BANK_REFRESH_START (R212): operands cl. The next of the 16 banks is blocked for 180 ns, and the one after it starts an interval/16 later;
`refAt` counts in sixteenths of a clk. -/
def execBankRefreshStart (s : State) : Host.Outcome State Fault Refusal :=
  let k := s.ev.cl
  .next (s.modCluster k fun c =>
    if 16 * s.clk < c.refAt then c
    else { c with refresh := mapSet (fun _ => 0) c.refresh c.refBank (s.clk + s.usClk 180 / 1000), refBank := (c.refBank + 1) % 16,
                  refAt := max c.refAt (16 * s.clk - 15) + s.refreshClk k })

/-- BANK_REFRESH_END (R212): operands cl, n. -/
def execBankRefreshEnd (s : State) : Host.Outcome State Fault Refusal :=
  if s.clk < mapGet (fun _ => 0) (s.cluster s.ev.cl).refresh s.ev.n then .next s
  else .next (s.modCluster s.ev.cl fun c => { c with refresh := mapSet (fun _ => 0) c.refresh s.ev.n 0 })

/-- A signed 16-bit value with its sign copied to bit 63 (R213). -/
def allowWord (x : Int) : Word := (BitVec.ofInt 16 x).signExtend 64

/-- A sample: 85.0 and 105.0 degrees less the readings, in 1/16 degree (R213); at or above 85.0 the refresh interval is halved (R212). -/
def Cluster.sample (c : Cluster) (dram logic : Int) : Cluster :=
  { c with tallow := allowWord (1360 - dram), tallowl := allowWord (1680 - logic), hot := decide (1360 ≤ dram) }

/-- DRAM_SENSOR_SAMPLE (R212, R213): operands cl, dram, logic. -/
def execDramSensorSample (s : State) : Host.Outcome State Fault Refusal :=
  .next (s.modCluster s.ev.cl fun c => c.sample s.ev.dram s.ev.logic)

/-! ### The frequency (R214-R216, R343) -/

/-- The frequency in force is the lowest of the three settings; clusters that have power log a change (R215, R216, R343). -/
def State.setFrequency (s : State) (cause : Nat) : State :=
  let f := min (min s.pkg.thermal s.pkg.cap) s.pkg.hostFreq
  if f = s.pkg.freq then s
  else
    let s := { s with pkg := { s.pkg with freq := f } }
    ((s.clusters.map (·.1)).filter (fun k => decide ((s.cluster k).power ≠ .off))).foldl (fun s k => s.traceEntry k cause) s

/-- THERMAL_STEP (R214): one step down from the frequency in force, or one step up again. -/
def execThermalStep (s : State) : Host.Outcome State Fault Refusal :=
  let hot := s.clusters.any (fun e => e.2.tallowl.msb)
  .next ({ s with pkg := { s.pkg with thermal := if hot then s.pkg.freq - 1 else min 32 (s.pkg.thermal + 1) } }.setFrequency 3)

/-- The issue clk of the last 1 ms: of world `w`'s tasks, and of all tasks (R343). -/
def Cluster.issueOf (k : Cluster) (w : Nat) : Nat := (k.issueClk.map (fun m => mapGet (fun _ => 0) m w)).sum
def Cluster.issueAll (k : Cluster) : Nat := (k.issueClk.flatMap (fun m => m.map (·.2))).sum

/-- The power attributed to world `w` (R343): of each cluster's power the part that the issue clk of the world's tasks are of all issue clk
of the cluster, rounded down (log 33). -/
def State.attributed (s : State) (share : List (Nat × Nat)) (w : Nat) : Nat :=
  (share.map (fun e => e.2 * (s.cluster e.1).issueOf w / (s.cluster e.1).issueAll)).sum

/-- The worlds whose attributed power exceeds their effective floor (R343). -/
def State.overFloor (s : State) (share : List (Nat × Nat)) : List Nat :=
  (List.range 256).filter (fun w => decide ((s.world w).efloor < s.attributed share w))

/-- A new period of 10 µs: the issue clk of the last 100 are kept (R343). -/
def State.nextPeriod (s : State) : State :=
  { s with clusters := s.clusters.map (fun k => (k.1, { k.2 with issueClk := ([] :: k.2.issueClk).take 100 })) }

/-- POWER_MANAGER_PERIOD (R343): operands n (the average power, in 1/8 W), share (the power of each cluster). The first answer to power above ECAP is to stop pops;
when every world over its floor is stopped already, the frequency is lowered. The host's request takes effect first. Pops resume when the
power is no longer above ECAP (log 33). -/
def execPowerManagerPeriod (s : State) : Host.Outcome State Fault Refusal :=
  let power := s.ev.n
  let s := { s with pkg := { s.pkg with hostFreq := s.pkg.freqReq } }.setFrequency 1
  let k := s.pkg
  let past := s.overFloor s.ev.share
  let k := if k.ecap < power then
      if past.all (fun w => k.stopped.contains w) then { k with cap := k.cap - 1 }
      else { k with stopped := (k.stopped ++ past).eraseDups }
    else
      let k := { k with stopped := [] }
      if 100 * power ≤ 95 * k.ecap then { k with cap := min 32 (k.cap + 1) } else k
  .next ({ s with pkg := k }.setFrequency 2).nextPeriod

/-- FREQREQ_WRITE (R341, R343): operands v. It takes effect at the next period. -/
def execFreqreqWrite (s : State) : Host.Outcome State Fault Refusal :=
  s.fromHost (.next { s with pkg := { s.pkg with freqReq := min (fieldOf s.ev.v 0 6) 32 } })

/-! ### Caps and floors (R341, R342) -/

/-- The effective values of R342. -/
def State.recap (s : State) : State :=
  let k := s.pkg
  let ecap := max k.pcap Config.idleFloor
  let room := ecap - Config.idleFloor
  let sum := (s.worlds.map (fun e => e.2.floor)).sum
  let s := { s with pkg := { k with ecap := ecap, belowFloor := decide (k.pcap < Config.idleFloor), scaled := decide (room < sum) } }
  let s := (s.worlds.map (·.1)).foldl (fun s w => s.modWorld w fun x =>
    { x with efloor := if room < sum then x.floor * room / sum else x.floor }) s
  if room < sum then
    ((s.worlds.filter (fun e => decide (e.2.efloor < e.2.floor))).map (·.1)).foldl (fun s w => s.wevent w 1) s
  else s

/-- PCAP_WRITE: operands v. -/
def execPcapWrite (s : State) : Host.Outcome State Fault Refusal :=
  s.fromHost (.next { s with pkg := { s.pkg with pcap := fieldOf s.ev.v 0 16 } }.recap)

/-- FLOOR_WRITE: operands w, v. -/
def execFloorWrite (s : State) : Host.Outcome State Fault Refusal :=
  s.fromHost (.next (s.modWorld s.ev.w fun x => { x with floor := fieldOf s.ev.v 0 16 }).recap)

/-! ### Energy (R344) -/

/-- ENERGY_LO_READ: operands w. -/
def execEnergyLoRead (s : State) : Host.Outcome State Fault Refusal :=
  let e := s.pkg.energy
  s.fromHost (.next ((s.modWorld s.ev.w fun x => { x with shadow := BitVec.ofNat 32 (e / 2 ^ 32), armed := true }).send
    (.host s.ev.w true (e % 2 ^ 32))))

/-- ENERGY_HI_READ: operands w. -/
def execEnergyHiRead (s : State) : Host.Outcome State Fault Refusal :=
  let x := s.world s.ev.w
  let v := if x.armed then x.shadow.toNat else s.pkg.energy / 2 ^ 32
  s.fromHost (.next ((s.modWorld s.ev.w fun x => { x with armed := false }).send (.host s.ev.w true v)))

/-- ENERGY_COUNTER_WRAP: the counter has passed 2^64. -/
def execEnergyCounterWrap (s : State) : Host.Outcome State Fault Refusal :=
  if s.pkg.energy < 2 ^ 64 then .next s
  else .next { s with pkg := { s.pkg with energy := s.pkg.energy % 2 ^ 64, wrap := true } }

end Sys2Proof.Machine
end

