-- ==== Sys2Proof/Machine/Scrub.lean ====
section
/-!
DEFINITION. Errors in the shared caches (R303-R305), scrubbers, sweeps and receipts (R306-R308, R334), and the teardown of a world
(R333).
-/

namespace Sys2Proof.Machine

/-! ### Cached lines and ways (R303, R305) -/

/-- A way is quarantined in a set (R305): its line leaves, and no line is allocated to it again. -/
def Die.quarantineWay (d : Die) (set way : Nat) : Die :=
  let d := d.dropLines (fun n l => n % 32768 == set && l.way == way)
  if d.quarantine.contains (set, way) then d else { d with quarantine := d.quarantine ++ [(set, way)] }

/-- CACHE_LINE_UE (R303, R305): operands die, pa. A clean line is dropped. A dirty line's OWNER is terminated with cause UE_CONSUMED
(log 35), and its bytes are poisoned. -/
def execCacheLineUe (s : State) : Host.Outcome State Fault Refusal :=
  let d := s.ev.die
  let n := s.ev.pa / 128
  match (s.die d).cache.find? (fun e => e.1 == n) with
  | none => .next s
  | some (_, l) =>
    let s := if l.dirty then
        { s with poison := (n :: s.poison).eraseDups }.terminate l.owner 0x18
      else s
    .next (s.modDie d fun x => (x.dropLines (fun k _ => k == n)).quarantineWay (n % 32768) l.way)

/-- SCRUB_STEP (R305, R306): operands die, loc, flag. A scratchpad chunk is encoded in the mode in force; a corrected error of a cached line
counts against its way, and the sixteenth quarantines it. -/
def execScrubStep (s : State) : Host.Outcome State Fault Refusal :=
  match s.ev.loc with
  | .scratch c o =>
    .next (s.modCore c fun x =>
      if (x.scratchBad (16 * (o / 16)) 16).isSome then x
      else { x with chunkMode := mapSet (fun _ => false) x.chunkMode (o / 16) x.dected })
  | .phys pa =>
    if s.ev.flag = false then .next s
    else
      .next (s.modDie s.ev.die fun d =>
        match d.cache.find? (fun e => e.1 == pa / 128) with
        | none => d
        | some (n, l) =>
          let k := 16 * (n % 32768) + l.way
          let c := mapGet (fun _ => 0) d.wayCorr k + 1
          let d := { d with wayCorr := mapSet (fun _ => 0) d.wayCorr k c }
          if c = 16 then d.quarantineWay (n % 32768) l.way else d)
  | _ => .next s

/-! ### Sweeps (R307) -/

/-- Whether a byte belongs to a sweep of die `d` and is rewritten by it: homed there, on a page that is not retired. -/
def State.sweptByte (s : State) (d : Nat) (w : Sweep) (pa : Nat) : Bool :=
  decide (w.base ≤ pa) && decide (pa < w.base + w.len) && homeDie pa == d && !s.pageRetired pa

/-- The uncorrectable words and poisoned lines that a sweep overwrites (R308). -/
def State.badIn (s : State) (d : Nat) (w : Sweep) : List (Nat × Nat) :=
  ((s.ueMem.map (fun u => 8 * u) ++ s.poison.map (fun l => 128 * l)).filter (fun a => s.sweptByte d w a)).map (fun a => (a, 2))

/-- A sweep begins: MRAM units go to their slabs' journal engines (R307), and what it will overwrite is noted. -/
def State.beginSweep (s : State) (d : Nat) (w : Sweep) : State :=
  let exc := s.badIn d w
  let units := if isSlab w.base then
      ((List.range (w.len / 64)).map (fun i => w.base + 64 * i)).filter (fun a => s.sweptByte d w a)
    else []
  let s := s.modDie d fun x => { x with sweeps := x.sweeps ++ [{ w with num := x.sweepNext.toNat, exc := exc }], sweepNext := x.sweepNext + 1 }
  units.foldl (fun s a =>
    match placeOf a with
    | .mram k off => s.modSlab k fun x => { x with work := x.work ++ [.rewrite off true] }
    | _ => s) s

/-- Whether the journal engines still hold zeros that a sweep has placed. -/
def State.sweepPending (s : State) (w : Sweep) : Bool :=
  s.clusters.any (fun k => k.2.slab.work.any (fun p => match p with
    | .rewrite off true => decide (w.base ≤ slabPa k.1 off) && decide (slabPa k.1 off < w.base + w.len)
    | _ => false))

/-- The bytes of a range outside the slabs read zero, with fresh ECC. -/
def State.zeroRange (s : State) (d : Nat) (w : Sweep) : State :=
  { s with
    mem := s.mem.filter (fun c => !(s.sweptByte d w c.1 && !isSlab c.1)),
    ueMem := s.ueMem.filter (fun u => !(s.sweptByte d w (8 * u) && !isSlab (8 * u))),
    poison := s.poison.filter (fun l => !s.sweptByte d w (128 * l)) }

/-- The retired pages of a range, which are not rewritten (R308). -/
def State.retiredIn (s : State) (d : Nat) (w : Sweep) : List (Nat × Nat) :=
  ((s.die d).retired.filter (fun p => decide (w.base ≤ 4096 * p) && decide (4096 * p < w.base + w.len))).map (fun p => (4096 * p, 1))

/-- SCRUBR's destination and semaphore: the die's next sweep number, at latency 1 (R307). -/
def State.scrubr (s : State) (d : BitVec 6) (n : BitVec 8) (base len mode : Nat) : State :=
  let die := dieOf s.cur.core
  let num := (s.die die).sweepNext
  let w : Sweep := { num := 0, core := s.cur.core, uid := s.bk.uid, sem := s.bk.semPhys n.toNat, base := base, len := len,
                     startClk := s.clk, mode := mode }
  (s.beginSweep die w).landS d (num.setWidth 64) 1

/-- Whether a range lies in a die's MRAM or in its DRAM region (R221, R307). -/
def inDie (d base len : Nat) : Bool :=
  (decide (0x100000000 * d ≤ base) && decide (base + len ≤ 0x100000000 * (d + 1)))
    || (decide (0x1000000000 + 0x200000000 * d ≤ base) && decide (base + len ≤ 0x1000000000 + 0x200000000 * (d + 1)))

/-- SCRUBR.RANGE (R307) -/
def execScrubrRange (g : Guard) (d : BitVec 6) (aa : BitVec 4) (b : BitVec 6) (n : BitVec 8) (s : State) :
    Host.Outcome State Fault Refusal :=
  s.guarded g (s.needPriv 0xAB (s.forbid 0xAB false true false (s.semNeed [n.toNat]
    (let base := (s.ar aa).toNat
     let len := (s.sr b).toNat
     if base % 4096 ≠ 0 ∨ len % 4096 ≠ 0 then .trap (alignTrap 4096 (s.ar aa))
     else if inDie (dieOf s.cur.core) base len = false then .trap { code := 0x13, info := 0xFFFF, addr := s.ar aa }
     else .ok (s.scrubr d n base len 0)))))

/-- SCRUBR.SECDED, SCRUBR.DECTED (R306, R307): the mode of the core's scratchpad changes, and its chunks are encoded again. -/
def State.scrubMode (s : State) (g : Guard) (d : BitVec 6) (n : BitVec 8) (mode : Nat) : Host.Outcome State Fault Refusal :=
  s.guarded g (s.needPriv 0xAB (s.forbid 0xAB false true false (s.semNeed [n.toNat]
    (.ok ((s.modCr fun x => { x with dected := decide (mode = 2) }).scrubr d n 0 0 mode)))))
def execScrubrSecded (g : Guard) (d : BitVec 6) (n : BitVec 8) (s : State) : Host.Outcome State Fault Refusal := s.scrubMode g d n 1
def execScrubrDected (g : Guard) (d : BitVec 6) (n : BitVec 8) (s : State) : Host.Outcome State Fault Refusal := s.scrubMode g d n 2

/-- Every chunk of a scratchpad without an uncorrectable word stands in the mode in force (R306). -/
def Core.reencode (x : Core) : Core :=
  { x with chunkMode := ((List.range 49152).filter (fun c =>
      if (x.scratchBad (16 * c) 16).isSome then mapGet (fun _ => false) x.chunkMode c else x.dected)).map (fun c => (c, true)) }

/-! ### Receipts (R308, R334) -/

/-- A receipt up to its digest. The count of ranges takes 2 bytes and that of exceptions 3; a range is its base and its length (log 36). -/
def receiptBody (number world reason start stop : Nat) (nonce : List Byte) (ranges exc : List (Nat × Nat)) : List Byte :=
  bytesOfNat 8 number ++ bytesOfNat 1 world ++ bytesOfNat 1 reason ++ bytesOfNat 2 ranges.length ++ bytesOfNat 3 exc.length
    ++ bytesOfNat 1 0 ++ bytesOfNat 8 start ++ bytesOfNat 8 stop ++ (nonce ++ List.replicate 32 0).take 32
    ++ ranges.flatMap (fun r => bytesOfNat 8 r.1 ++ bytesOfNat 8 r.2)
    ++ exc.flatMap (fun e => bytesOfNat 8 (4096 * (e.1 / 4096) + e.2 * 2 ^ 56) ++ bytesOfNat 8 (e.1 % 4096))

/-- The receipt is signed with the alias key (R325, R334) and gets the next number. -/
def State.receipt (s : State) (world reason start : Nat) (nonce : List Byte) (ranges exc : List (Nat × Nat)) : State × List Byte :=
  let body := receiptBody s.pkg.receiptNo world reason start s.clk nonce ranges exc
  let digest := sha3 body
  let r := body ++ digest ++ mldsaSign s.pkg.aliasSeed digest
  ({ s with pkg := { s.pkg with receipts := s.pkg.receipts ++ [r], receiptNo := s.pkg.receiptNo + 1 } }, r)

/-- A write to host memory at the host address `h` (R221, log 37). -/
def State.putHost (s : State) (h : Nat) (v : List Byte) : State := s.putMem (0x10000000000000 + h % 2 ^ 52) v
/-- The mailbox buffer of a world: MBARG3 (R336). -/
def State.mailBuffer (s : State) (w : Nat) : Nat := (mapGet (fun _ => 0) (s.world w).mbarg 3).toNat

/-! ### Teardown (R333) -/

/-- Steps 6 and 7: the receipt goes to world 0's buffer, the entries become WORLD 0 with LOCK 0, the TDI is unlocked. -/
def State.endTeardown (s : State) (t : Teardown) : State :=
  let w := t.world
  let (s, r) := s.receipt w t.reason t.start t.nonce (t.ranges.map (·.2)) t.exc
  let s := s.putHost (s.mailBuffer 0) r
  let s := [0, 1, 2, 3].foldl (fun s d => s.modDie d fun x =>
    { x with fw := (x.fwList.filter (fun e => fieldOf e.2.1 56 8 == w)).foldl (fun m e =>
        mapSet fwReset m e.1 (putField e.2.1 56 8 0, putField e.2.2 63 1 0)) x.fw }) s
  let s := { s with pkg := { s.pkg with teardowns := s.pkg.teardowns.filter (fun (u : Teardown) => u.world != w) } }
  let s := if t.reason = 1 then s else s.modWorld 0 fun x => { x with mbBusy := false, mbResult := 0 }
  ((s.modWorld w fun x => { x with tdisp := .unlocked }).dropWorld w).wevent w 3

/-- The teardown ends with its last sweep. -/
def State.checkTeardown (s : State) (w : Nat) : State :=
  match s.pkg.teardowns.find? (fun t => t.world == w) with
  | some t => if t.waits = [] then s.endTeardown t else s
  | none => s

/-- Step 4 of R333 on one core: scratchpad, FIFO and vector groups tagged with the world are zeroed. -/
def Core.wipeWorld (x : Core) (w : Nat) : Core :=
  let x := if x.scratchWorld = w then x.zeroScratch else x
  let x := if x.fifoWorld = w then { x with fifo := [] } else x
  (x.vtag.filter (fun e => e.2.world == w)).foldl (fun x e => x.putGroup e.1 (List.replicate 2048 0)) x

/-- The ranges of a world: (die, base, length) of each valid entry (R330, R333). -/
def State.rangesOf (s : State) (w : Nat) : List (Nat × Nat × Nat) :=
  [0, 1, 2, 3].flatMap (fun d => ((s.die d).fwList.filter (fun e =>
      (e.2.1.getLsbD 0 || e.2.1.getLsbD 1) && fieldOf e.2.1 56 8 == w && decide (fieldOf e.2.1 12 44 ≤ fieldOf e.2.2 12 44))).map (fun e =>
    (d, 4096 * fieldOf e.2.1 12 44, 4096 * (fieldOf e.2.2 12 44 + 1 - fieldOf e.2.1 12 44))))

/-- Step 5 of R333: every range is swept; no page of a die that is not released can be verified (R308; log 38). -/
def State.sweepRanges (s : State) (t : Teardown) (rs : List (Nat × Nat × Nat)) : State :=
  let (s, t) := rs.foldl (fun (st : State × Teardown) r =>
    let (s, t) := st
    let (d, base, len) := r
    if (s.die d).state ≠ .released then (s, { t with exc := t.exc ++ (List.range (len / 4096)).map (fun i => (base + 4096 * i, 3)) })
    else
      let num := (s.die d).sweepNext.toNat
      (s.beginSweep d { num := 0, core := 0, uid := 0, sem := 0, base := base, len := len, startClk := s.clk },
        { t with waits := t.waits ++ [(d, num)] })) (s, { t with ranges := rs, waits := [] })
  let s := { s with pkg := { s.pkg with teardowns := s.pkg.teardowns.filter (fun (u : Teardown) => u.world != t.world) ++ [t] } }
  s.checkTeardown t.world

/-- Steps 1 to 5 of R333. -/
def State.beginTeardown (s : State) (w reason : Nat) (nonce : List Byte) : State :=
  let t : Teardown := { world := w, reason := reason, nonce := nonce, start := s.clk }
  let s := { s with pkg := { s.pkg with teardowns := s.pkg.teardowns ++ [t] } }
  let mine := (s.ctxs.filter (fun e => e.2.world == w && e.2.loaded && !e.2.dead)).map (·.1)
  let s := mine.foldl (fun s c => s.terminate c 0) s
  let s := [0, 1, 2, 3].foldl (fun s d => s.modDie d fun x => x.dropLines (fun _ l => l.world == w)) s
  let s := (s.cores.map (·.1)).foldl (fun s c => s.modCore c fun x => x.wipeWorld w) s
  s.sweepRanges t (s.rangesOf w)

/-! ### SWEEP_COMPLETE (R307, R308) -/

/-- A sweep of a teardown hands its exceptions on; a sweep of SCRUBR ends with a receipt whose reason and nonce are not stated
(log 36). -/
def State.sweepReport (s : State) (d : Nat) (w : Sweep) (exc : List (Nat × Nat)) : State :=
  match s.pkg.teardowns.find? (fun t => t.waits.contains (d, w.num)) with
  | some t =>
    let u := { t with waits := t.waits.filter (fun e => e != (d, w.num)), exc := t.exc ++ exc }
    let s := { s with pkg := { s.pkg with teardowns := s.pkg.teardowns.map (fun (x : Teardown) => if x.world = t.world then u else x) } }
    s.checkTeardown t.world
  | none =>
    if w.mode = 0 then
      let world := (((s.core w.core).posOf w.uid).map (fun p => s.worldOf (s.bank w.core p).ctx)).getD 0
      let nonce := (List.range 4).flatMap (fun i => bytesOfNat 8 (Config.freeWord (s.fresh + 1 + i)).toNat)
      let (s, _) := s.receipt world (Config.freeNat s.fresh % 256) w.startClk nonce [(w.base, w.len)] exc
      { s with fresh := s.fresh + 5 }
    else s

/-- SWEEP_COMPLETE: operands die, n. Nothing happens while the journal engines still hold zeros of it. -/
def execSweepComplete (s : State) : Host.Outcome State Fault Refusal :=
  let d := s.ev.die
  match (s.die d).sweeps.find? (fun w => w.num == s.ev.n) with
  | none => .next s
  | some w =>
    if s.sweepPending w then .next s
    else
      let exc := (w.exc ++ s.badIn d w ++ s.retiredIn d w).eraseDups
      let s := if w.mode = 0 then s.zeroRange d w else s.modCore w.core Core.reencode
      let s := s.modDie d fun x => { x with sweeps := x.sweeps.filter (fun y => y.num != w.num) }
      let s := s.modCore w.core fun x => x.signal w.sem 1 w.uid
      .next (s.sweepReport d w exc)

end Sys2Proof.Machine
end

