-- ==== Sys2Proof/Machine/Package.lean ====
section
/-!
DEFINITION. The package (R324-R346): boot, SPDM, TDISP, the mailbox, notify, evicted pages, RESYNC, and the host's writes of registers.
-/

namespace Sys2Proof.Machine

/-! ### Boot (R324, R325) -/

/-- The seed of the device identity key (R325). -/
def dikSeed : List Byte := sha3 Config.deviceSecret
/-- The seed of the alias key (R325). -/
def aliasSeed : List Byte :=
  sha3 (dikSeed ++ (List.range 6).flatMap Config.measurement ++ Config.flohildConfig)

/-- What a slab keeps through a package reset: all of it but work under way (R219). -/
def Cluster.reboot (k : Cluster) : Cluster :=
  { slab := { k.slab with work := [], att := none, results := [], asked := [], commits := [] } }

/-- PACKAGE_RESET (R324, R325, R213, R333): every die is held, every register takes its reset value, the alias key is generated, and every
cluster takes a sample. Memory, the slabs, pending teardowns and the receipts' number stay; no context is loaded, so no task is left
(log 31). -/
def execPackageReset (s : State) : Host.Outcome State Fault Refusal :=
  let kept : State := {
    age := s.age, fresh := s.fresh, order := s.order, uids := s.uids, mem := s.mem, poison := s.poison, ueMem := s.ueMem,
    clusters := (s.clusters.map (fun e => (e.1, e.2.reboot))).filter (fun e => decide (e.2 ≠ {})),
    pkg := { teardowns := s.pkg.teardowns.map (fun (t : Teardown) => { t with waits := [] }), receiptNo := s.pkg.receiptNo,
             aliasSeed := aliasSeed, aliasPub := Config.mldsaPublic aliasSeed } }
  .next ((List.range 64).foldl (fun s k =>
    s.modCluster k fun c => c.sample (Config.dramHeat k s.age) (Config.logicHeat k s.age)) kept)

/-- R333: teardowns that a power loss has interrupted sweep again, on each die, the MRAM ranges that its entries give their world. -/
def State.resumeTeardowns (s : State) : State :=
  s.pkg.teardowns.foldl (fun s t =>
    s.sweepRanges { t with reason := 3, exc := [] } (t.ranges.filter (fun r =>
      isSlab r.2.1 || isSlab (r.2.1 + r.2.2 - 1)))) s

/-- DIE_AUTHENTICATE (R324): operands n. Dies are taken in order; one whose exchange or measurement fails stays in reset and is logged, and
after a failure of I/O die 0 none is released. -/
def execDieAuthenticate (s : State) : Host.Outcome State Fault Refusal :=
  let n := s.ev.n
  if n ≠ s.pkg.bootNext ∨ 6 ≤ n then .next s
  else
    let pass := Config.spdmPasses n && decide (Config.measurement n = Config.manifest n)
    let free := n == 0 || s.ioUp 0
    let st : DieState := if pass && free then .released else if pass then .held else .failed
    let s := { s with pkg := { s.pkg with bootNext := n + 1, bootLog := if pass then s.pkg.bootLog else s.pkg.bootLog ++ [n],
                                          io := s.pkg.io.mapIdx (fun i x => if i = n then st else x) } }
    let s := if n < 2 then s else s.modDie (n - 2) fun d => { d with state := st }
    .next (if n = 5 then s.resumeTeardowns else s)

/-! ### SPDM (R325, R326) -/

/-- A response of the responder of function `w`. `step` numbers the request in the order of R324. Only what R325 and R326 give stands in
it: the message layouts are those of SPDM, which the spec does not repeat (log 39). -/
def State.spdm (s : State) (step : Nat) (resp : List Byte) : State :=
  s.modWorld s.ev.w fun x => { x with spdm := step, resp := resp }

/-- Certificate slot 0 (R325): the Kolquin root, the DIK certificate, the alias certificate that the DIK signs. -/
def State.certificates (s : State) : List Byte :=
  Config.kolquinRoot ++ Config.mldsaPublic dikSeed ++ s.pkg.aliasPub ++ mldsaSign dikSeed s.pkg.aliasPub

/-- Measurement block `i` (R326): a compute die that was left in reset has a zero digest. -/
def State.measured (s : State) (w i : Nat) : List Byte :=
  if i ≤ 2 then Config.measurement (i - 1)
  else if i ≤ 6 then if (s.die (i - 3)).state = .released then Config.measurement (i - 1) else List.replicate 64 0
  else if i = 7 then Config.flohildConfig
  else (s.world w).block8

/-- GET_VERSION: operands w. -/
def execGetVersion (s : State) : Host.Outcome State Fault Refusal := s.fromHost (.next (s.spdm 1 []))
/-- GET_CAPABILITIES: operands w. -/
def execGetCapabilities (s : State) : Host.Outcome State Fault Refusal := s.fromHost (.next (s.spdm 2 []))
/-- NEGOTIATE_ALGORITHMS: operands w. ML-DSA-87 and SHA3-512 (R324). -/
def execNegotiateAlgorithms (s : State) : Host.Outcome State Fault Refusal := s.fromHost (.next (s.spdm 3 []))
/-- GET_DIGESTS: operands w. -/
def execGetDigests (s : State) : Host.Outcome State Fault Refusal := s.fromHost (.next (s.spdm 4 (sha3 s.certificates)))
/-- GET_CERTIFICATE: operands w. -/
def execGetCertificate (s : State) : Host.Outcome State Fault Refusal := s.fromHost (.next (s.spdm 5 s.certificates))
/-- CHALLENGE: operands w, bytes (the nonce). The answer is signed with the alias key (R325). -/
def execChallenge (s : State) : Host.Outcome State Fault Refusal :=
  s.fromHost (.next (s.spdm 6 (mldsaSign s.pkg.aliasSeed (s.ev.bytes ++ s.certificates))))
/-- GET_MEASUREMENTS: operands w, bytes (the nonce). A TDI gets block 8 for its own world only (R326); the answer is signed with the alias
key. -/
def execGetMeasurements (s : State) : Host.Outcome State Fault Refusal :=
  let blocks := (List.range 8).flatMap (fun i => s.measured s.ev.w (i + 1))
  s.fromHost (.next (s.spdm 7 (blocks ++ mldsaSign s.pkg.aliasSeed (s.ev.bytes ++ blocks))))

/-! ### TDISP (R327) -/

/-- Block 8 (R326): the digest of the world's firewall entries and context assignments. -/
def State.block8 (s : State) (w : Nat) : List Byte :=
  sha3 ([0, 1, 2, 3].flatMap (fun d => ((s.die d).fwList.filter (fun e => fieldOf e.2.1 56 8 == w)).flatMap (fun e =>
      bytesOfNat 2 e.1 ++ bytesOfNat 8 e.2.1.toNat ++ bytesOfNat 8 e.2.2.toNat))
    ++ ((s.ctxs.filter (fun e => e.2.world == w)).flatMap (fun e => bytesOfNat 2 e.1)))

/-- The LOCK bits of a world's entries on every die. -/
def State.lockEntries (s : State) (w : Nat) : State :=
  [0, 1, 2, 3].foldl (fun s d => s.modDie d fun x =>
    { x with fw := (x.fwList.filter (fun e => (e.2.1.getLsbD 0 || e.2.1.getLsbD 1) && fieldOf e.2.1 56 8 == w)).foldl (fun m e =>
        mapSet fwReset m e.1 (e.2.1, putField e.2.2 63 1 1)) x.fw }) s

/-- CONFIG_LOCKED: operands w. -/
def execConfigLocked (s : State) : Host.Outcome State Fault Refusal :=
  let w := s.ev.w
  if s.ioUp 0 = false ∨ w = 0 ∨ 255 < w ∨ (s.world w).tdisp ≠ .unlocked ∨ s.tearing w = true then .next s
  else
    let s := s.lockEntries w
    .next (s.modWorld w fun x => { x with tdisp := .locked, block8 := s.block8 w })

/-- RUN: operands w. -/
def execRun (s : State) : Host.Outcome State Fault Refusal :=
  s.fromHost (if (s.world s.ev.w).tdisp = .locked then .next (s.modWorld s.ev.w fun x => { x with tdisp := .run }) else .next s)

/-- TDISP_EXIT: operands w, bytes (the nonce). The TDI stands in ERROR until its teardown ends (R327, R333). -/
def execTdispExit (s : State) : Host.Outcome State Fault Refusal :=
  let w := s.ev.w
  if s.ioUp 0 = false ∨ (s.world w).tdisp = .unlocked ∨ s.tearing w = true then .next s
  else .next ((s.modWorld w fun x => { x with tdisp := .error }).beginTeardown w 1 s.ev.bytes)

/-! ### The mailbox (R336, R337) -/

/-- A mailbox result: 0 OK, 1 DENIED, 2 BADARG (R336). -/
def State.mailResult (s : State) (w r : Nat) : State := s.modWorld w fun x => { x with mbResult := r }

/-- A command of function `w`: dropped with NBAD in a teardown, ignored while BUSY is set (R333, R337). -/
def State.mailbox (s : State) (f : State → Nat → (Nat → Word) → State × Nat) : Host.Outcome State Fault Refusal :=
  let w := s.ev.w
  if s.ioUp 0 = false then .next s
  else if s.tearing w then .next (s.modWorld w fun x => { x with nbad := true })
  else if (s.world w).mbBusy then .next s
  else
    let (s, r) := f s w (mapGet (fun _ => 0) (s.world w).mbarg)
    .next (s.mailResult w r)

/-- CTXASSIGN (R337): MBARG0 context, MBARG1 world. -/
def execCtxassign (s : State) : Host.Outcome State Fault Refusal :=
  s.mailbox fun s w arg =>
    let c := (arg 0).toNat
    let t := (arg 1).toNat
    if w ≠ 0 then (s, 1)
    else if 4096 ≤ c ∨ 256 ≤ t then (s, 2)
    else if (s.world t).tdisp ≠ .unlocked ∨ (s.world (s.worldOf c)).tdisp ≠ .unlocked then (s, 1)
    else (s.modCtx c fun k => { k with world := t }, 0)

/-- The checks of a descriptor (R329). -/
def descOk (v : Nat) (bytes : List Byte) : Bool :=
  let f (at_ n : Nat) : Nat := bitsOf v (8 * at_) (8 * n)
  f 0 8 % 256 == 0 && f 7 1 == 0 && f 8 10 % 65536 == 0 && f 0x12 1 == 0 && decide (f 0x13 1 < 4) && decide (f 0x16 2 ≤ 4096)
    && f 0x18 8 % 256 == 0 && decide (16 ≤ f 0x24 4) && decide (f 0x24 4 ≤ 65536) && f 0x24 4 == 2 ^ (f 0x24 4).log2
    && f 0x28 10 % 16 == 0 && f 0x32 2 == 0 && f 0x4A 0x32 == 0 && f 0x7C 4 == (crc32c (bytes.take 0x7C)).toNat

/-- CTXLOAD (R329, R337): MBARG0 context, MBARG1 descriptor address. The descriptor must lie in the world's memory (log 40). -/
def execCtxload (s : State) : Host.Outcome State Fault Refusal :=
  s.mailbox fun s w arg =>
    let c := (arg 0).toNat
    let pa := (arg 1).toNat
    if 4096 ≤ c then (s, 2)
    else if s.worldOf c ≠ w then (s, 1)
    else if pa % 128 ≠ 0 ∨ isLocal pa = false ∨ (s.physDeny w pa false).isSome ∨ (s.physDeny w pa true).isSome ∨ s.bad pa 128 = true then (s, 2)
    else
      let (s, bytes, _) := s.readHome c pa 128
      let v := natOfBytes bytes
      if descOk v bytes then
        let f (at_ n : Nat) : Nat := bitsOf v (8 * at_) (8 * n)
        (s.modCtx c fun k =>
          let k := { k with loaded := true, dead := false, desc := pa, root := f 0 8, save := BitVec.ofNat 80 (f 8 10), mode := f 0x13 1 }
          let k := { k with tiles := f 0x14 2, share := f 0x16 2, wstk := BitVec.ofNat 64 (f 0x18 8), margin := f 0x20 4 }
          let k := { k with loglen := f 0x24 4, logbase := BitVec.ofNat 80 (f 0x28 10), logwr := f 0x34 4, logrd := f 0x38 4 }
          { k with genctr := f 0x3C 4, replay := BitVec.ofNat 80 (f 0x40 10) }, 0)
      else (s, 2)

/-- CTXKILL (R302, R337): MBARG0 context. -/
def execCtxkill (s : State) : Host.Outcome State Fault Refusal :=
  s.mailbox fun s w arg =>
    let c := (arg 0).toNat
    if 4096 ≤ c then (s, 2)
    else if w ≠ 0 ∧ s.worldOf c ≠ w then (s, 1)
    else if (s.ctx c).loaded = false ∨ (s.ctx c).dead then (s, 2)
    else (s.terminate c 0, 0)

/-- WORLDFREE (R337): MBARG0 world, MBARG1 host address of the nonce. It tears down an unlocked world; BUSY stands until it ends. -/
def execWorldfree (s : State) : Host.Outcome State Fault Refusal :=
  s.mailbox fun s w arg =>
    let t := (arg 0).toNat
    if w ≠ 0 then (s, 1)
    else if t = 0 ∨ 256 ≤ t then (s, 2)
    else if (s.world t).tdisp ≠ .unlocked ∨ s.tearing t = true then (s, 1)
    else ((s.modWorld 0 fun x => { x with mbBusy := true }).beginTeardown t 2 (s.memBytes (0x10000000000000 + (arg 1).toNat % 2 ^ 52) 32), 0)

/-- LGLAUNCH (R356): its entries are read at MBARG2, a physical address of the world (log 41). -/
def execLglaunch (s : State) : Host.Outcome State Fault Refusal :=
  s.mailbox fun s w arg =>
    let pa := (arg 2).toNat
    let n := 16 * fieldOf (arg 0) 16 16
    if (s.spanDeny w pa n false).isSome ∨ s.bad pa n = true then (s, 2)
    else
      let (s, bs, _) := s.readHome 0 pa n
      let (s, ok) := s.launch w (arg 0) (arg 1) bs
      (s, if ok then 0 else 2)

/-! ### Pages evicted to the host (R227, R228, R335) -/

/-- The address of the entry at level `target` on the walk of `va`, through valid tables (R226, R227). -/
def entryAt (s : State) (w va target : Nat) : Nat → Nat → Option Nat
  | 0, _ => none
  | level + 1, base =>
    let at_ := base + 8 * pteIndex (level + 1) va
    if (s.physDeny w at_ false).isSome then none
    else if level + 1 = target then some at_
    else
      let e := s.memNat at_ 8
      if bitOf e 0 && !pteMalformed (level + 1) e && !bitOf e 1 then entryAt s w va target level (bitsOf e 12 44 * 4096)
      else none

/-- The level of a page size (R226). -/
def levelOf (log : Nat) : Nat := if log = 30 then 3 else if log = 21 then 2 else 1

/-- Write an entry, or the sixteen of a 64 KiB page (R228). -/
def State.putEntries (s : State) (ctx at_ log e : Nat) : State :=
  if log = 16 then (List.range 16).foldl (fun s i => s.writePhys ctx (at_ / 128 * 128 + 8 * i) (bytesOfNat 8 e)) s
  else s.writePhys ctx at_ (bytesOfNat 8 e)

/-- The trailer of a page up to its tag: VA, CTX, GEN, log2 of the size, the rights R W X U; its layout is not stated (log 42). -/
def trailer (va : Addr) (ctx gen log rights : Nat) : List Byte :=
  bytesOfNat 10 va.toNat ++ bytesOfNat 2 ctx ++ bytesOfNat 4 gen ++ bytesOfNat 1 log ++ bytesOfNat 1 rights ++ List.replicate 14 0

/-- The end of a PAGEOUT: the page and its trailer go to the host, and the local page is zeroed (R335). -/
def State.pageGone (s : State) (o : PageOut) : State :=
  let page := s.seenBytes o.pa (2 ^ o.log)
  let t := trailer o.base o.ctx o.gen o.log o.rights
  let s := s.putHost o.host (page ++ t ++ (Config.kmac o.world (page ++ t)).take 32)
  { s with mem := mapClear s.mem o.pa (2 ^ o.log) }

/-- The PAGEOUTs that wait for accesses end when these have been delivered, or have reached their home caches (R231, R335). -/
def State.endPageouts (s : State) : State :=
  let done (o : PageOut) : Bool := o.waits.all (fun e => (s.uidBank e.1 e.2.1).standing.all (fun a => a.id != e.2.2 || a.st == .performed))
  let ended := s.pkg.pageouts.filter done
  let s := { s with pkg := { s.pkg with pageouts := s.pkg.pageouts.filter (fun o => !done o) } }
  ended.foldl (fun s o => (s.pageGone o).modWorld o.world fun x => { x with mbBusy := false, mbResult := 0 }) s

/-- PAGEOUT (R335): MBARG0 context, with VA[79:64] in bits 63:48, MBARG1 VA[63:0], MBARG2 host address (log 42). BUSY stands while accesses
that were translated with the page's entries are under way. -/
def execPageout (s : State) : Host.Outcome State Fault Refusal :=
  s.mailbox fun s w arg =>
    let c := fieldOf (arg 0) 0 12
    let va : Addr := (arg 0).extractLsb' 48 16 ++ arg 1
    let k := s.ctx c
    if s.worldOf c ≠ w then (s, 1)
    else match s.leafOf w va.toNat k.root with
      | .bad _ _ => (s, 2)
      | .leaf at_ e log =>
        let pa := bitsOf e 12 44 * 4096
        if k.loaded = false ∨ k.dead = true ∨ bitOf e 9 = true ∨ isLocal pa = false ∨ isSlab pa = true ∨ isSlab at_ = true
            ∨ (s.spanDeny w pa (2 ^ log) false).isSome
            ∨ (s.spanDeny w pa (2 ^ log) true).isSome ∨ s.bad pa (2 ^ log) = true then (s, 2)
        else
          let gen := (k.genctr + 1) % 2 ^ 32
          let base : Addr := BitVec.ofNat 80 (va.toNat / 2 ^ log * 2 ^ log)
          let waits := s.translatedWith 0 true 0 c base
          let s := (s.modCtx c fun k => { k with genctr := gen }).writePhys c (k.desc + 0x3C) (bytesOfNat 4 gen)
          let s := (s.putEntries c at_ log (2 + gen * 2 ^ 32)).tlbinv 0 true 0 c base
          let o : PageOut := ⟨w, c, base, log, pa, (arg 2).toNat, gen, bitsOf e 2 4, waits⟩
          if waits = [] then (s.pageGone o, 0)
          else ({ s.modWorld w (fun x => { x with mbBusy := true }) with pkg := { s.pkg with pageouts := s.pkg.pageouts ++ [o] } }, 0)

/-- A fault-queue entry on a page of a context is resolved (R234, R335). -/
def State.resolvePage (s : State) (c : Nat) (base log action : Nat) : State :=
  [0, 1, 2, 3].foldl (fun s d => s.modDie d fun x => { x with faults := x.faults.map (fun e =>
    if e.ctx = c ∧ e.va.toNat / 2 ^ log = base / 2 ^ log then { e with action := some action } else e) }) s

/-- PAGEIN (R335): MBARG0 context, MBARG1 host address, MBARG2 local physical address. The trailer stands behind the page, whose size is
the one of which a trailer tells; none does so where it has been tampered with (log 42). -/
def execPagein (s : State) : Host.Outcome State Fault Refusal :=
  s.mailbox fun s w arg =>
    let c := fieldOf (arg 0) 0 12
    let pa := (arg 2).toNat
    let k := s.ctx c
    let from_ := 0x10000000000000 + (arg 1).toNat % 2 ^ 52
    let tag (log : Nat) : List Byte := s.memBytes (from_ + 2 ^ log) 64
    let size := [12, 16, 21, 30].find? (fun log => bitsOf (natOfBytes (tag log)) 128 8 == log)
    let log := size.getD 12
    let t := natOfBytes (tag log)
    let va := bitsOf t 0 80
    if s.worldOf c ≠ w then (s, 1)
    else if k.loaded = false ∨ k.dead = true ∨ pa % 2 ^ log ≠ 0 ∨ isLocal pa = false ∨ isSlab pa = true
        ∨ (s.spanDeny w pa (2 ^ log) true).isSome then (s, 2)
    else
      let leaf := (entryAt s w va (levelOf log) 8 k.root).filter (fun at_ => !isSlab at_ && bitsOf (s.memNat at_ 8) 0 4 == 2)
      let page := s.memBytes from_ (2 ^ log)
      let sealed := (tag log).drop 32 == (Config.kmac w (page ++ (tag log).take 32)).take 32
      match leaf with
      | some at_ =>
        let fresh := bitsOf t 96 32 == bitsOf (s.memNat at_ 8) 32 32
        if size.isNone ∨ bitsOf t 80 12 ≠ c ∨ (bitOf k.mode 1 = true ∧ (sealed && fresh) = false) then ((s.resolvePage c va log 2).wevent w 0, 0)
        else
          let s := s.writePhys c pa page
          let e := pa + 3 + 4 * bitsOf t 136 4 + (if log = 16 then 256 else 0)
          ((s.putEntries c at_ log e).resolvePage c va log 0, 0)
      | none => ((s.resolvePage c va log 2).wevent w 0, 0)

/-! ### RESYNC (R340) -/

/-- A section: its number, the count of its entries, the entries, each field in 8 bytes; the layout is not stated (log 43). -/
def section_ (n : Nat) (entries : List (List Nat)) : List Byte :=
  bytesOfNat 8 n ++ bytesOfNat 8 entries.length ++ entries.flatMap (fun e => e.flatMap (bytesOfNat 8))

def Tdisp.code : Tdisp → Nat
  | .unlocked => 0
  | .locked => 1
  | .run => 2
  | .error => 3
def Power.code : Power → Nat
  | .off => 0
  | .on => 2
  | _ => 1
def DieState.code : DieState → Nat
  | .held => 0
  | .released => 1
  | .failed => 2

/-- The sections that world `w` receives: world 0 every one, another world sections 1 to 5. Section 0 tells which compute dies are absent
(R324); section 1 has an entry for each of the 256 worlds. -/
def State.resyncBody (s : State) (w : Nat) : List Byte :=
  let mine (x : Nat) : Bool := w == 0 || x == w
  let dies := [0, 1, 2, 3]
  let fwCount (x : Nat) : Nat := (dies.map (fun d => ((s.die d).fwList.filter (fun e =>
    (e.2.1.getLsbD 0 || e.2.1.getLsbD 1) && fieldOf e.2.1 56 8 == x)).length)).sum
  let worlds := ((List.range 256).filter mine).map (fun x => (x, s.world x))
  let ctxs := s.ctxs.filter (fun e => mine e.2.world)
  let ofQueue (x : Waiter) : Bool := match (s.uidBank x.core x.uid).acc? x.acc with | some a => a.kind != .gbar | none => false
  let blocks := ((dies.flatMap (fun d => ((s.die d).waiters.filter ofQueue).map (·.block) ++ (s.die d).rtab.map (·.block))).eraseDups).filter
    (fun b => mine (s.memNat (b + 0x28) 1))
  let qf (b : Nat) : List Nat := [b, s.memNat (b + 0x10) 8, s.memNat (b + 0x18) 8, s.memNat (b + 0x24) 4, s.memNat (b + 0x2C) 4]
  let tasks := s.cores.flatMap (fun e => (e.2.banks.filterMap (fun b => b.2.task.map (fun t => (e.1, b.1, t)))).filter (fun t =>
    mine (s.worldOf t.2.2.ctx)))
  let faults := dies.flatMap (fun d => ((s.die d).faults.filter (fun f => mine f.world)).map (fun f => (d, f)))
  (if w = 0 then section_ 0 (dies.map (fun d => [d, (s.die d).state.code])) else [])
    ++ section_ 1 (worlds.map (fun e => [e.1, e.2.tdisp.code, e.2.floor, e.2.efloor, fwCount e.1]))
    ++ section_ 2 (ctxs.map (fun e => [e.1, e.2.world, if e.2.dead then 2 else e.2.loaded.toNat, e.2.logwr, e.2.popped]))
    ++ section_ 3 (blocks.map qf)
    ++ section_ 4 (tasks.map (fun t => [t.2.2.va.toNat % 2 ^ 64, t.2.2.va.toNat / 2 ^ 64, t.1, t.2.1, s.memNat (t.2.2.pa + 0x2F) 1]))
    ++ section_ 5 (faults.map (fun f => f.1 :: (List.range 4).map (fun i => bitsOf f.2.word (64 * i) 64)))
    ++ (if w = 0 then
      section_ 6 (s.clusters.map (fun k => [k.1, k.2.slab.status.toNat]))
      ++ section_ 7 ([[s.pkg.pcap, s.pkg.ecap, s.pkg.belowFloor.toNat + 2 * s.pkg.scaled.toNat, s.pkg.freq, s.pkg.energy % 2 ^ 64]]
        ++ s.clusters.map (fun k => [k.1, k.2.power.code, k.2.tallow.toNat, k.2.tallowl.toNat]))
    else [])

/-- RESYNC (R337, R340). The walk is one event of the model, so CYCLE is the same at its start and at its end. -/
def execResync (s : State) : Host.Outcome State Fault Refusal :=
  s.mailbox fun s w arg =>
    (s.putHost (arg 3).toNat (bytesOfNat 8 s.clk ++ bytesOfNat 8 s.clk ++ s.resyncBody w), 0)

/-! ### NOTIFY (R338, R368) -/

/-- NOTIFY: operands w, v. -/
def execNotify (s : State) : Host.Outcome State Fault Refusal :=
  .next (if s.ioUp 0 then s.notify s.ev.w s.ev.v else s)

/-! ### Registers (R14, R225, R233, R288, R330, R336, R341, R346, R356) -/

/-- FIREWALL_WRITE: operands w, die, n (the entry), flag (FWLIM), v. -/
def execFirewallWrite (s : State) : Host.Outcome State Fault Refusal :=
  if s.ioUp 0 = false ∨ 1024 ≤ s.ev.n then .next s else .next (s.onDie s.ev.die fun s => s.fwWrite s.ev.die s.ev.n s.ev.w s.ev.flag s.ev.v)

/-- A write of a register by its field codes (R14); mailbox and notify writes of a world in teardown are dropped (R333). -/
def State.writeHost (s : State) (r : HostReg) (v : Word) : State :=
  match r with
  | .mbarg w i =>
    if s.tearing w then s.modWorld w fun x => { x with nbad := true }
    else s.modWorld w fun x => { x with mbarg := mapSet (fun _ => 0) x.mbarg (i % 4) v }
  | .notifyCtx w => s.putNotify w fun x => { x with notifyCtx := fieldOf v 0 12 }
  | .notifyH w => s.putNotify w fun x => { x with notifyH := fieldOf v 0 16 }
  | .nstat w => s.modWorld w fun x => { x with nbad := v.getLsbD 0, peerbad := if w = 0 then v.getLsbD 8 else x.peerbad }
  | .wevent w => s.modWorld w fun x => { x with wevent := fieldOf v 0 4 }
  | .ramp => { s with pkg := { s.pkg with ramp := max 1 (fieldOf v 0 16) } }
  | .estat => { s with pkg := { s.pkg with wrap := v.getLsbD 0 } }
  | .localId => { s with pkg := { s.pkg with localId := fieldOf v 0 10 } }
  | .peerCfg x =>
    s.modPeer x fun e => { e with world := fieldOf v 56 8, ports := fieldOf v 48 8, fenced := e.fenced && !v.getLsbD 33,
                                  budget := max 1 (min 1024 (fieldOf v 0 11)) }
  | .lgstat w n => if (s.league n).world = w then s.modLeague n fun l => { l with late := v.getLsbD 4 } else s
  | .fqstat d => s.onDie d fun s => s.putDieReg d 0x280008 0 v
  | .fqresolveBad d => s.onDie d fun s => s.modDie d fun x => { x with badres := true }
  | .schedstat d => s.onDie d fun s => s.putDieReg d 0x2A0000 0 v
  | .cacheLim d c => s.onDie d fun s => s.putLim d c v
  | .cacheEccMode d => s.onDie d fun s => s.modDie d fun x => { x with dected := Config.cacheModeOf v }
  | .readOnly => s

/-- REGISTER_WRITE: operands reg, v. -/
def execRegisterWrite (s : State) : Host.Outcome State Fault Refusal := s.fromHost (.next (s.writeHost s.ev.reg s.ev.v))

end Sys2Proof.Machine
end

