-- ==== Sys2Proof/Machine/Clock.lean ====
section
/-!
DEFINITION. The passage from one clk to the next: what takes effect at the end of a clk (R6, R142), and the events of the clk that
follows, in the order in which they act (log 1). An event whose condition does not hold does nothing.
-/

namespace Sys2Proof.Machine

/-! ### Free events -/

/-- The rows whose time the spec leaves open, or that come from outside the package. -/
def freeTimed (i : Instr) : Bool :=
  match i with
  | .interlockedDelivery | .scrupleReplay | .urgentPreemption | .vectorGroupBackgroundSave | .frameBackgroundSave | .eccRewrite
  | .accessPerform | .queuePerform | .controllerReport | .latchRefill | .groupPerform | .dictReload | .atsInvalidate | .sweepComplete
  | .scrubStep | .translationWalkEnd | .fqresolveRetry | .fqresolveFail | .fqresolveReject | .cacheLineUe | .powerLoss
  | .packageReset | .getVersion | .getCapabilities | .negotiateAlgorithms | .getDigests | .getCertificate | .challenge | .getMeasurements
  | .configLocked | .run | .tdispExit | .ctxassign | .ctxload | .ctxkill | .pageout | .pagein | .worldfree | .resync | .lglaunch | .notify
  | .firewallWrite | .pcapWrite | .floorWrite | .freqreqWrite | .energyLoRead | .energyHiRead | .unfence | .registerWrite | .remoteResponse
  | .incomingPeerRequest | .unsupportedUalinkMessage | .leagueStartMessage | .leagueArriveMessage | .leagueAbortMessage
  | .hostRequest => true
  | _ => false

/-- The events of a clk that the spec does not time. -/
def freeEvents (n : Nat) : List (Instr × EvArgs) := (Config.events (2 * n)).filter (fun e => freeTimed e.1 && e.2.wf)

/-- The rows that may also act between the writes that a copy's unit makes in a clk (R251), and those writes. -/
def amongWrites (i : Instr) (e : EvArgs) : Bool :=
  match i with
  | .accessPerform | .queuePerform | .groupPerform | .incomingPeerRequest | .hostRequest => true
  | .copyComplete => decide (2 ≤ e.n)
  | _ => false

/-- The events of a clk that act among the writes of copies. -/
def lateEvents (n : Nat) : List (Instr × EvArgs) := (Config.events (2 * n + 1)).filter (fun e => amongWrites e.1 e.2 && e.2.wf)

/-! ### The end of a clk -/

/-- A stored word becomes uncorrectable (R101, R163, R177, R303). -/
def State.upset (s : State) (l : ErrLoc) : State :=
  match l with
  | .vector c _ | .scratch c _ | .accum c _ => if c < 256 then s.modCore c fun x => { x with bad := (l :: x.bad).eraseDups } else s
  | .bank c p r => if c < 256 ∧ p < 5 ∧ r < 256 then s.modBank c p fun b => { b with badS := (r :: b.badS).eraseDups } else s
  | .operand k _ => if k < 64 then s.modCluster k fun x => { x with bad := (l :: x.bad).eraseDups } else s
  | .phys pa => { s with ueMem := (pa / 8 :: s.ueMem).eraseDups }

/-- The banks that hold what is left of tasks that have ended go when their copies have completed and their accesses have performed. -/
def Core.dropGhosts (x : Core) : Core :=
  { x with banks := x.banks.filter (fun e => decide (e.1 < 8) || !e.2.copies.isEmpty || e.2.accs.any (fun a => a.isAccess && a.outlives)) }

/-- What takes effect at the end of a clk: semaphores (R142), loads that are forwarded whole (R235), PAGEOUTs whose accesses are through (R335), the
barriers of leagues (R358), upsets, energy (R344), the ramp allowance (R343). -/
def State.endClk (s : State) : State :=
  let s := (s.cores.map (·.1)).foldl (fun s c => s.modCore c fun x =>
    let y := x.semUpdate.dropGhosts
    { y with banks := y.banks.map fun e => (e.1, e.2.forwardNow) }) s
  let s := s.endPageouts
  let s := (s.leagues.map (·.1)).foldl (fun s n => s.lgTest n) s
  let s := (Config.upsets s.age).foldl (fun s l => s.upset l) s
  let k := s.pkg
  let us := decide (k.nextUs ≤ s.clk)
  let grown := if us then min 200000 (k.allowance + k.ramp) else k.allowance
  { s with pkg := { k with energy := k.energy + Config.energyStep s.age, allowance := grown,
                           nextUs := if us then s.clk + s.usClk 1 else k.nextUs,
                           nextTick := if k.nextTick ≤ s.clk then s.clk + s.usClk 10 else k.nextTick } }

/-! ### The events of a clk -/

/-- Events of a core that take effect before its bundle: the phase timer, spills and fills of windows, traps that enter, exchanges that
end (R81, R94, R95, R172, R294). -/
def coreFirst (c : Nat) (x : Core) : List (Instr × EvArgs) :=
  let ps := x.banks.filter (fun e => decide (e.1 < 5))
  (ps.filter (fun e => e.2.task.isSome)).map (fun e => (.phaseOverrun, { core := c, pos := e.1 }))
    ++ (ps.filter (fun e => e.2.win.isSome)).flatMap (fun e => [(.windowSpill, { core := c, pos := e.1 }), (.windowFill, { core := c, pos := e.1 })])
    ++ (ps.filter (fun e => e.2.entry.isSome)).map (fun e => (.trapEntry, { core := c, pos := e.1 }))
    ++ (if x.issue.exch.isSome then [(.bankExchange, { core := c })] else [])
    ++ x.frameSaves.map (fun m => (.frameBackgroundSave, { core := c, n := m.1 }))
    ++ x.frameMoves.map (fun m => (.frameExchange, { core := c, n := m.1, ctx := m.2.1 }))
    ++ x.groupMoves.map (fun m => (.vectorGroupExchange, { core := c, n := m.1 }))

/-- The engines of a core: the loads and rows of running commands, then starts, whose waits are tested in issue order (R142, R157, R183,
R186); of one bundle the M slot comes before the C slot. -/
def coreEngines (c : Nat) (x : Core) : List (Instr × EvArgs) :=
  x.mrun.map (fun m => (.mmaRowStream, { core := c, id := m.id }))
    ++ (sortByOrder (
      (x.mq.take 1).flatMap (fun (m : MCmd) => [(m.order, ((.mQueueStart : Instr), ({ core := c } : EvArgs))),
        (m.order, (.oreleaseEffect, { core := c })), (m.order, (.unleaseEffect, { core := c }))])
      ++ x.banks.flatMap (fun e => (e.2.copies.filter (fun y => y.st == .queued)).map (fun y =>
        (y.order, ((.copyStart : Instr), ({ core := c, id := y.id } : EvArgs))))))).map (·.2)

/-- The empty positions of a core pop in order (R290). -/
def corePops (c : Nat) : List (Instr × EvArgs) := [0, 1, 2, 3].map (fun p => (.recordPop, { core := c, pos := p }))

/-- Deliveries that arrived while the pipeline was frozen (R99). -/
def arrivals (c : Nat) (x : Core) : List (Instr × EvArgs) :=
  x.banks.flatMap (fun e => (e.2.accs.filter (·.arrived)).flatMap (fun a =>
    (if x.issue.exch.isSome then [0, 1, 2, 3, 4] else [e.1]).map (fun p => (.interlockedDelivery, { core := c, pos := p, id := a.id }))))

/-- The positions of a core that holds a task. A bank may move to another position before its results land (R20). -/
def Core.places (x : Core) : List Nat := if x.banks.any (fun e => e.2.task.isSome) then [0, 1, 2, 3, 4] else []

/-- Events of a core after its bundle: deliveries held while it was frozen, the wheel, landings, the turn of the copy engine (R15, R16, R99,
R157, R249). -/
def coreAfter (c : Nat) (x : Core) : List (Instr × EvArgs) :=
  arrivals c x ++ [(.scWheelPerform, { core := c })]
    ++ x.places.map (fun p => (.exposedResultLands, { core := c, pos := p }))
    ++ (if x.banks.all (fun e => e.2.copies.isEmpty) then [] else [(.copyComplete, { core := c })])

/-- Events of a core at the end of a clk: the last writes of its copies, failed copies, the ends of M commands, quiet boundaries (R157, R158,
R182, R186, R193, R211). -/
def coreLast (c : Nat) (x : Core) : List (Instr × EvArgs) :=
  let ys := x.banks.flatMap (fun e => e.2.copies.filter (fun y => y.st != .written))
  let ps := x.places
  (if ys.isEmpty then [] else [(.copyComplete, { core := c, n := 1 })])
    ++ ys.map (fun y => (.copyFault, { core := c, id := y.id }))
    ++ x.mrun.map (fun m => (match m.op with | .ofill _ _ => .ofillComplete | _ => .mmaComplete, { core := c, id := m.id }))
    ++ ps.map (fun p => (.nvSnapshot, { core := c, pos := p }))

/-- Events of a cluster before its cores: slots, the lease, power, heat, refresh (R179, R184, R185, R207-R213, R343). -/
def clusterFirst (s : State) (k : Nat) (x : Cluster) : List (Instr × EvArgs) :=
  (x.slots.filter (fun e => e.2.zeroing.isSome)).map (fun e => (.slotZeroingDone, { cl := k, n := e.1 }))
    ++ (x.lease.reqs.map (fun c => (.leaseGrant, { cl := k, core := c })))
    ++ (match x.power with
      | .ramp _ => [(.supplyRampDone, { cl := k })]
      | .clear _ => [(.sramClearDone, { cl := k })]
      | .recover => [(.journalRecovery, { cl := k })]
      | .off => if x.wakeWaits && decide (20000 ≤ s.pkg.allowance) then [(.rampAllowanceReached, { cl := k })] else []
      | .on => if x.rest then [(.clusterOff, { cl := k })] else [])
    ++ (x.refresh.filter (fun e => decide (e.2 ≤ s.clk))).map (fun e => (.bankRefreshEnd, { cl := k, n := e.1 }))
    ++ (if x.power ≠ .off ∧ x.refAt ≤ 16 * s.clk then [(.bankRefreshStart, { cl := k })] else [])

/-- Events of a cluster at the end of the clk: the journal engine, the lease, the sensors (R185, R201, R316). -/
def clusterLast (s : State) (k : Nat) (x : Cluster) : List (Instr × EvArgs) :=
  (match x.slab.att with | some a => if a.due ≤ s.clk then [(.journalAttempt, { cl := k })] else [] | none => [])
    ++ (if x.lease.holder.isSome then [(.quantumExpire, { cl := k }), (.leasePass, { cl := k })] else [])
    ++ (if x.power ≠ .off ∧ s.pkg.nextUs ≤ s.clk then
        [(.dramSensorSample, { cl := k, dram := Config.dramHeat k s.age, logic := Config.logicHeat k s.age })] else [])

/-- Events of a die: waiting refills, budgets, waiting fault entries and log entries (R232, R275, R297, R350). -/
def dieEvents (d : Nat) (x : Die) : List (Instr × EvArgs) :=
  (if x.faultWait.isEmpty then [] else [(.faultEntryWrite, { die := d })])
    ++ (if x.waiters.isEmpty then [] else [(.reservationTableWaitEnd, { die := d })])
    ++ x.holding.map (fun h => (.peerBudgetRelease, { die := d, n := h.peer }))
    ++ (if x.heldLog.isEmpty then [] else [(.heldLogWrite, { die := d })])

/-- Events of the package: boot, the furlong, energy, heat, power, peers, leagues (R214, R292, R324, R343, R344, R351, R357, R359). -/
def packageEvents (s : State) : List (Instr × EvArgs) :=
  (if s.pkg.energy < 2 ^ 64 then [] else [(.energyCounterWrap, ({} : EvArgs))])
    ++ (if s.pkg.bootNext < 6 then [(.dieAuthenticate, { n := s.pkg.bootNext })] else [])
    ++ (if s.clk % Config.furlong = 0 then [(.furlongStart, ({} : EvArgs))] else [])
    ++ (if s.pkg.nextTick ≤ s.clk then
        [(.thermalStep, ({} : EvArgs)), (.powerManagerPeriod, { n := Config.power s.age, share := (List.range 64).map (fun c => (c, Config.clusterPower c s.age)) })] else [])
    ++ (s.peers.filter (fun e => !e.2.out.isEmpty)).map (fun e => (.peerTimeout, { n := e.1 }))
    ++ (s.leagues.map (·.1)).flatMap (fun n => [(.leagueRelaunch, { n := n }), (.leagueStart, { n := n }), (.leagueGraceExpire, { n := n }),
        (.leaguePreempt, { n := n })])

/-- The agenda of a clk. -/
def State.plan (s : State) : List (Instr × EvArgs) :=
  packageEvents s
    ++ s.clusters.flatMap (fun e => clusterFirst s e.1 e.2)
    ++ s.cores.flatMap (fun e => coreFirst e.1 e.2)
    ++ s.cores.flatMap (fun e => coreEngines e.1 e.2)
    ++ s.dies.flatMap (fun e => dieEvents e.1 e.2)
    ++ (if s.dies.all (fun e => e.2.recs.isEmpty) then [] else (List.range 256).flatMap corePops)
    ++ (s.cores.filter (fun e => e.2.banks.any (fun b => b.2.task.isSome))).map (fun e => (.bundleFetch, { core := e.1 }))
    ++ freeEvents s.age
    ++ s.cores.flatMap (fun e => coreAfter e.1 e.2)
    ++ lateEvents s.age
    ++ [0, 1, 2, 3].map (fun d => ((.faultRelease : Instr), ({ die := d } : EvArgs)))
    ++ s.cores.flatMap (fun e => coreLast e.1 e.2)
    ++ s.clusters.flatMap (fun e => clusterLast s e.1 e.2)

/-- The next clk: its number, the pieces that the journal engines take (R218), and its agenda. -/
def State.nextClk (s : State) : State :=
  let s := s.endClk
  let s := { s with clk := s.clk + 1, age := s.age + 1, fetched := none }
  let s := (s.clusters.map (·.1)).foldl (fun s k => s.modSlab k fun x => x.kick s.clk) s
  { s with agenda := s.plan }

end Sys2Proof.Machine
end

