-- ==== Sys2Proof/Machine/Dispatch.lean ====
section
/-!
DEFINITION. One arm for each row of the table of operations and events.
-/

namespace Sys2Proof.Machine

def exec (i : Instr) (s : State) : Host.Outcome State Fault Refusal :=
  match i with
  | .pop mask => Sys2Proof.Machine.execPop mask s
  | .gap n => Sys2Proof.Machine.execGap n s
  | .crit mask => Sys2Proof.Machine.execCrit mask s
  | .nop => Sys2Proof.Machine.execNop s
  | .add g d a b => Sys2Proof.Machine.execAdd g d a b s
  | .addi g d a imm => Sys2Proof.Machine.execAddi g d a imm s
  | .sub g d a b => Sys2Proof.Machine.execSub g d a b s
  | .mul g d a b => Sys2Proof.Machine.execMul g d a b s
  | .mulh g d a b => Sys2Proof.Machine.execMulh g d a b s
  | .mulhu g d a b => Sys2Proof.Machine.execMulhu g d a b s
  | .div g d a b => Sys2Proof.Machine.execDiv g d a b s
  | .divu g d a b => Sys2Proof.Machine.execDivu g d a b s
  | .rem g d a b => Sys2Proof.Machine.execRem g d a b s
  | .remu g d a b => Sys2Proof.Machine.execRemu g d a b s
  | .and g d a b => Sys2Proof.Machine.execAnd g d a b s
  | .or g d a b => Sys2Proof.Machine.execOr g d a b s
  | .xor g d a b => Sys2Proof.Machine.execXor g d a b s
  | .andi g d a imm => Sys2Proof.Machine.execAndi g d a imm s
  | .ori g d a imm => Sys2Proof.Machine.execOri g d a imm s
  | .xori g d a imm => Sys2Proof.Machine.execXori g d a imm s
  | .shl g d a b => Sys2Proof.Machine.execShl g d a b s
  | .shr g d a b => Sys2Proof.Machine.execShr g d a b s
  | .sar g d a b => Sys2Proof.Machine.execSar g d a b s
  | .shli g d a cnt => Sys2Proof.Machine.execShli g d a cnt s
  | .shri g d a cnt => Sys2Proof.Machine.execShri g d a cnt s
  | .sari g d a cnt => Sys2Proof.Machine.execSari g d a cnt s
  | .min g d a b => Sys2Proof.Machine.execMin g d a b s
  | .max g d a b => Sys2Proof.Machine.execMax g d a b s
  | .minu g d a b => Sys2Proof.Machine.execMinu g d a b s
  | .maxu g d a b => Sys2Proof.Machine.execMaxu g d a b s
  | .clz g d a => Sys2Proof.Machine.execClz g d a s
  | .popc g d a => Sys2Proof.Machine.execPopc g d a s
  | .movi g d imm => Sys2Proof.Machine.execMovi g d imm s
  | .movk g d imm hw => Sys2Proof.Machine.execMovk g d imm hw s
  | .sel g d pc a b => Sys2Proof.Machine.execSel g d pc a b s
  | .ceq g pd a b => Sys2Proof.Machine.execCeq g pd a b s
  | .cne g pd a b => Sys2Proof.Machine.execCne g pd a b s
  | .clt g pd a b => Sys2Proof.Machine.execClt g pd a b s
  | .cle g pd a b => Sys2Proof.Machine.execCle g pd a b s
  | .cltu g pd a b => Sys2Proof.Machine.execCltu g pd a b s
  | .cleu g pd a b => Sys2Proof.Machine.execCleu g pd a b s
  | .ceqi g pd a imm => Sys2Proof.Machine.execCeqi g pd a imm s
  | .clti g pd a imm => Sys2Proof.Machine.execClti g pd a imm s
  | .pand g pd pa pb => Sys2Proof.Machine.execPand g pd pa pb s
  | .por g pd pa pb => Sys2Proof.Machine.execPor g pd pa pb s
  | .pxor g pd pa pb => Sys2Proof.Machine.execPxor g pd pa pb s
  | .pnot g pd pa => Sys2Proof.Machine.execPnot g pd pa s
  | .pset g pd n => Sys2Proof.Machine.execPset g pd n s
  | .pany g pd pa => Sys2Proof.Machine.execPany g pd pa s
  | .ext g d a fpos len => Sys2Proof.Machine.execExt g d a fpos len s
  | .extS g d a fpos len => Sys2Proof.Machine.execExtS g d a fpos len s
  | .ins g d a fpos len => Sys2Proof.Machine.execIns g d a fpos len s
  | .adda g ad aa b => Sys2Proof.Machine.execAdda g ad aa b s
  | .addai g ad aa imm => Sys2Proof.Machine.execAddai g ad aa imm s
  | .mova g ad a => Sys2Proof.Machine.execMova g ad a s
  | .movah g ad a => Sys2Proof.Machine.execMovah g ad a s
  | .rda g d aa => Sys2Proof.Machine.execRda g d aa s
  | .rdah g d aa => Sys2Proof.Machine.execRdah g d aa s
  | .ceqa g pd aa ab => Sys2Proof.Machine.execCeqa g pd aa ab s
  | .suba g d aa ab => Sys2Proof.Machine.execSuba g d aa ab s
  | .qrd g d n w => Sys2Proof.Machine.execQrd g d n w s
  | .br g off => Sys2Proof.Machine.execBr g off s
  | .jmp g a => Sys2Proof.Machine.execJmp g a s
  | .call g off => Sys2Proof.Machine.execCall g off s
  | .calli g a => Sys2Proof.Machine.execCalli g a s
  | .ret g => Sys2Proof.Machine.execRet g s
  | .loop g off => Sys2Proof.Machine.execLoop g off s
  | .spec g imm => Sys2Proof.Machine.execSpec g imm s
  | .spok g pa => Sys2Proof.Machine.execSpok g pa s
  | .waits g n t => Sys2Proof.Machine.execWaits g n t s
  | .sigs g n inc => Sys2Proof.Machine.execSigs g n inc s
  | .semset g a n => Sys2Proof.Machine.execSemset g a n s
  | .semrd g d n => Sys2Proof.Machine.execSemrd g d n s
  | .retire g => Sys2Proof.Machine.execRetire g s
  | .retireFail g cause => Sys2Proof.Machine.execRetireFail g cause s
  | .retireRequeue g => Sys2Proof.Machine.execRetireRequeue g s
  | .rest g => Sys2Proof.Machine.execRest g s
  | .yield g => Sys2Proof.Machine.execYield g s
  | .trap g imm => Sys2Proof.Machine.execTrap g imm s
  | .uiret g => Sys2Proof.Machine.execUiret g s
  | .phase g a => Sys2Proof.Machine.execPhase g a s
  | .ldB g d aa imm => Sys2Proof.Machine.execLdB g d aa imm s
  | .ldBu g d aa imm => Sys2Proof.Machine.execLdBu g d aa imm s
  | .ldH g d aa imm => Sys2Proof.Machine.execLdH g d aa imm s
  | .ldHu g d aa imm => Sys2Proof.Machine.execLdHu g d aa imm s
  | .ldW g d aa imm => Sys2Proof.Machine.execLdW g d aa imm s
  | .ldWu g d aa imm => Sys2Proof.Machine.execLdWu g d aa imm s
  | .ldD g d aa imm => Sys2Proof.Machine.execLdD g d aa imm s
  | .stB g aa b imm => Sys2Proof.Machine.execStB g aa b imm s
  | .stH g aa b imm => Sys2Proof.Machine.execStH g aa b imm s
  | .stW g aa b imm => Sys2Proof.Machine.execStW g aa b imm s
  | .stD g aa b imm => Sys2Proof.Machine.execStD g aa b imm s
  | .ldaD g d aa scope off => Sys2Proof.Machine.execLdaD g d aa scope off s
  | .stlD g aa b scope off => Sys2Proof.Machine.execStlD g aa b scope off s
  | .ldscD g d aa off => Sys2Proof.Machine.execLdscD g d aa off s
  | .stscD g aa b off => Sys2Proof.Machine.execStscD g aa b off s
  | .pref g aa imm => Sys2Proof.Machine.execPref g aa imm s
  | .ldsW g d a imm => Sys2Proof.Machine.execLdsW g d a imm s
  | .ldsD g d a imm => Sys2Proof.Machine.execLdsD g d a imm s
  | .stsW g a b imm => Sys2Proof.Machine.execStsW g a b imm s
  | .stsD g a b imm => Sys2Proof.Machine.execStsD g a b imm s
  | .aadd g d aa b ord scope off => Sys2Proof.Machine.execAadd g d aa b ord scope off s
  | .aand g d aa b ord scope off => Sys2Proof.Machine.execAand g d aa b ord scope off s
  | .aor g d aa b ord scope off => Sys2Proof.Machine.execAor g d aa b ord scope off s
  | .axor g d aa b ord scope off => Sys2Proof.Machine.execAxor g d aa b ord scope off s
  | .amin g d aa b ord scope off => Sys2Proof.Machine.execAmin g d aa b ord scope off s
  | .amax g d aa b ord scope off => Sys2Proof.Machine.execAmax g d aa b ord scope off s
  | .axchg g d aa b ord scope off => Sys2Proof.Machine.execAxchg g d aa b ord scope off s
  | .acas g d aa b ord scope off => Sys2Proof.Machine.execAcas g d aa b ord scope off s
  | .fence g ord scope => Sys2Proof.Machine.execFence g ord scope s
  | .lsmark g => Sys2Proof.Machine.execLsmark g s
  | .efence g => Sys2Proof.Machine.execEfence g s
  | .qbind g n aa => Sys2Proof.Machine.execQbind g n aa s
  | .qunb g n => Sys2Proof.Machine.execQunb g n s
  | .enq g aa b => Sys2Proof.Machine.execEnq g aa b s
  | .deq g d aa => Sys2Proof.Machine.execDeq g d aa s
  | .enqt g aa b => Sys2Proof.Machine.execEnqt g aa b s
  | .deqt g d aa b => Sys2Proof.Machine.execDeqt g d aa b s
  | .qinit g aa ab logCap esz md => Sys2Proof.Machine.execQinit g aa ab logCap esz md s
  | .join g aa => Sys2Proof.Machine.execJoin g aa s
  | .leave g aa => Sys2Proof.Machine.execLeave g aa s
  | .gbar g aa => Sys2Proof.Machine.execGbar g aa s
  | .gcount g d aa => Sys2Proof.Machine.execGcount g d aa s
  | .spawn g aa => Sys2Proof.Machine.execSpawn g aa s
  | .jdec g aa => Sys2Proof.Machine.execJdec g aa s
  | .cdset g n a off sz => Sys2Proof.Machine.execCdset g n a off sz s
  | .cdadr g n aa off => Sys2Proof.Machine.execCdadr g n aa off s
  | .cdrd g d n off sz => Sys2Proof.Machine.execCdrd g d n off sz s
  | .cdld g n aa imm => Sys2Proof.Machine.execCdld g n aa imm s
  | .tcfg g t a => Sys2Proof.Machine.execTcfg g t a s
  | .trd g d t => Sys2Proof.Machine.execTrd g d t s
  | .csrr g d idx => Sys2Proof.Machine.execCsrr g d idx s
  | .csrw g a idx => Sys2Proof.Machine.execCsrw g a idx s
  | .eret g => Sys2Proof.Machine.execEret g s
  | .swap g n => Sys2Proof.Machine.execSwap g n s
  | .tlbinvPage g aa b pkg => Sys2Proof.Machine.execTlbinvPage g aa b pkg s
  | .tlbinvCtx g b pkg => Sys2Proof.Machine.execTlbinvCtx g b pkg s
  | .tlbinvAll g pkg => Sys2Proof.Machine.execTlbinvAll g pkg s
  | .jbegin g d => Sys2Proof.Machine.execJbegin g d s
  | .jwrite g a b => Sys2Proof.Machine.execJwrite g a b s
  | .jcommit g => Sys2Proof.Machine.execJcommit g s
  | .jabort g => Sys2Proof.Machine.execJabort g s
  | .jverifyCrc g d a b => Sys2Proof.Machine.execJverifyCrc g d a b s
  | .jverifyWear g d a => Sys2Proof.Machine.execJverifyWear g d a s
  | .jverifyStatus g d => Sys2Proof.Machine.execJverifyStatus g d s
  | .wake g a => Sys2Proof.Machine.execWake g a s
  | .scrubrRange g d aa b n => Sys2Proof.Machine.execScrubrRange g d aa b n s
  | .scrubrSecded g d n => Sys2Proof.Machine.execScrubrSecded g d n s
  | .scrubrDected g d n => Sys2Proof.Machine.execScrubrDected g d n s
  | .lgwait g d => Sys2Proof.Machine.execLgwait g d s
  | .vnop => Sys2Proof.Machine.execVnop s
  | .vadd g ty m vd va vb => Sys2Proof.Machine.execVadd g ty m vd va vb s
  | .vsub g ty m vd va vb => Sys2Proof.Machine.execVsub g ty m vd va vb s
  | .vmul g ty m vd va vb => Sys2Proof.Machine.execVmul g ty m vd va vb s
  | .vmulHi g ty vd va vb => Sys2Proof.Machine.execVmulHi g ty vd va vb s
  | .vfma g ty m vd va vb vc => Sys2Proof.Machine.execVfma g ty m vd va vb vc s
  | .vfms g ty m vd va vb vc => Sys2Proof.Machine.execVfms g ty m vd va vb vc s
  | .vmin g ty m vd va vb => Sys2Proof.Machine.execVmin g ty m vd va vb s
  | .vmax g ty m vd va vb => Sys2Proof.Machine.execVmax g ty m vd va vb s
  | .vabs g ty vd va => Sys2Proof.Machine.execVabs g ty vd va s
  | .vneg g ty vd va => Sys2Proof.Machine.execVneg g ty vd va s
  | .vdiv g ty m vd va vb => Sys2Proof.Machine.execVdiv g ty m vd va vb s
  | .vsqrt g ty m vd va => Sys2Proof.Machine.execVsqrt g ty m vd va s
  | .vrcp g ty m vd va => Sys2Proof.Machine.execVrcp g ty m vd va s
  | .vrsq g ty m vd va => Sys2Proof.Machine.execVrsq g ty m vd va s
  | .vexp2 g ty m vd va => Sys2Proof.Machine.execVexp2 g ty m vd va s
  | .vlog2 g ty m vd va => Sys2Proof.Machine.execVlog2 g ty m vd va s
  | .vadds g ty vd va vb => Sys2Proof.Machine.execVadds g ty vd va vb s
  | .vsubs g ty vd va vb => Sys2Proof.Machine.execVsubs g ty vd va vb s
  | .vand g ty vd va vb => Sys2Proof.Machine.execVand g ty vd va vb s
  | .vor g ty vd va vb => Sys2Proof.Machine.execVor g ty vd va vb s
  | .vxor g ty vd va vb => Sys2Proof.Machine.execVxor g ty vd va vb s
  | .vnot g ty vd va => Sys2Proof.Machine.execVnot g ty vd va s
  | .vshl g ty vd va cnt => Sys2Proof.Machine.execVshl g ty vd va cnt s
  | .vshr g ty vd va cnt => Sys2Proof.Machine.execVshr g ty vd va cnt s
  | .vsar g ty vd va cnt => Sys2Proof.Machine.execVsar g ty vd va cnt s
  | .vceq g ty pd va vb => Sys2Proof.Machine.execVceq g ty pd va vb s
  | .vclt g ty pd va vb => Sys2Proof.Machine.execVclt g ty pd va vb s
  | .vcle g ty pd va vb => Sys2Proof.Machine.execVcle g ty pd va vb s
  | .vcne g ty pd va vb => Sys2Proof.Machine.execVcne g ty pd va vb s
  | .vsel g ty vd pc va vb => Sys2Proof.Machine.execVsel g ty vd pc va vb s
  | .vmov g ty vd va => Sys2Proof.Machine.execVmov g ty vd va s
  | .vbcast g ty vd a => Sys2Proof.Machine.execVbcast g ty vd a s
  | .viota g ty m vd a => Sys2Proof.Machine.execViota g ty m vd a s
  | .vredadd g ty m vd va => Sys2Proof.Machine.execVredadd g ty m vd va s
  | .vredmax g ty vd va => Sys2Proof.Machine.execVredmax g ty vd va s
  | .vredmin g ty vd va => Sys2Proof.Machine.execVredmin g ty vd va s
  | .vperm g ty vd va vb => Sys2Proof.Machine.execVperm g ty vd va vb s
  | .vshuf g ty vd va vb vc => Sys2Proof.Machine.execVshuf g ty vd va vb vc s
  | .vrot g ty vd va j => Sys2Proof.Machine.execVrot g ty vd va j s
  | .vcvt g ty m vd va src part gapx => Sys2Proof.Machine.execVcvt g ty m vd va src part gapx s
  | .vld g ty vd a off => Sys2Proof.Machine.execVld g ty vd a off s
  | .vst g ty vd a off => Sys2Proof.Machine.execVst g ty vd a off s
  | .vgath g ty vd a off => Sys2Proof.Machine.execVgath g ty vd a off s
  | .vscat g ty vd a off => Sys2Proof.Machine.execVscat g ty vd a off s
  | .vlds g ty vd a off => Sys2Proof.Machine.execVlds g ty vd a off s
  | .vsts g ty vd a off => Sys2Proof.Machine.execVsts g ty vd a off s
  | .vmvs g ty d va j => Sys2Proof.Machine.execVmvs g ty d va j s
  | .vins g ty vd a j => Sys2Proof.Machine.execVins g ty vd a j s
  | .venq g aa vb => Sys2Proof.Machine.execVenq g aa vb s
  | .vqrd g vd n => Sys2Proof.Machine.execVqrd g vd n s
  | .trw g ty t v j => Sys2Proof.Machine.execTrw g ty t v j s
  | .trr g ty t v j => Sys2Proof.Machine.execTrr g ty t v j s
  | .tcw g ty t v j => Sys2Proof.Machine.execTcw g ty t v j s
  | .tcr g ty t v j => Sys2Proof.Machine.execTcr g ty t v j s
  | .tzero g t => Sys2Proof.Machine.execTzero g t s
  | .tmov g t ts => Sys2Proof.Machine.execTmov g t ts s
  | .affset g t va vb j => Sys2Proof.Machine.execAffset g t va vb j s
  | .scan g t k => Sys2Proof.Machine.execScan g t k s
  | .apply g vd t j src => Sys2Proof.Machine.execApply g vd t j src s
  | .kld g k va => Sys2Proof.Machine.execKld g k va s
  | .kst g vd k => Sys2Proof.Machine.execKst g vd k s
  | .mnop => Sys2Proof.Machine.execMnop s
  | .mma t oa ob fmt acc ws wt ss => Sys2Proof.Machine.execMma t oa ob fmt acc ws wt ss s
  | .mrep n sa sb st => Sys2Proof.Machine.execMrep n sa sb st s
  | .lease ss => Sys2Proof.Machine.execLease ss s
  | .unlease => Sys2Proof.Machine.execUnlease s
  | .oclaim oa => Sys2Proof.Machine.execOclaim oa s
  | .orelease oa => Sys2Proof.Machine.execOrelease oa s
  | .ofill ob oa ws wt ss => Sys2Proof.Machine.execOfill ob oa ws wt ss s
  | .xnop => Sys2Proof.Machine.execXnop s
  | .xexp vd va bf => Sys2Proof.Machine.execXexp vd va bf s
  | .xtrn vd va w => Sys2Proof.Machine.execXtrn vd va w s
  | .xcvt vd va pair part => Sys2Proof.Machine.execXcvt vd va pair part s
  | .xhad vd va h => Sys2Proof.Machine.execXhad vd va h s
  | .xqnt vd va f gapx => Sys2Proof.Machine.execXqnt vd va f gapx s
  | .xdqn vd va f => Sys2Proof.Machine.execXdqn vd va f s
  | .cnop => Sys2Proof.Machine.execCnop s
  | .copy cd ws wt ss si cm => Sys2Proof.Machine.execCopy cd ws wt ss si cm s
  | .copyn cd ws wt ss si cm => Sys2Proof.Machine.execCopyn cd ws wt ss si cm s
  | .copyd cd wt ss si cm => Sys2Proof.Machine.execCopyd cd wt ss si cm s
  | .bundleFetch => Sys2Proof.Machine.execBundleFetch s
  | .exposedResultLands => Sys2Proof.Machine.execExposedResultLands s
  | .interlockedDelivery => Sys2Proof.Machine.execInterlockedDelivery s
  | .strandSwitch => Sys2Proof.Machine.execStrandSwitch s
  | .trapEntry => Sys2Proof.Machine.execTrapEntry s
  | .scrupleReplay => Sys2Proof.Machine.execScrupleReplay s
  | .userInterruptEntry => Sys2Proof.Machine.execUserInterruptEntry s
  | .windowShift => Sys2Proof.Machine.execWindowShift s
  | .windowSpill => Sys2Proof.Machine.execWindowSpill s
  | .windowFill => Sys2Proof.Machine.execWindowFill s
  | .bankExchange => Sys2Proof.Machine.execBankExchange s
  | .urgentPreemption => Sys2Proof.Machine.execUrgentPreemption s
  | .vectorGroupBackgroundSave => Sys2Proof.Machine.execVectorGroupBackgroundSave s
  | .vectorGroupExchange => Sys2Proof.Machine.execVectorGroupExchange s
  | .frameExchange => Sys2Proof.Machine.execFrameExchange s
  | .frameBackgroundSave => Sys2Proof.Machine.execFrameBackgroundSave s
  | .eccRewrite => Sys2Proof.Machine.execEccRewrite s
  | .accessPerform => Sys2Proof.Machine.execAccessPerform s
  | .scWheelPerform => Sys2Proof.Machine.execScWheelPerform s
  | .queuePerform => Sys2Proof.Machine.execQueuePerform s
  | .controllerReport => Sys2Proof.Machine.execControllerReport s
  | .latchRefill => Sys2Proof.Machine.execLatchRefill s
  | .reservationTableWaitEnd => Sys2Proof.Machine.execReservationTableWaitEnd s
  | .groupPerform => Sys2Proof.Machine.execGroupPerform s
  | .joinDecrement => Sys2Proof.Machine.execJoinDecrement s
  | .dictReload => Sys2Proof.Machine.execDictReload s
  | .atsInvalidate => Sys2Proof.Machine.execAtsInvalidate s
  | .journalAttempt => Sys2Proof.Machine.execJournalAttempt s
  | .commitPoint => Sys2Proof.Machine.execCommitPoint s
  | .journalApply => Sys2Proof.Machine.execJournalApply s
  | .sweepComplete => Sys2Proof.Machine.execSweepComplete s
  | .scrubStep => Sys2Proof.Machine.execScrubStep s
  | .slotZeroingDone => Sys2Proof.Machine.execSlotZeroingDone s
  | .mQueueStart => Sys2Proof.Machine.execMQueueStart s
  | .oreleaseEffect => Sys2Proof.Machine.execOreleaseEffect s
  | .unleaseEffect => Sys2Proof.Machine.execUnleaseEffect s
  | .mmaRowStream => Sys2Proof.Machine.execMmaRowStream s
  | .mmaComplete => Sys2Proof.Machine.execMmaComplete s
  | .ofillComplete => Sys2Proof.Machine.execOfillComplete s
  | .leaseGrant => Sys2Proof.Machine.execLeaseGrant s
  | .leasePass => Sys2Proof.Machine.execLeasePass s
  | .quantumExpire => Sys2Proof.Machine.execQuantumExpire s
  | .copyStart => Sys2Proof.Machine.execCopyStart s
  | .copyComplete => Sys2Proof.Machine.execCopyComplete s
  | .copyFault => Sys2Proof.Machine.execCopyFault s
  | .translationWalkEnd => Sys2Proof.Machine.execTranslationWalkEnd s
  | .faultEntryWrite => Sys2Proof.Machine.execFaultEntryWrite s
  | .fqresolveRetry => Sys2Proof.Machine.execFqresolveRetry s
  | .fqresolveFail => Sys2Proof.Machine.execFqresolveFail s
  | .fqresolveReject => Sys2Proof.Machine.execFqresolveReject s
  | .faultRelease => Sys2Proof.Machine.execFaultRelease s
  | .cacheLineUe => Sys2Proof.Machine.execCacheLineUe s
  | .recordInsert => Sys2Proof.Machine.execRecordInsert s
  | .recordPop => Sys2Proof.Machine.execRecordPop s
  | .furlongStart => Sys2Proof.Machine.execFurlongStart s
  | .phaseOverrun => Sys2Proof.Machine.execPhaseOverrun s
  | .heldLogWrite => Sys2Proof.Machine.execHeldLogWrite s
  | .clusterOff => Sys2Proof.Machine.execClusterOff s
  | .clusterWake => Sys2Proof.Machine.execClusterWake s
  | .supplyRampDone => Sys2Proof.Machine.execSupplyRampDone s
  | .sramClearDone => Sys2Proof.Machine.execSramClearDone s
  | .journalRecovery => Sys2Proof.Machine.execJournalRecovery s
  | .nvSnapshot => Sys2Proof.Machine.execNvSnapshot s
  | .powerLoss => Sys2Proof.Machine.execPowerLoss s
  | .packageReset => Sys2Proof.Machine.execPackageReset s
  | .dieAuthenticate => Sys2Proof.Machine.execDieAuthenticate s
  | .getVersion => Sys2Proof.Machine.execGetVersion s
  | .getCapabilities => Sys2Proof.Machine.execGetCapabilities s
  | .negotiateAlgorithms => Sys2Proof.Machine.execNegotiateAlgorithms s
  | .getDigests => Sys2Proof.Machine.execGetDigests s
  | .getCertificate => Sys2Proof.Machine.execGetCertificate s
  | .challenge => Sys2Proof.Machine.execChallenge s
  | .getMeasurements => Sys2Proof.Machine.execGetMeasurements s
  | .configLocked => Sys2Proof.Machine.execConfigLocked s
  | .run => Sys2Proof.Machine.execRun s
  | .tdispExit => Sys2Proof.Machine.execTdispExit s
  | .ctxassign => Sys2Proof.Machine.execCtxassign s
  | .ctxload => Sys2Proof.Machine.execCtxload s
  | .ctxkill => Sys2Proof.Machine.execCtxkill s
  | .pageout => Sys2Proof.Machine.execPageout s
  | .pagein => Sys2Proof.Machine.execPagein s
  | .worldfree => Sys2Proof.Machine.execWorldfree s
  | .resync => Sys2Proof.Machine.execResync s
  | .lglaunch => Sys2Proof.Machine.execLglaunch s
  | .notify => Sys2Proof.Machine.execNotify s
  | .firewallWrite => Sys2Proof.Machine.execFirewallWrite s
  | .pcapWrite => Sys2Proof.Machine.execPcapWrite s
  | .floorWrite => Sys2Proof.Machine.execFloorWrite s
  | .freqreqWrite => Sys2Proof.Machine.execFreqreqWrite s
  | .energyLoRead => Sys2Proof.Machine.execEnergyLoRead s
  | .energyHiRead => Sys2Proof.Machine.execEnergyHiRead s
  | .unfence => Sys2Proof.Machine.execUnfence s
  | .registerWrite => Sys2Proof.Machine.execRegisterWrite s
  | .dramSensorSample => Sys2Proof.Machine.execDramSensorSample s
  | .bankRefreshStart => Sys2Proof.Machine.execBankRefreshStart s
  | .bankRefreshEnd => Sys2Proof.Machine.execBankRefreshEnd s
  | .thermalStep => Sys2Proof.Machine.execThermalStep s
  | .powerManagerPeriod => Sys2Proof.Machine.execPowerManagerPeriod s
  | .remoteResponse => Sys2Proof.Machine.execRemoteResponse s
  | .incomingPeerRequest => Sys2Proof.Machine.execIncomingPeerRequest s
  | .unsupportedUalinkMessage => Sys2Proof.Machine.execUnsupportedUalinkMessage s
  | .peerBudgetRelease => Sys2Proof.Machine.execPeerBudgetRelease s
  | .peerTimeout => Sys2Proof.Machine.execPeerTimeout s
  | .leaguePreempt => Sys2Proof.Machine.execLeaguePreempt s
  | .leagueStart => Sys2Proof.Machine.execLeagueStart s
  | .leagueStartMessage => Sys2Proof.Machine.execLeagueStartMessage s
  | .leagueArriveMessage => Sys2Proof.Machine.execLeagueArriveMessage s
  | .leagueAbortMessage => Sys2Proof.Machine.execLeagueAbortMessage s
  | .leagueGraceExpire => Sys2Proof.Machine.execLeagueGraceExpire s
  | .leagueRelaunch => Sys2Proof.Machine.execLeagueRelaunch s
  | .hostRequest => Sys2Proof.Machine.execHostRequest s
  | .energyCounterWrap => Sys2Proof.Machine.execEnergyCounterWrap s
  | .rampAllowanceReached => Sys2Proof.Machine.execRampAllowanceReached s

end Sys2Proof.Machine
end

