-- ==== Sys2Proof/Machine/Step.lean ====
section
/-!
DEFINITION. One step of the package: the next event of the present clk, and with a bundle that a core has fetched the issue of that bundle;
or, where the clk has no event left, the passage to the next clk. `withFetchWord` places one instruction where the next step fetches.
-/

namespace Sys2Proof.Machine

/-- Run an event of the agenda (its head has been taken off): its meaning, then the bundle that it has fetched, if any. -/
def State.runEvent (s : State) (i : Instr) (e : EvArgs) : Host.Outcome State Fault Refusal :=
  if e.wf then
    match exec i { s with ev := e, fetched := none } with
    | .next t =>
      match t.fetched with
      | some f => t.runBundle exec f
      | none => .next t
    | o => o
  else .fault .noSuchPart

def step (s : State) : Host.Outcome State Fault Refusal :=
  match s.agenda with
  | [] => .next s.nextClk
  | (i, e) :: rest => ({ s with agenda := rest }).runEvent i e

/-- The slot word of a row of the table: the slot class is that of its decoder. -/
def tableSlot (nbits w : Nat) : SlotWord :=
  if nbits = 32 then .x (BitVec.ofNat 32 w)
  else if nbits = 64 then .v (BitVec.ofNat 64 w)
  else .s (match decodeS false (BitVec.ofNat 48 w) with | .ok _ => false | .error _ => true) (BitVec.ofNat 48 w)

/-- Where the placed instruction is fetched from: code address 0x1000, in the DRAM region of die 0. -/
def fetchPc : Word := 0x1000
def fetchPa : Nat := 0x1000001000
/-- The translation of the code page. -/
def fetchEntry : TlbEntry :=
  { ctx := 0, page := 1, log := 12, pa := fetchPa, r := true, w := false, x := true, u := true, d := false, fwR := true,
    fwW := false, peer := none }

/-- A strand in position 0 of core 0 that stands before the bundle `v`, its only dictionary entry: what the boot of die 0, the wake of
cluster 0 and the pop of a record with VREGS = 2,048 come to (log 44). -/
def fetchBank (b : Bank) (v : Bundle) : Bank :=
  { ((b.clearTask.putCsr 0x016 1).putCsr 0x011 2048) with
    task := some { uid := 1, va := 0, pa := 0, ctx := 0, prio := 0, cost := 0, flags := 0, vregs := 2048 }, pc := fetchPc, dict := [v] }

def State.withFetchWord (s : State) (nbits w : Nat) : State :=
  let s := s.modDie 0 fun d => { d with state := .released, retired := [], sweeps := [] }
  let s := s.modCluster 0 fun k => { k with power := .on }
  let s := s.modCore 0 fun x =>
    { (x.setBank 0 (fetchBank (x.bank 0) (bundleOf (tableSlot nbits w)))) with
        tlb := fetchEntry :: x.tlb, issue := {}, groupMoves := [],
        vtag := (List.range 256).map (fun g => (g, { uid := some 1 })) }
  let s := s.putMem fetchPa [0, 0]
  { s with poison := s.poison.filter (fun l => l != fetchPa / 128), ueMem := s.ueMem.filter (fun u => u != fetchPa / 8),
           agenda := [(.bundleFetch, { core := 0 }), (.exposedResultLands, { core := 0, pos := 0 })], fetched := none }

end Sys2Proof.Machine
end

