-- ==== Sys2Proof/Safety.lean ====
section
/-!
DEFINITION. What claims mean by a safe run, by an unchanged part of the machine, by a strand that can issue, and by where an
instruction stands.
-/

namespace Sys2Proof.Machine

/-- One byte of physical memory: the read that frames speak of. -/
def State.byteAt (s : State) (pa : Nat) : Byte := mapGet (fun _ => (0 : Byte)) s.mem pa

/-- A meaning or a step that answers a next state. -/
def Runs (o : Host.Outcome State Fault Refusal) : Prop := ∃ t, o = .next t

/-- The invariant of memory: its canonical form. -/
def State.MemOk (s : State) : Prop := Memory.wf s.mem = true

/-- The transfers whose guard, when false, still makes the bundles after them delay bundles (R42, R73). -/
def isTransfer (i : Instr) : Bool := match i with | .br _ _ | .jmp _ _ | .call _ _ | .calli _ _ | .ret _ => true | _ => false

/-- The slot of the bundle that `bundleOf` gives an instruction: CAUSE.SLOT numbers (R25). -/
def slotOf (w : SlotWord) : Nat :=
  match w with
  | .s false _ => 0
  | .s true _ => 1
  | .v _ => 2
  | .m _ => 4
  | .x _ => 5
  | .c _ => 6

/-- A strand that may act where it stands: no transfer owed (R73), no open region (R86), no user-interrupt handler (R97), no guard
(R298). -/
structure Bank.Plain (b : Bank) : Prop where
  owed : b.owed = none
  spec : b.spec = none
  speca : b.inSpec = false
  inui : b.inui = false
  grd : b.guarded = false

/-- The acting strand of a state that may act where it stands. -/
abbrev State.Plain (s : State) : Prop := s.bk.Plain

/-- Nothing keeps the strand that holds the issue unit of core `c` from its next bundle: the cluster is On, no hold lies on the core, the
strand is not stopped, waits for nothing, and has no trap, report or interrupt to take (R90, R97, R232); no strand of the core records or
replays (R309, R310). -/
structure State.CanIssue (s : State) (c : Nat) : Prop where
  core : c < 256
  power : (s.cluster (clusterOf c)).power = .on
  hold : (s.core c).issue.hold ≤ s.clk
  yielded : (s.core c).issue.yielded = false
  record : ∀ p, (s.bank c p).status 7 = false
  replay : ∀ p t, (s.bank c p).task = some t → t.replay = false
  failed : (s.bank c (s.core c).issue.pos).hasFailed = false
  running : s.stopped c (s.core c).issue.pos = false
  entry : (s.bank c (s.core c).issue.pos).entry = none
  async : (s.bank c (s.core c).issue.pos).async = []
  interrupt : (s.bank c (s.core c).issue.pos).uiDue = false
  reported : (s.bank c (s.core c).issue.pos).reported = false
  wait : (s.bank c (s.core c).issue.pos).wait = none
  dict : (s.bank c (s.core c).issue.pos).dictErr = none

/-- The strand that holds the issue unit of core `c`, about to fetch. -/
def State.atStrand (s : State) (c : Nat) : State :=
  let p := (s.core c).issue.pos
  { s with ev := { core := c }, fetched := none,
           cur := { core := c, pos := p, slot := 7, pc := (s.bank c p).pc, next := (s.bank c p).pc } }

/-- The acting strand, with the address of the bundle after the one it is about to issue. -/
def State.withNext (s : State) (next : Word) : State := { s with cur := { s.cur with next := next } }

/-- The bundle `v` stands at the strand's pc and `next` follows it (R44): the unit at pc is an index below DLEN that names `v` in the
dictionary, or the escape, after which 24 units hold `v`, and the idle clk of R49 has passed. Reading them leaves the state `s'` (the
shared cache counts the lines, R223). -/
def State.BundleAt (s : State) (v : Bundle) (next : Word) (s' : State) : Prop :=
  ∃ u s1, s.codeAt s.cur.pc 2 = (s1, .bytes u) ∧
    ((natOfBytes u < (s.bk.csrAt 0x016).toNat ∧ s.bk.dict[natOfBytes u]? = some v ∧ next = s.cur.pc + 2 ∧ s' = s1) ∨
      ((s.bk.csrAt 0x016).toNat ≤ natOfBytes u ∧ natOfBytes u = 0xFFFF ∧ s.bk.idle = some s.cur.pc ∧ next = s.cur.pc + 50 ∧
        ∃ w, s1.codeUnits 24 (s.cur.pc + 2) = (s', .bytes w) ∧ v = BitVec.ofNat 384 (natOfBytes w)))

/-- The slot `k` of the bundle acts. -/
def State.inSlot (s : State) (k : Nat) : State := { s with cur := { s.cur with slot := k }, mark := .done }

/-- Address `ea` is in range and aligned, and its translation for `size` bytes of access `kind` is at hand: physical address `pa` of local
memory that is neither a slab nor MMIO (R221, R229, R230). -/
structure State.Reaches (s : State) (ea : Int) (align size kind pa : Nat) : Prop where
  low : 0 ≤ ea
  high : ea < 2 ^ 80
  aligned : ea % (align : Int) = 0
  found : s.translate (BitVec.ofInt 80 ea) (needOf kind size) (!s.bk.priv) = .at_ pa none
  mmio : isMmio pa = false
  slab : isSlab pa = false

/-- An operation joins the queues of the acting strand: it takes the next number, and its destination becomes pending (R18, R238). -/
def State.joins (s : State) (a : Acc) : State :=
  s.modBk fun b => { b with
    accs := b.accs ++ [{ a with id := b.nextId, order := s.order, slot := s.cur.slot, user := !b.priv }],
    nextId := b.nextId + 1,
    pend := match a.dest with | some r => b.pend ++ [r] | none => b.pend }

/-- Vector register `n` of the acting strand can be used: it lies in the window (R92), its group needs no exchange (R95, R328), and none of
its words is uncorrectable (R101). -/
structure State.VFree (s : State) (n : Nat) : Prop where
  legal : s.bk.vok n = true
  here : s.groupAway s.cur.core s.bk.uid (s.bk.vphys n / 8) = false
  good : s.cr.vbad (s.bk.vphys n) (BitVec.allOnes 2048) = false

/-- Tile `t` of the acting strand can be used: it is granted, its shape is valid, no command of the array names it or its frame, the frame
holds the context's bytes and no exchange takes it, and none of its words is uncorrectable (R92, R165-R168, R172). -/
structure State.TFree (s : State) (t : Nat) : Prop where
  legal : s.bk.tileOk t = true
  valid : shValid (s.bk.tshape t) = true
  idle : s.cr.frameBusy (shFrame (s.bk.tshape t)) = false
  named : s.cr.tileNamed s.bk.uid t = false
  owned : s.cr.mayUse (shFrame (s.bk.tshape t)) s.bk.ctx = true
  good : ∀ off n, s.cr.accumBad off n = none

/-- Access `a` of the bank at `p` of core `c` is the one numbered `id`, and stands in its queue with nothing before it to hold it, and no refresh does (R212). -/
structure State.CanPerform (s : State) (c p id : Nat) (a : Acc) : Prop where
  core : s.ev.core = c
  pos : s.ev.pos = p
  num : s.ev.id = id
  found : (s.bank c p).acc? id = some a
  queued : a.st = .queued
  notSc : a.sc = false
  free : (s.bank c p).mayPerform a = true
  here : a.peer = none
  mmio : a.mmio = false
  slab : isSlab a.pa = false
  refresh : s.refreshing a.pa = false

end Sys2Proof.Machine
end

