-- ==== Sys2Proof/Certificates/Slice0/Obligations.lean ====
section
/-!
DEFINITION. The statements for the provers: one `Obligations.<Name>` for each entry of OBLIGATIONS.json.
-/

open Sys2Proof Sys2Proof.Machine

/-! ### Encoding -/

/-- Decode and encode agree (R36-R41, R50-R53): every well-formed instruction, with every operand at every value, is read back from its
word. -/
def Obligations.DecodeInvertsEncode : Prop :=
  ∀ (i : Instr) (w : SlotWord), i.wf = true → encode i = some w → decode w = .ok i

/-- Every field combination that the decoder admits, other than a no-op, is the encoding of the instruction it reads, and that
instruction is well-formed: no bit is dropped, and none that must be zero is passed over (R9, R36-R41, R50-R53, R60). -/
def Obligations.DecodedFieldsAreTheEncoding : Prop :=
  (∀ s1 f i, decodeSFields s1 f = some i → isNoop i = false → i.wf = true ∧ encodeSFields i = some f) ∧
  (∀ f i, decodeVFields f = some i → isNoop i = false → i.wf = true ∧ encodeVFields i = some f) ∧
  (∀ f i, decodeMFields f = some i → isNoop i = false → i.wf = true ∧ encodeMFields i = some f) ∧
  (∀ f i, decodeXFields f = some i → isNoop i = false → i.wf = true ∧ encodeXFields i = some f) ∧
  (∀ f i, decodeCFields f = some i → isNoop i = false → i.wf = true ∧ encodeCFields i = some f)

/-- Words written out from the encodings of the spec (R36-R41, R50-R53, and each instruction's own rule). -/
def Obligations.WordsDecodeAsWritten : Prop :=
  -- ADD s3, s4, s5 | LD.D s9, [a2, -8] | CSRR s1, 0x050
  decodeS false 0x0100620A0000 = .ok (.add .always 3 4 5) ∧
  decodeS true 0x66012101FFF8 = .ok (.ldD .always 9 2 (-8)) ∧
  decodeS false 0xA00020000050 = .ok (.csrr .always 1 0x050) ∧
  -- VADD.F32 v1, v2, v3 | TRW.F32 t1, v2, 3 | MMA t1, o2, o3 | XTRN (32 x 2) | COPY cd1
  decodeV 0x01A0020080180000 = .ok (.vadd .always 10 0 1 2 3) ∧
  decodeV 0x32A0000080180100 = .ok (.trw .always 10 1 2 (.imm 3)) ∧
  decodeM 0x04420D800000 = .ok (.mma 1 2 3 6 0 0 0 0) ∧
  decodeX 0x08008021 = .ok (.xtrn 1 2 1) ∧
  decodeC 0x042000000000 = .ok (.copy 1 0 0 0 0 0)

/-- The fields of a bundle stand where R30 puts them, and its 48 bytes are stored with bits [7:0] first. The bundle that holds one
instruction decodes to that instruction in the slot that takes it, and to nothing else (R30, R31, R35). -/
def Obligations.BundleLayout : Prop :=
  ((∀ (h : BitVec 32) (s0 s1 : BitVec 48) (v0 v1 : BitVec 64) (m : BitVec 48) (x : BitVec 32) (c : BitVec 48),
     let b := packBundle h s0 s1 v0 v1 m x c
     slotHeader b = h ∧ slotS0 b = s0 ∧ slotS1 b = s1 ∧ slotV0 b = v0 ∧ slotV1 b = v1 ∧ slotM b = m ∧ slotX b = x ∧ slotC b = c) ∧
   (∀ (w : List Byte) (k : Nat) (x : Byte), w.length = 48 → w[k]? = some x →
     (BitVec.ofNat 384 (natOfBytes w)).extractLsb' (8 * k) 8 = x)) ∧
  (∀ (s : State) (i : Instr) (w : SlotWord), i.wf = true → encode i = some w → isNoop i = false →
     s.decodeBundle (bundleOf w) = .ok { pop := 0, crit := 0, gap := 0, slots := [(slotOf w, i)], bad := none })

/-- R31: header bits [7:0] must be zero, otherwise ILLEGAL_BUNDLE (cause 0x03); POP is [31:16], CRIT [15:12], GAP [11:8]. A CRIT bit
stands in the fetched bundle only where the header marks its slot. -/
def Obligations.HeaderFields : Prop :=
  ∀ (s : State) (v : Bundle),
    ((slotHeader v).extractLsb' 0 8 ≠ 0 →
      s.decodeBundle v = .error { code := 0x03, info := (slotHeader v).setWidth 64, slot := 7, decode := true }) ∧
    ((slotHeader v).extractLsb' 0 8 = 0 → ∃ f, s.decodeBundle v = .ok f ∧ f.pop = (slotHeader v).extractLsb' 16 16 ∧
      f.gap = (slotHeader v).extractLsb' 8 4 ∧
      ∀ k, k < 4 → f.crit.getLsbD (3 - k) = true → (slotHeader v).getLsbD (15 - k) = true)

/-- R35: opcode 0 in any slot is that slot's no-op, whatever its other bits hold, and a no-op has no effect. -/
def Obligations.NoOpsDoNothing : Prop :=
  (∀ (s1 : Bool) (w : BitVec 48), w.extractLsb' 40 8 = 0 → decodeS s1 w = .ok .nop) ∧
  (∀ w : BitVec 64, w.extractLsb' 56 8 = 0 → decodeV w = .ok .vnop) ∧
  (∀ w : BitVec 48, w.extractLsb' 42 6 = 0 → decodeM w = .ok .mnop) ∧
  (∀ w : BitVec 32, w.extractLsb' 26 6 = 0 → decodeX w = .ok .xnop) ∧
  (∀ w : BitVec 48, w.extractLsb' 42 6 = 0 → decodeC w = .ok .cnop) ∧
  (∀ s : State, exec .nop s = .next s ∧ exec .vnop s = .next s ∧ exec .mnop s = .next s ∧ exec .xnop s = .next s ∧
    exec .cnop s = .next s)

/-- The opcodes that raise ILLEGAL_OPCODE by their place in the grids (R50, R52, R53): a scalar opcode in the slot where it is not
valid, and every unassigned value. -/
def Obligations.MisplacedOpcodesAreRejected : Prop :=
  (∀ (s1 : Bool) (w : BitVec 48),
    let op := (w.extractLsb' 40 8).toNat
    (s1 = true ∧ (op / 16 = 4 ∨ op / 16 = 5 ∨ op / 16 = 0xA)) ∨ (s1 = false ∧ (6 ≤ op / 16 ∧ op / 16 ≤ 9)) ∨
      (0x39 ≤ op ∧ op ≤ 0x3F) ∨ (0x52 ≤ op ∧ op ≤ 0x5F) ∨ op = 0x7F ∨ op = 0x87 ∨ op = 0x8E ∨ op = 0x8F ∨
      (0x96 ≤ op ∧ op ≤ 0x9F) ∨ 0xAD ≤ op →
    decodeS s1 w = .error (.illegalOpcode (w.extractLsb' 40 8))) ∧
  (∀ w : BitVec 64, 0x3D ≤ (w.extractLsb' 56 8).toNat → decodeV w = .error (.illegalOpcode (w.extractLsb' 56 8))) ∧
  (∀ w : BitVec 48, 8 ≤ (w.extractLsb' 42 6).toNat → decodeM w = .error (.illegalOpcode ((w.extractLsb' 42 6).setWidth 8))) ∧
  (∀ w : BitVec 32, 7 ≤ (w.extractLsb' 26 6).toNat → decodeX w = .error (.illegalOpcode ((w.extractLsb' 26 6).setWidth 8))) ∧
  (∀ w : BitVec 48, 4 ≤ (w.extractLsb' 42 6).toNat → decodeC w = .error (.illegalOpcode ((w.extractLsb' 42 6).setWidth 8)))

/-! ### Steps -/

/-- A step takes the first event of the agenda and runs its meaning with the event's operands; where the clk has no event left, it passes
to the next clk (log 1: the agenda is the model's own order). An event that names a part the package does not have stops: a choice of the
model's own (log 78), of which the spec says nothing. -/
def Obligations.StepRunsTheNextEvent : Prop :=
  (∀ s : State, s.agenda = [] → step s = .next s.nextClk) ∧
  (∀ (s : State) (i : Instr) (e : EvArgs) (rest : List (Instr × EvArgs)) (t : State), s.agenda = (i, e) :: rest → e.wf = true →
    exec i { s with agenda := rest, ev := e, fetched := none } = .next t → t.fetched = none → step s = .next t) ∧
  (∀ (s : State) (i : Instr) (e : EvArgs) (rest : List (Instr × EvArgs)), s.agenda = (i, e) :: rest → e.wf = false →
    step s = .fault .noSuchPart)

/-- A step runs the decoded instructions (R7, R18, R21, R44). Where the bundle at the pc of the strand that holds the issue unit decodes to one
instruction and nothing keeps it from issuing, the step is `exec` of that instruction, and then, where it completes, what the issue of a
bundle leaves behind; where it traps, the trap it took; where it blocks, the strand gives up the unit. With several slots they run in slot
order, and what they read is the state before the bundle, since a result lands at the end of the clk; the first that traps or blocks decides,
and the bundle has no other effect than that trap or block; what changes the reads of other slots, as SPOK does, acts after them. -/
def Obligations.StepRunsTheDecodedInstruction : Prop :=
  (∀ (s : State) (rest : List (Instr × EvArgs)) (c : Nat) (v : Bundle) (next : Word) (f : Fetch) (t : State),
    s.agenda = (.bundleFetch, { core := c }) :: rest → s.CanIssue c →
    let r := ({ s with agenda := rest }).atStrand c
    f.pop = 0 → f.crit = 0 → f.gap = 0 → f.bad = none →
    ∀ r', r.BundleAt v next r' →
    let q := r'.withNext next
    let b := q.bk
    let issues (t : State) : Prop :=
      (t.mark = .done → step s = .next (((t.commit b.owed false).remember q |>.countIssue q).nextDue)) ∧
      (∀ d, t.mark = .trapped d →
        step s = .next ((t.unask c b).modBk fun b => { b with idle := none, walkErr := none, far := [] })) ∧
      (∀ w, t.mark = .blocked w → w ≠ .drain →
        step s = .next ((t.modBk fun y => { y with uiReady := b.uiReady }).pushFront .strandSwitch { core := c }))
    q.decodeBundle v = .ok f → q.hazard f.slots 0 = .none → bankTurns (f.slots.flatMap fun e => q.chunksOf e.2) ≤ 1 →
    (∀ k i, f.slots = [(k, i)] → exec i ((q.begun f).inSlot k) = .next t → issues t) ∧
    ((q.begun f).runSlots exec f.slots (q.begun f) = .next t → issues t)) ∧
  -- the slots of a bundle, in their order: `base` is the state before the bundle, `s` what the slots before slot `k` left
  (∀ (base s t : State) (k : Nat) (i : Instr) (l : List (Nat × Instr)),
    base.runSlots exec [] s = .next s ∧
    (exec i (s.inSlot k) = .next t →
      (t.mark = .done → actsLast i = false → base.runSlots exec ((k, i) :: l) s = base.runSlots exec l t) ∧
      (∀ d d' u, t.mark = .trapped d → exec i (base.inSlot k) = .next u → u.mark = .trapped d' →
        base.runSlots exec ((k, i) :: l) s = .next u) ∧
      (∀ d u, t.mark = .trapped d → exec i (base.inSlot k) = .next u → u.mark = .done →
        base.runSlots exec ((k, i) :: l) s =
          .next { base.takeTrap base.cur.core base.cur.pos d base.cur.pc with mark := .trapped d }) ∧
      (∀ w w' u, t.mark = .blocked w → (∀ op, w ≠ .journal op) → exec i (base.inSlot k) = .next u → u.mark = .blocked w' →
        base.runSlots exec ((k, i) :: l) s = .next u) ∧
      (∀ u v, t.mark = .done → actsLast i = true → base.runSlots exec l s = .next u → u.mark = .done → exec i (u.inSlot k) = .next v →
        v.mark = .done → base.runSlots exec ((k, i) :: l) s = .next v) ∧
      (∀ u d, t.mark = .done → actsLast i = true → base.runSlots exec l s = .next u → u.mark = .trapped d →
        base.runSlots exec ((k, i) :: l) s = .next u)))

/-- What the issue of a bundle does to the pc (R22, R44, R46, R73): it goes to the next bundle in sequence; after the last delay bundle
of a taken transfer to its target; an immediate transfer goes to its own target. -/
def Obligations.IssueAdvancesThePc : Prop :=
  (∀ s : State, s.bk.owed = none → s.bk.go = none → s.bk.status 7 = false → (s.commit none false).bk.pc = s.cur.next) ∧
  (∀ (s : State) (t : Word), s.bk.go = some t → (s.commit none false).bk.pc = t ∧ (s.commit none false).bk.go = none) ∧
  (∀ (s : State) (t : Word) (sh : Option Bool), (s.commit (some ⟨some t, 1, sh⟩) false).bk.pc = t ∧
    (s.commit (some ⟨some t, 1, sh⟩) false).bk.owed = none) ∧
  (∀ (s : State) (o : Owed), 1 < o.left → (s.commit (some o) false).bk.pc = s.cur.next ∧
    (s.commit (some o) false).bk.owed = some { o with left := o.left - 1 }) ∧
  (∀ (s : State) (sh : Option Bool), (s.commit (some ⟨none, 1, sh⟩) false).bk.pc = s.cur.next ∧
    (s.commit (some ⟨none, 1, sh⟩) false).bk.owed = none) ∧
  -- a call or return whose last delay bundle has issued leaves the window shift as the next step, with the return address (R76, R77)
  (∀ (s : State) (t : Word) (retreat : Bool),
    (s.commit (some ⟨some t, 1, some retreat⟩) false).agenda =
      (s.push .windowShift { core := s.cur.core, pos := s.cur.pos, flag := retreat, v := s.cur.next }).agenda)

/-! ### Scalar, address and predicate instructions -/

/-- A false guard makes a scalar slot a no-op (R12, R42): whatever its other bits hold, nothing changes, and a word that no decode admits
raises nothing; where the guard holds, and in the M, X and C slots, which have none, such a word traps ILLEGAL_OPCODE with its opcode, at its
own slot. BR, JMP, CALL, CALLI and RET are
the exception of R42: the bundles after them become delay bundles all the same, with no target owed, unless they stand in a delay bundle
themselves (R73). A guard reads bit 0 of its predicate, negated by PN (R12, R36): the unguarded form always acts, `(!p0)` never does. -/
def Obligations.FalseGuardIsNoOp : Prop :=
  ((∀ (i : Instr) (f : SFields) (s : State), encodeSFields i = some f → isTransfer i = false → s.guard ⟨f.pg, f.pn⟩ = false →
     exec i s = .next s) ∧
   (∀ (g : Guard) (s : State), s.guard g = false → s.bk.owed = none → ∀ (off : BitVec 35) (a : BitVec 6),
     exec (.br g off) s = .next (s.modBk fun b => { b with owed := some ⟨none, 1, none⟩ }) ∧
     exec (.jmp g a) s = .next (s.modBk fun b => { b with owed := some ⟨none, 1, none⟩ }) ∧
     exec (.call g off) s = .next (s.modBk fun b => { b with owed := some ⟨none, 3, none⟩ }) ∧
     exec (.calli g a) s = .next (s.modBk fun b => { b with owed := some ⟨none, 3, none⟩ }) ∧
     exec (.ret g) s = .next (s.modBk fun b => { b with owed := some ⟨none, 3, none⟩ })) ∧
   (∀ (g : Guard) (s : State) (i : Instr), s.guard g = false → s.bk.owed.isSome = true → isTransfer i = true → guardOf i = some g →
     exec i s = .next s)) ∧
  ((∀ (s : State) (s1 : Bool) (w : BitVec 48) (e : Reject), decodeS s1 w = .error e →
     let op := (w.extractLsb' 40 8).toNat
     ∃ f, s.decodeBundle (bundleOf (.s s1 w)) = .ok f ∧ f.pop = 0 ∧ f.crit = 0 ∧ f.gap = 0 ∧
       (s.guard ⟨(unpackS w).pg, (unpackS w).pn⟩ = true → f.slots = [] ∧ f.bad = some (if s1 then 1 else 0, op)) ∧
       (s.guard ⟨(unpackS w).pg, (unpackS w).pn⟩ = false →
         f.bad = none ∧ (s1 = true ∨ op < 0x40 ∨ 0x44 < op → f.slots = []) ∧ ∀ p ∈ f.slots, isTransfer p.2 = true)) ∧
   (∀ (s : State) (w : BitVec 64) (e : Reject), decodeV w = .error e → (unpackV w).pg = 0 →
     ∃ f, s.decodeBundle (bundleOf (.v w)) = .ok f ∧ f.slots = [] ∧
       ((unpackV w).pn = true → f.bad = none) ∧
       ((unpackV w).pn = false → (unpackV w).op ≠ 0x2E → (unpackV w).op ≠ 0x2F → f.bad = some (2, (w.extractLsb' 56 8).toNat))) ∧
   (∀ (s : State) (w : BitVec 48) (e : Reject),
     (decodeM w = .error e → s.decodeBundle (bundleOf (.m w)) =
       .ok { pop := 0, crit := 0, gap := 0, slots := [], bad := some (4, (w.extractLsb' 42 6).toNat) }) ∧
     (decodeC w = .error e → s.decodeBundle (bundleOf (.c w)) =
       .ok { pop := 0, crit := 0, gap := 0, slots := [], bad := some (6, (w.extractLsb' 42 6).toNat) })) ∧
   (∀ (s : State) (w : BitVec 32) (e : Reject), decodeX w = .error e → s.decodeBundle (bundleOf (.x w)) =
     .ok { pop := 0, crit := 0, gap := 0, slots := [], bad := some (5, (w.extractLsb' 26 6).toNat) }) ∧
   (∀ (s : State) (k op : Nat), s.fetched = none → s.hazard [] 0 = .none →
     let f : Fetch := { pop := 0, crit := 0, gap := 0, slots := [], bad := some (k, op) }
     ({ s with fetched := some f } : State).runBundle exec f = .next
       (((s.begun f).trapHere { code := 0x02, info := BitVec.ofNat 64 op, slot := k, decode := true }).afterTrap s))) ∧
  (∀ (s : State),
     s.guard .always = true ∧ s.guard ⟨0, true⟩ = false ∧
     ∀ (pg : BitVec 4) (pn : Bool), pg ≠ 0 →
       s.guard ⟨pg, pn⟩ = ((mapGet (fun _ => (0 : Pred)) s.bk.p pg.toNat).getLsbD 0 ^^ pn))

/-- A result goes in flight and nothing else changes: `landS` adds it, due at the end of the clk that its latency gives, 2 clk later under
triple issue, with the physical register that its number names at issue, and `landA`, `landP` and `landV` do the same for their files; a write
to s0 or p0 is discarded (R6, R11, R16, R20, R100). When its clk comes, a result is written to its register and to no other; nothing else that
software sees changes. A result that is not due stays in flight; of two that land in one register at the end of one clk, the later issued
is kept (R16). Vector results are O48's. -/
def Obligations.ScalarResultLands : Prop :=
  ((∀ (s : State) (d : BitVec 6) (v : Word) (n : Nat), s.bk.shadow = none →
     s.landS d v n = s.modBk fun b => { b with flight := b.flight ++
       [⟨s.clk + n - 1 + (if s.tripled then 2 else 0), s.order, if d = 0 then .none else .s (physS b.wbase d.toNat) v, 0, false⟩] }) ∧
   (∀ (s : State) (d : BitVec 4) (v : Addr) (x : Pred) (n : Nat) (vd : BitVec 11) (y : VReg) (fl : BitVec 8),
     let due (n : Nat) := s.clk + n - 1 + (if s.tripled then 2 else 0)
     s.landA d v = s.modBk (fun b => { b with flight := b.flight ++ [⟨due 1, s.order, .a d.toNat v, 0, false⟩] }) ∧
     s.landP d x n = s.modBk (fun b => { b with flight := b.flight ++
       [⟨due n, s.order, if d = 0 then .none else .p d.toNat x, 0, false⟩] }) ∧
     s.landV vd y n fl = s.modBk (fun b => { b with flight := b.flight ++
       [⟨due n, s.order, .v (s.bk.vphys vd.toNat) y (BitVec.allOnes 2048), fl, false⟩] }))) ∧
  (∀ (s : State) (c p i : Nat) (v : Word) (due n : Nat), (s.bank c p).flight = [⟨due, n, .s i v, 0, false⟩] → (s.bank c p).spec = none →
     (due ≤ s.clk →
       let t := s.landDue c p
       mapGet (fun _ => 0) (t.bank c p).s i = v ∧
       (∀ j, j ≠ i → mapGet (fun _ => 0) (t.bank c p).s j = mapGet (fun _ => 0) (s.bank c p).s j) ∧
       (t.bank c p).a = (s.bank c p).a ∧ (t.bank c p).p = (s.bank c p).p ∧ (t.bank c p).k = (s.bank c p).k ∧
       (t.bank c p).cd = (s.bank c p).cd ∧ (t.bank c p).q = (s.bank c p).q ∧ (t.bank c p).pc = (s.bank c p).pc ∧
       (∀ k, (t.bank c p).csrAt k = (s.bank c p).csrAt k) ∧
       (t.bank c p).flight = [] ∧ (∀ a, t.byteAt a = s.byteAt a) ∧ (t.core c).vfile = (s.core c).vfile ∧
       (t.core c).scratch = (s.core c).scratch ∧ (t.core c).accum = (s.core c).accum ∧ (t.core c).sem = (s.core c).sem ∧
       (∀ c' p', c' ≠ c ∨ p' ≠ p → t.bank c' p' = s.bank c' p')) ∧
     (s.clk < due → (s.landDue c p).bank c p = s.bank c p)) ∧
  -- the other files: what a result writes, and that it writes nothing else
  (∀ (s : State) (c p due n : Nat) (w : RegWrite), (s.bank c p).flight = [⟨due, n, w, 0, false⟩] → (s.bank c p).spec = none → due ≤ s.clk →
     let b := s.bank c p
     let t := s.landDue c p
     let b' := t.bank c p
     let rest : Prop := b'.s = b.s ∧ b'.pc = b.pc ∧ b'.q = b.q ∧ b'.flight = [] ∧ b'.pend = b.pend ∧ (∀ k, b'.csrAt k = b.csrAt k) ∧
       t.mem = s.mem ∧ (t.core c).sem = (s.core c).sem ∧ (∀ c' p', c' ≠ c ∨ p' ≠ p → t.bank c' p' = s.bank c' p')
     let files : Prop := (t.core c).vfile = (s.core c).vfile ∧ (t.core c).scratch = (s.core c).scratch ∧ (t.core c).accum = (s.core c).accum
     let given (l : List (Option Byte)) (at_ x : Nat) (old : Byte) : Byte :=
       if at_ ≤ x ∧ x < at_ + l.length then (l.getD (x - at_) none).getD old else old
     (∀ i v, w = .a i v → (∀ j, mapGet (fun _ => 0) b'.a j = if j = i then v else mapGet (fun _ => 0) b.a j) ∧
       b'.p = b.p ∧ b'.k = b.k ∧ b'.cd = b.cd ∧ files ∧ rest) ∧
     (∀ i v, w = .p i v → (∀ j, mapGet (fun _ => 0) b'.p j = if j = i then v else mapGet (fun _ => 0) b.p j) ∧
       b'.a = b.a ∧ b'.k = b.k ∧ b'.cd = b.cd ∧ files ∧ rest) ∧
     (∀ i v m, w = .k i v m → (∀ k, (b'.kget i).getLsbD k = if m.getLsbD k then v.getLsbD k else (b.kget i).getLsbD k) ∧
       (∀ j, j ≠ i → b'.kget j = b.kget j) ∧ b'.a = b.a ∧ b'.p = b.p ∧ b'.cd = b.cd ∧ files ∧ rest) ∧
     (∀ at_ l, w = .scratch at_ l →
       (∀ x, mapGet (fun _ => 0) (t.core c).scratch x = given l at_ x (mapGet (fun _ => 0) (s.core c).scratch x)) ∧
       b'.a = b.a ∧ b'.p = b.p ∧ b'.k = b.k ∧ b'.cd = b.cd ∧ (t.core c).vfile = (s.core c).vfile ∧ (t.core c).accum = (s.core c).accum ∧ rest) ∧
     (∀ at_ l, w = .frame at_ l →
       (∀ x, mapGet (fun _ => 0) (t.core c).accum x = given l at_ x (mapGet (fun _ => 0) (s.core c).accum x)) ∧
       b'.a = b.a ∧ b'.p = b.p ∧ b'.k = b.k ∧ b'.cd = b.cd ∧ (t.core c).vfile = (s.core c).vfile ∧
       (t.core c).scratch = (s.core c).scratch ∧ rest)) ∧
  -- two results due in one clk: the one that was issued later is kept
  (∀ (s : State) (c p i j : Nat) (v w : Word) (due due' n n' : Nat),
     (s.bank c p).flight = [⟨due, n, .s i v, 0, false⟩, ⟨due', n', .s j w, 0, false⟩] → (s.bank c p).spec = none →
     due ≤ s.clk → due' ≤ s.clk →
     let b' := (s.landDue c p).bank c p
     (∀ r, mapGet (fun _ => 0) b'.s r = if r = j then w else if r = i then v else mapGet (fun _ => 0) (s.bank c p).s r) ∧ b'.flight = [])

/-- Integer arithmetic, logic and shifts (R62, R63): the value and the latency of each two-register form, its opcode, and the borderline
results of the divisions, which set STATUS.IDZ with the result. Nothing but the result in flight changes. -/
def Obligations.IntegerArithmetic : Prop :=
  ∀ (g : Guard) (d a b : BitVec 6) (s : State), s.guard g = true →
    let x := s.sr a
    let y := s.sr b
    exec (.add g d a b) s = .next (s.landS d (x + y) 1) ∧
    exec (.sub g d a b) s = .next (s.landS d (x - y) 1) ∧
    exec (.mul g d a b) s = .next (s.landS d (x * y) 3) ∧
    exec (.mulh g d a b) s = .next (s.landS d ((x.signExtend 128 * y.signExtend 128).extractLsb' 64 64) 3) ∧
    exec (.mulhu g d a b) s = .next (s.landS d ((x.setWidth 128 * y.setWidth 128).extractLsb' 64 64) 3) ∧
    exec (.div g d a b) s = .next (s.landS d (if y = 0 then BitVec.allOnes 64 else x.sdiv y) 18 (y == 0)) ∧
    exec (.divu g d a b) s = .next (s.landS d (if y = 0 then BitVec.allOnes 64 else x / y) 18 (y == 0)) ∧
    exec (.rem g d a b) s = .next (s.landS d (if y = 0 then x else x - y * x.sdiv y) 18 (y == 0)) ∧
    exec (.remu g d a b) s = .next (s.landS d (if y = 0 then x else x - y * (x / y)) 18 (y == 0)) ∧
    exec (.and g d a b) s = .next (s.landS d (x &&& y) 1) ∧
    exec (.or g d a b) s = .next (s.landS d (x ||| y) 1) ∧
    exec (.xor g d a b) s = .next (s.landS d (x ^^^ y) 1) ∧
    exec (.shl g d a b) s = .next (s.landS d (x <<< y.toNat) 1) ∧
    exec (.shr g d a b) s = .next (s.landS d (x >>> y.toNat) 1) ∧
    exec (.sar g d a b) s = .next (s.landS d (x.sshiftRight y.toNat) 1) ∧
    exec (.min g d a b) s = .next (s.landS d (if x.slt y then x else y) 1) ∧
    exec (.max g d a b) s = .next (s.landS d (if x.slt y then y else x) 1) ∧
    exec (.minu g d a b) s = .next (s.landS d (if x.ult y then x else y) 1) ∧
    exec (.maxu g d a b) s = .next (s.landS d (if x.ult y then y else x) 1) ∧
    -- R63: −2^63 by −1
    ((0x8000000000000000 : Word).sdiv (-1) = 0x8000000000000000) ∧
    -- the opcodes of R62
    [Instr.add g d a b, .sub g d a b, .mul g d a b, .mulh g d a b, .mulhu g d a b, .div g d a b, .divu g d a b, .rem g d a b,
      .remu g d a b, .and g d a b, .or g d a b, .xor g d a b, .shl g d a b, .shr g d a b, .sar g d a b, .min g d a b, .max g d a b,
      .minu g d a b, .maxu g d a b].map encodeSFields =
    ([0x01, 0x03, 0x04, 0x05, 0x06, 0x07, 0x08, 0x09, 0x0A, 0x0B, 0x0C, 0x0D, 0x11, 0x12, 0x13, 0x17, 0x18, 0x19, 0x1A] :
      List (BitVec 8)).map (fun op => some (SFields.of op g d a b 0))

/-- The immediate forms (R64): SignExt(IMM, 17), and shifts by IMM[5:0], with their opcodes. -/
def Obligations.ImmediateForms : Prop :=
  ∀ (g : Guard) (d a n : BitVec 6) (imm : BitVec 17) (s : State), s.guard g = true →
    let x := s.sr a
    exec (.addi g d a imm) s = .next (s.landS d (x + imm.signExtend 64) 1) ∧
    exec (.andi g d a imm) s = .next (s.landS d (x &&& imm.signExtend 64) 1) ∧
    exec (.ori g d a imm) s = .next (s.landS d (x ||| imm.signExtend 64) 1) ∧
    exec (.xori g d a imm) s = .next (s.landS d (x ^^^ imm.signExtend 64) 1) ∧
    exec (.shli g d a n) s = .next (s.landS d (x <<< n.toNat) 1) ∧
    exec (.shri g d a n) s = .next (s.landS d (x >>> n.toNat) 1) ∧
    exec (.sari g d a n) s = .next (s.landS d (x.sshiftRight n.toNat) 1) ∧
    [Instr.addi g d a imm, .andi g d a imm, .ori g d a imm, .xori g d a imm].map encodeSFields =
      ([0x02, 0x0E, 0x0F, 0x10] : List (BitVec 8)).map (fun op => some (SFields.of op g d a 0 imm)) ∧
    [Instr.shli g d a n, .shri g d a n, .sari g d a n].map encodeSFields =
      ([0x14, 0x15, 0x16] : List (BitVec 8)).map (fun op => some (SFields.of op g d a 0 (n.setWidth 17)))

/-- CLZ, POPC, MOVI, MOVK and SEL (R65, R66, R67): CLZ writes the number of leading zero bits, POPC the number of bits set, MOVI the
sign-extended immediate, MOVK replaces 16 bits and keeps the others, SEL selects by bit 0 of pC; every latency is 1. -/
def Obligations.CountsConstantsAndSelection : Prop :=
  ∀ (g : Guard) (d a b : BitVec 6) (s : State), s.guard g = true →
    (∃ n, n ≤ 64 ∧ exec (.clz g d a) s = .next (s.landS d (BitVec.ofNat 64 n) 1) ∧
      (∀ i, 64 - n ≤ i → (s.sr a).getLsbD i = false) ∧ (n < 64 → (s.sr a).getLsbD (63 - n) = true)) ∧
    exec (.popc g d a) s = .next (s.landS d (BitVec.ofNat 64 ((List.range 64).countP (s.sr a).getLsbD)) 1) ∧
    (∀ imm, exec (.movi g d imm) s = .next (s.landS d (imm.signExtend 64) 1)) ∧
    (∀ (imm : BitVec 16) (hw : BitVec 2), ∃ v : Word, exec (.movk g d imm hw) s = .next (s.landS d v 1) ∧
      ∀ i, i < 64 → v.getLsbD i = if 16 * hw.toNat ≤ i ∧ i < 16 * hw.toNat + 16 then imm.getLsbD (i - 16 * hw.toNat) else (s.sr d).getLsbD i) ∧
    (∀ c : BitVec 4, exec (.sel g d c a b) s = .next (s.landS d (if (s.pr c).getLsbD 0 then s.sr a else s.sr b) 1)) ∧
    encodeSFields (.clz g d a) = some (.of 0x1B g d a 0 0) ∧ encodeSFields (.popc g d a) = some (.of 0x1C g d a 0 0) ∧
    (∀ imm, encodeSFields (.movi g d imm) = some (.of 0x1D g d 0 0 imm)) ∧
    (∀ imm hw, encodeSFields (.movk g d imm hw) = some (.of 0x1E g d 0 (hw.setWidth 6) (imm.setWidth 17))) ∧
    (∀ c, encodeSFields (.sel g d c a b) = some (.of 0x1F g d a b (c.setWidth 17)))

/-- EXT, EXT.S and INS (R68), bit by bit, for a field of `len` = n + 1 bits at `pos`; a field past bit 63 is not well-formed, and its word
is refused. -/
def Obligations.Bitfields : Prop :=
  ∀ (g : Guard) (d a pos n : BitVec 6) (s : State), s.guard g = true →
    let x := s.sr a
    (∃ v : Word, exec (.ext g d a pos n) s = .next (s.landS d v 1) ∧
      ∀ i, i < 64 → v.getLsbD i = (decide (i < n.toNat + 1) && x.getLsbD (pos.toNat + i))) ∧
    (∃ v : Word, exec (.extS g d a pos n) s = .next (s.landS d v 1) ∧
      ∀ i, i < 64 → v.getLsbD i = x.getLsbD (pos.toNat + min i n.toNat)) ∧
    (pos.toNat + n.toNat + 1 ≤ 64 → ∃ v : Word, exec (.ins g d a pos n) s = .next (s.landS d v 1) ∧
      ∀ i, i < 64 → v.getLsbD i = if pos.toNat ≤ i ∧ i < pos.toNat + n.toNat + 1 then x.getLsbD (i - pos.toNat) else (s.sr d).getLsbD i) ∧
    (64 < pos.toNat + n.toNat + 1 → ∀ s1, (Instr.ext g d a pos n).wf = false ∧
      decodeS s1 (packS (.of 0x2E g d a 0 ((0#5 ++ n) ++ pos))) = .error (.illegalOpcode 0x2E) ∧
      decodeS s1 (packS (.of 0x2E g d a 0 ((1#5 ++ n) ++ pos))) = .error (.illegalOpcode 0x2E) ∧
      decodeS s1 (packS (.of 0x2F g d a 0 ((0#5 ++ n) ++ pos))) = .error (.illegalOpcode 0x2F))

/-- Compares (R69): every one of the 256 bits of pD is the result; a compare with pD = p0 has no effect on the predicates. The
predicate instructions (R70) act on whole 256-bit predicates; p0 as a source reads all ones; PSET sets the bits below n. -/
def Obligations.ComparesAndPredicateLogic : Prop :=
  (∀ (g : Guard) (pd : BitVec 4) (a b : BitVec 6) (imm : BitVec 17) (s : State), s.guard g = true →
     let x := s.sr a
     let y := s.sr b
     let all (c : Bool) : Pred := if c then BitVec.allOnes 256 else 0
     exec (.ceq g pd a b) s = .next (s.landP pd (all (x == y)) 1) ∧
     exec (.cne g pd a b) s = .next (s.landP pd (all (x != y)) 1) ∧
     exec (.clt g pd a b) s = .next (s.landP pd (all (x.slt y)) 1) ∧
     exec (.cle g pd a b) s = .next (s.landP pd (all (x.sle y)) 1) ∧
     exec (.cltu g pd a b) s = .next (s.landP pd (all (x.ult y)) 1) ∧
     exec (.cleu g pd a b) s = .next (s.landP pd (all (x.ule y)) 1) ∧
     exec (.ceqi g pd a imm) s = .next (s.landP pd (all (x == imm.signExtend 64)) 1) ∧
     exec (.clti g pd a imm) s = .next (s.landP pd (all (x.slt (imm.signExtend 64))) 1) ∧
     (∀ v, s.landP 0 v 1 = s.land .none 1) ∧
     [Instr.ceq g pd a b, .cne g pd a b, .clt g pd a b, .cle g pd a b, .cltu g pd a b, .cleu g pd a b].map encodeSFields =
       ([0x20, 0x21, 0x22, 0x23, 0x24, 0x25] : List (BitVec 8)).map (fun op => some (SFields.of op g (pd.setWidth 6) a b 0)) ∧
     encodeSFields (.ceqi g pd a imm) = some (.of 0x26 g (pd.setWidth 6) a 0 imm) ∧
     encodeSFields (.clti g pd a imm) = some (.of 0x27 g (pd.setWidth 6) a 0 imm)) ∧
  (∀ (g : Guard) (pd pa pb : BitVec 4) (s : State), s.guard g = true →
     exec (.pand g pd pa pb) s = .next (s.landP pd (s.pr pa &&& s.pr pb) 1) ∧
     exec (.por g pd pa pb) s = .next (s.landP pd (s.pr pa ||| s.pr pb) 1) ∧
     exec (.pxor g pd pa pb) s = .next (s.landP pd (s.pr pa ^^^ s.pr pb) 1) ∧
     exec (.pnot g pd pa) s = .next (s.landP pd (~~~(s.pr pa)) 1) ∧
     (∀ n : BitVec 9, ∃ v : Pred, exec (.pset g pd n) s = .next (s.landP pd v 1) ∧ ∀ i, i < 256 → v.getLsbD i = decide (i < n.toNat)) ∧
     exec (.pany g pd pa) s = .next (s.landP pd (if (List.range 256).any (s.pr pa).getLsbD then BitVec.allOnes 256 else 0) 1) ∧
     s.pr 0 = BitVec.allOnes 256 ∧ (∀ n : BitVec 9, (Instr.pset g pd n).wf = decide (n.toNat ≤ 256)) ∧
     (∀ n : BitVec 9, 256 < n.toNat → ∀ s1, decodeS s1 (packS (.of 0x2C g (pd.setWidth 6) 0 0 (n.setWidth 17))) = .error (.illegalOpcode 0x2C)) ∧
     [Instr.pand g pd pa pb, .por g pd pa pb, .pxor g pd pa pb].map encodeSFields =
       ([0x28, 0x29, 0x2A] : List (BitVec 8)).map (fun op => some (SFields.of op g (pd.setWidth 6) (pa.setWidth 6) (pb.setWidth 6) 0)) ∧
     encodeSFields (.pnot g pd pa) = some (.of 0x2B g (pd.setWidth 6) (pa.setWidth 6) 0 0) ∧
     (∀ n, encodeSFields (.pset g pd n) = some (.of 0x2C g (pd.setWidth 6) 0 0 (n.setWidth 17))) ∧
     encodeSFields (.pany g pd pa) = some (.of 0x2D g (pd.setWidth 6) (pa.setWidth 6) 0 0))

/-- The address instructions (R71): exact results, and ADDR_OVERFLOW with EINFO 0 for S0 and 1 for S1 where a checked form leaves its
range; MOVAH keeps the low 64 bits. -/
def Obligations.AddressRegisters : Prop :=
  ∀ (g : Guard) (d a : BitVec 6) (ad aa ab : BitVec 4) (imm : BitVec 17) (s : State), s.guard g = true →
    let base : Int := (s.ar aa).toNat
    let overflow : Host.Outcome State Fault Refusal := s.settle (.trap { code := 0x1F, info := BitVec.ofNat 64 s.cur.slot })
    (exec (.adda g ad aa a) s =
      if 0 ≤ base + (s.sr a).toInt ∧ base + (s.sr a).toInt < 2 ^ 80 then .next (s.landA ad (s.ar aa + (s.sr a).signExtend 80)) else overflow) ∧
    (exec (.addai g ad aa imm) s =
      if 0 ≤ base + imm.toInt ∧ base + imm.toInt < 2 ^ 80 then .next (s.landA ad (s.ar aa + imm.signExtend 80)) else overflow) ∧
    exec (.mova g ad a) s = .next (s.landA ad ((s.sr a).setWidth 80)) ∧
    exec (.movah g ad a) s = .next (s.landA ad ((s.sr a).extractLsb' 0 16 ++ (s.ar ad).extractLsb' 0 64)) ∧
    exec (.rda g d aa) s = .next (s.landS d ((s.ar aa).extractLsb' 0 64) 1) ∧
    exec (.rdah g d aa) s = .next (s.landS d (((s.ar aa).extractLsb' 64 16).setWidth 64) 1) ∧
    exec (.ceqa g ad aa ab) s = .next (s.landP ad (if s.ar aa = s.ar ab then BitVec.allOnes 256 else 0) 1) ∧
    (exec (.suba g d aa ab) s =
      let x : Int := base - (s.ar ab).toNat
      if -2 ^ 63 ≤ x ∧ x ≤ 2 ^ 63 - 1 then .next (s.landS d ((s.ar aa - s.ar ab).setWidth 64) 1) else overflow) ∧
    encodeSFields (.adda g ad aa a) = some (.of 0x30 g (ad.setWidth 6) (aa.setWidth 6) a 0) ∧
    encodeSFields (.addai g ad aa imm) = some (.of 0x31 g (ad.setWidth 6) (aa.setWidth 6) 0 imm) ∧
    encodeSFields (.mova g ad a) = some (.of 0x32 g (ad.setWidth 6) a 0 0) ∧
    encodeSFields (.movah g ad a) = some (.of 0x33 g (ad.setWidth 6) a 0 0) ∧
    encodeSFields (.rda g d aa) = some (.of 0x34 g d (aa.setWidth 6) 0 0) ∧
    encodeSFields (.rdah g d aa) = some (.of 0x35 g d (aa.setWidth 6) 0 0) ∧
    encodeSFields (.ceqa g ad aa ab) = some (.of 0x36 g (ad.setWidth 6) (aa.setWidth 6) (ab.setWidth 6) 0) ∧
    encodeSFields (.suba g d aa ab) = some (.of 0x37 g d (aa.setWidth 6) (ab.setWidth 6) 0)

/-! ### Control, traps and system registers -/

/-- BR, JMP, CALL, CALLI and RET (R74, R75, R76, R77): the target that the transfer owes, its delay bundles, and the window shift owed
with it; nothing else changes. An odd register target of JMP, CALLI or RET raises ALIGN with EINFO 2; a CALL or CALLI at depth 65,535 and a RET at depth 0 raise
WINDOW_SPILL_FAULT (R76, R77); in a delay bundle all five raise ILLEGAL_OPCODE (R73). -/
def Obligations.TransfersOweTheirTarget : Prop :=
  ∀ (g : Guard) (off : BitVec 35) (a : BitVec 6) (s : State), s.guard g = true →
    let x := s.cur.pc + 2 * off.signExtend 64
    let owe (t : Word) (n : Nat) (sh : Option Bool) := s.modBk fun b => { b with owed := some ⟨some t, n, sh⟩ }
    let depth := ((s.bk.csrAt 0x019).extractLsb' 0 16).toNat
    let trap (t : Trap) := s.settle (.trap t)
    (s.bk.owed = none →
      exec (.br g off) s = .next (owe x 1 none) ∧
      ((s.sr a).getLsbD 0 = false → exec (.jmp g a) s = .next (owe (s.sr a) 1 none)) ∧
      ((s.sr a).getLsbD 0 = true → exec (.jmp g a) s = trap { code := 0x06, info := 2, addr := s.bk.codeAddr (s.sr a) })) ∧
    (s.Plain →
      (depth < 65535 → exec (.call g off) s = .next (owe x 3 (some false))) ∧
      (depth < 65535 → (s.sr a).getLsbD 0 = false → exec (.calli g a) s = .next (owe (s.sr a) 3 (some false))) ∧
      (depth = 65535 → exec (.call g off) s = trap { code := 0x1C, info := 0xFF }) ∧
      (depth = 65535 → (s.sr a).getLsbD 0 = false → exec (.calli g a) s = trap { code := 0x1C, info := 0xFF }) ∧
      ((s.sr a).getLsbD 0 = true → exec (.calli g a) s = trap { code := 0x06, info := 2, addr := s.bk.codeAddr (s.sr a) }) ∧
      ((s.sr 47).getLsbD 0 = true → exec (.ret g) s = trap { code := 0x06, info := 2, addr := s.bk.codeAddr (s.sr 47) }) ∧
      (0 < depth → (s.sr 47).getLsbD 0 = false → exec (.ret g) s = .next (owe (s.sr 47) 3 (some true))) ∧
      (depth = 0 → (s.sr 47).getLsbD 0 = false → exec (.ret g) s = trap { code := 0x1C, info := 0 })) ∧
    (s.bk.owed.isSome = true → ∀ i op, (i, op) ∈ [(Instr.br g off, 0x40), (.jmp g a, 0x41), (.call g off, 0x42), (.calli g a, 0x43),
        (.ret g, 0x44), (.loop g off, 0x45)] → exec i s = trap { code := 0x02, info := BitVec.ofNat 64 op, decode := true })

/-- WINDOW_SHIFT (R76, R77): a call moves the window two frames, so that the callee's s16-s31 are the caller's s48-s63, writes the return
address to the callee's s47 and counts DEPTH and RES; a return undoes the move. The globals s1-s15 stand. With six depths resident a call
owes a spill of 256 bytes at WSTK, the registers of its two oldest frames, lowest first, as they stand before the link is written, and with
none a return owes a fill of the 256 below WSTK, in pieces of 64 (R80). -/
def Obligations.WindowShiftMovesTwoFrames : Prop :=
  ∀ (s : State) (c p : Nat) (link : Word), s.ev.core = c → s.ev.pos = p →
    let b := s.bank c p
    let depth := ((b.csrAt 0x019).extractLsb' 0 16).toNat
    let res := ((b.csrAt 0x019).extractLsb' 16 4).toNat
    let wstk : Addr := (b.csrAt 0x018).setWidth 80
    let old := (b.win.map (·.pieces)).getD []
    b.shadow = none → s.ev.v = link →
    (s.ev.flag = false → ∃ t, exec .windowShift s = .next t ∧
      let b' := t.bank c p
      (∀ i, i < 16 → b'.sget (16 + i) = b.sget (48 + i)) ∧ b'.sget 47 = link ∧ (∀ i, i < 16 → b'.sget i = b.sget i) ∧
      (depth < 65535 → ((b'.csrAt 0x019).extractLsb' 0 16).toNat = depth + 1) ∧
      (res < 6 → ((b'.csrAt 0x019).extractLsb' 16 4).toNat = res + 1 ∧ b'.win = b.win) ∧
      (res = 6 → ((b'.csrAt 0x019).extractLsb' 16 4).toNat = 6 ∧
        ∃ w l, b'.win = some w ∧ w.pieces = old ++ l ∧ w.move = some false ∧ l.all (fun x => !x.fill) = true ∧
          l.map (·.va) = [0, 64, 128, 192].map (fun n => wstk + n) ∧
          -- the frames above the caller's window: its s64 to s95, eight to a piece
          l.map (·.data) = [0, 8, 16, 24].map (fun k => natOfBytes ((List.range 8).flatMap fun j =>
            bytesOfNat 8 (mapGet (fun _ => 0) b.s (physS b.wbase (64 + k + j))).toNat))) ∧
      (∀ k, k ≠ 0x019 → b'.csrAt k = b.csrAt k) ∧ b'.a = b.a ∧ b'.p = b.p ∧ b'.pc = b.pc ∧ (∀ a, t.byteAt a = s.byteAt a)) ∧
    (s.ev.flag = true → ∃ t, exec .windowShift s = .next t ∧
      let b' := t.bank c p
      (∀ i, i < 16 → b'.sget (48 + i) = b.sget (16 + i)) ∧ b'.s = b.s ∧
      (0 < depth → ((b'.csrAt 0x019).extractLsb' 0 16).toNat = depth - 1) ∧
      (0 < res → ((b'.csrAt 0x019).extractLsb' 16 4).toNat = res - 1 ∧ b'.win = b.win) ∧
      (res = 0 → ∃ w l, b'.win = some w ∧ w.pieces = old ++ l ∧ w.move = some true ∧ l.all (·.fill) = true ∧
        l.map (·.va) = [0, 64, 128, 192].map (fun n => (b.csrAt 0x018 - 256).setWidth 80 + n)) ∧
      (∀ k, k ≠ 0x019 → b'.csrAt k = b.csrAt k) ∧ b'.a = b.a ∧ b'.p = b.p ∧ b'.pc = b.pc ∧ (∀ a, t.byteAt a = s.byteAt a))

/-- LOOP (R83): it reads LCNT at issue; with LCNT = 0 it falls through and nothing changes; otherwise LCNT − 1 lands with latency 1 and
the strand goes to x + 2·SignExt(OFF, 35) with no delay bundle. YIELD (R89) leaves the strand ready and lets the core move on. -/
def Obligations.LoopAndYield : Prop :=
  ∀ (g : Guard) (off : BitVec 35) (s : State), s.guard g = true → s.bk.owed = none →
    (s.bk.csrAt 0x01A = 0 → exec (.loop g off) s = .next s) ∧
    (s.bk.csrAt 0x01A ≠ 0 → ∃ t, exec (.loop g off) s = .next t ∧
      t.bk.go = some (s.cur.pc + 2 * off.signExtend 64) ∧
      t.bk.flight = s.bk.flight ++ [⟨s.clk + (if s.tripled then 2 else 0), s.order,
        .csr 0x01A (s.bk.csrAt 0x01A - 1) (BitVec.allOnes 64), 0, false⟩] ∧
      t.bk.s = s.bk.s ∧ t.bk.a = s.bk.a ∧ t.bk.p = s.bk.p ∧ t.bk.csr = s.bk.csr ∧ t.bk.owed = none ∧ t.mem = s.mem) ∧
    (s.bk.inSpec = false → ∃ t, exec (.yield g) s = .next t ∧ t.cr.issue.yielded = true ∧ t.bk = s.bk ∧ t.mem = s.mem)

/-- Speculative regions and guarded tasks (R85-R88, R298). SPEC opens a region at the end of its clk, with the recovery address and a checkpoint
of the scalar, address and predicate registers and LCNT, and sets STATUS.SPECA. In it stores are held, up to 32, and one beyond fails the
region; a load takes the bytes of a held store; a load that would fault is delivered 0 and fails the region. SPOK commits where bit 0 of pA
is 1 and the region has not failed, and releases the held stores in program order; otherwise, once every result issued since SPEC has landed
or been delivered, it restores the checkpoint and goes to the recovery address. SPOK with no region open raises ILLEGAL_OPCODE. While a task
holds its guard its stores are staged, and atomics, LDSC.D, STSC.D, QBIND, JBEGIN to JABORT and WAKE raise GUARD_OVERFLOW. -/
def Obligations.SpeculativeRegions : Prop :=
  (∀ (g : Guard) (imm : BitVec 17) (s : State), s.guard g = true → s.Plain →
    exec (.spec g imm) s = .next (s.land (.openSpec (s.cur.pc + 2 * imm.signExtend 64)) 1)) ∧
  (∀ (s : State) (c p due n : Nat) (rec : Word), (s.bank c p).flight = [⟨due, n, .openSpec rec, 0, false⟩] → due ≤ s.clk →
    let b := s.bank c p
    let b' := (s.landDue c p).bank c p
    b'.spec = some { recover := rec, order := n, s := b.s, a := b.a, p := b.p, lcnt := b.csrAt 0x01A } ∧ b'.inSpec = true ∧
    b'.s = b.s ∧ b'.a = b.a ∧ b'.p = b.p) ∧
  (∀ (g : Guard) (pa : BitVec 4) (s : State) (r : Spec), s.guard g = true → s.bk.owed = none → s.bk.spec = some r →
    ((s.pr pa).getLsbD 0 = true → r.failed = false → ∃ t, exec (.spok g pa) s = .next t ∧
      t.bk.spec = none ∧ t.bk.inSpec = false ∧ t.bk.s = s.bk.s ∧ t.bk.a = s.bk.a ∧ t.bk.p = s.bk.p ∧ t.mem = s.mem ∧
      (s.bk.guarded = false → t.bk.accs = s.bk.accs ++ r.held ∧ t.bk.staged = s.bk.staged) ∧
      (s.bk.guarded = true → s.bk.staged.length + r.held.length ≤ 256 →
        t.bk.staged = s.bk.staged ++ r.held ∧ t.bk.accs = s.bk.accs)) ∧
    ((s.pr pa).getLsbD 0 = false ∨ r.failed = true →
      s.bk.flight.all (fun l => decide (l.order < r.order)) = true →
      s.bk.accs.all (fun a => decide (a.order < r.order) || a.dest.isNone) = true →
      ∃ t, exec (.spok g pa) s = .next t ∧ t.bk.spec = none ∧ t.bk.inSpec = false ∧ t.bk.s = r.s ∧ t.bk.a = r.a ∧ t.bk.p = r.p ∧
        t.bk.csrAt 0x01A = r.lcnt ∧ t.bk.go = some r.recover ∧ s.clk + 2 ≤ t.cr.issue.hold ∧ t.mem = s.mem)) ∧
  (∀ (g : Guard) (pa : BitVec 4) (s : State), s.guard g = true → s.bk.owed = none → s.bk.spec = none →
    exec (.spok g pa) s = s.settle (.trap { code := 0x02, info := 0x47, decode := true })) ∧
  (∀ (g : Guard) (d b a : BitVec 6) (n aa : BitVec 4) (imm : BitVec 17) (ord sc : BitVec 3) (off : BitVec 11) (pa : Nat) (s : State),
     s.guard g = true →
     let base : Int := (s.ar aa).toNat
     let ea := base + imm.toInt
     let stored (ea : Int) (size ord scope : Nat) : Acc :=
       { id := s.bk.nextId, kind := .store, order := s.order, va := BitVec.ofInt 80 ea, pa := pa, size := size, ord := ord, scope := scope,
         data := (s.sr b).toNat % 2 ^ (8 * size), slot := s.cur.slot, user := !s.bk.priv }
     -- what a store of each form comes to
     let stores (f : Acc → State) : Prop :=
       (s.Reaches ea 1 1 2 pa → exec (.stB g aa b imm) s = .next (f (stored ea 1 0 0))) ∧
       (s.Reaches ea 2 2 2 pa → exec (.stH g aa b imm) s = .next (f (stored ea 2 0 0))) ∧
       (s.Reaches ea 4 4 2 pa → exec (.stW g aa b imm) s = .next (f (stored ea 4 0 0))) ∧
       (s.Reaches ea 8 8 2 pa → exec (.stD g aa b imm) s = .next (f (stored ea 8 0 0))) ∧
       (s.Reaches (base + off.toInt) 8 8 2 pa → exec (.stlD g aa b sc off) s = .next (f (stored (base + off.toInt) 8 2 sc.toNat)))
     (∀ r, s.bk.spec = some r →
       (r.count < 32 → stores fun x => s.modBk fun k =>
         { k with nextId := k.nextId + 1, spec := some { r with held := r.held ++ [x], count := r.count + 1 } }) ∧
       (32 ≤ r.count → stores fun _ => s.modBk fun k =>
         { k with nextId := k.nextId + 1, spec := some { r with failed := true, count := r.count + 1 } }) ∧
       -- a load that would fault
       (s.bk.inSpec = true → 0 ≤ ea → ea < 2 ^ 80 →
         let x : Acc :=
           { id := s.bk.nextId, kind := .load false, order := s.order, va := BitVec.ofInt 80 ea, size := 8, scope := 0,
             dest := if d = 0 then none else some (s.bk.regS d.toNat), st := .performed }
         let failed : State := s.modBk fun k => { k with
           spec := some { r with failed := true }, nextId := k.nextId + 1, accs := k.accs ++ [x],
           pend := if d = 0 then k.pend else k.pend ++ [s.bk.regS d.toNat] }
         (ea % 8 ≠ 0 → exec (.ldD g d aa imm) s = .next failed) ∧
         (∀ t, ea % 8 = 0 → s.translate (BitVec.ofInt 80 ea) (needOf 1 8) (!s.bk.priv) = .failed t → t.code ≠ 0x10 →
           exec (.ldD g d aa imm) s = .next failed) ∧
         (∀ t, ea % 8 = 0 → s.translate (BitVec.ofInt 80 ea) (needOf 1 8) (!s.bk.priv) = .failed t → t.code = 0x10 →
           exec (.ldD g d aa imm) s = .next (failed.modBk fun k => { k with walkErr := none })))) ∧
     (s.bk.guarded = true → s.bk.spec = none →
       (s.bk.staged.length < 256 → stores fun x => s.modBk fun k => { k with nextId := k.nextId + 1, staged := k.staged ++ [x] }) ∧
       (s.bk.inSpec = false →
         let refused (op : Nat) := s.settle (.trap { code := 0x19, info := BitVec.ofNat 64 op })
         (∀ p ∈ ([(.aadd g d aa b ord sc off, 0x74), (.aand g d aa b ord sc off, 0x75), (.aor g d aa b ord sc off, 0x76),
             (.axor g d aa b ord sc off, 0x77), (.amin g d aa b ord sc off, 0x78), (.amax g d aa b ord sc off, 0x79),
             (.axchg g d aa b ord sc off, 0x7A), (.acas g d aa b ord sc off, 0x7B), (.ldscD g d aa off, 0x6D), (.stscD g aa b off, 0x6E),
             (.qbind g n aa, 0x80)] : List (Instr × Nat)), exec p.1 s = refused p.2) ∧
         (s.bk.priv = true → s.bk.owed = none →
           ∀ p ∈ ([(.jbegin g d, 0xA5), (.jwrite g a b, 0xA6), (.jcommit g, 0xA7), (.jabort g, 0xA8), (.wake g a, 0xAA)] :
             List (Instr × Nat)), exec p.1 s = refused p.2)))) ∧
  -- forwarding: the bytes of a held store that covers a load
  (∀ (s : State) (c p id : Nat) (a x : Acc) (r : Spec) (sg : Bool), (s.bank c p).spec = some r →
     (x ∈ r.held → x.kind = .store → x.st = .queued → x.mmio = false → x.id < a.id → x.shares a = true → x ∈ (s.bank c p).forwards a) ∧
     (s.CanPerform c p id a → a.kind = .load sg → 1 ≤ a.size → a.size ≤ 8 → (s.bank c p).forwards a = [x] → x.pa ≤ a.pa →
       a.pa + a.size ≤ x.pa + x.size → ∃ t a', exec .accessPerform s = .next t ∧ (t.bank c p).acc? id = some a' ∧ a'.st = .performed ∧
         (∀ n, n = x.data / 256 ^ (a.pa - x.pa) % 256 ^ a.size →
           a'.val = if sg then ((BitVec.ofNat (8 * a.size) n).signExtend 64).toNat else n) ∧
         ∀ y, t.byteAt y = s.byteAt y))

/-- Trap entry (R22, R25): CAUSE, EPC, EINFO, EADDR and EADDRH are written, SPV keeps PRIV, PRIV and EXL are set, the owed target of a
delay bundle is saved with DLY, WSH and WDIR, and issue resumes at TVEC; for a transfer that was not taken ETGT is the address that follows
its delay bundles in sequence. UE_CONSUMED enters so where the task neither holds its guard nor has lost it (R301). No other register and no
memory changes. -/
def Obligations.TrapEntrySavesAndVectors : Prop :=
  ∀ (s : State) (c p : Nat) (t : Trap) (epc : Word), t.code < 256 → t.slot < 8 →
    let b := s.bank c p
    (t.code ≠ 0x18 ∨ (b.guarded = false ∧ b.status 9 = false)) → b.exl = false → b.flight = [] → b.spec = none →
    let s' := s.takeTrap c p t epc
    let b' := s'.bank c p
    (b'.csrAt 0x001).extractLsb' 0 8 = BitVec.ofNat 8 t.code ∧ (b'.csrAt 0x001).extractLsb' 8 3 = BitVec.ofNat 3 t.slot ∧
    b'.csrAt 0x002 = epc ∧ b'.csrAt 0x003 = t.info ∧ b'.csrAt 0x004 = t.addr.extractLsb' 0 64 ∧
    b'.csrAt 0x005 = (t.addr.extractLsb' 64 16).setWidth 64 ∧
    b'.status 15 = b.priv ∧ b'.priv = true ∧ b'.exl = true ∧ (∀ n, n < 64 → n ≠ 13 → n ≠ 14 → n ≠ 15 → b'.status n = b.status n) ∧
    ((b.csrAt 0x006).getLsbD 0 = false → b'.pc = b.csrAt 0x006) ∧ b'.owed = none ∧
    (b.owed = none → b'.csrAt 0x007 = b.csrAt 0x007 ∧ (b'.csrAt 0x001).extractLsb' 11 4 = 0) ∧
    (∀ o tgt, b.owed = some o → o.target = some tgt → o.left < 4 → b'.csrAt 0x007 = tgt ∧
      (b'.csrAt 0x001).extractLsb' 11 2 = BitVec.ofNat 2 o.left ∧ (b'.csrAt 0x001).getLsbD 13 = o.shift.isSome ∧
      (b'.csrAt 0x001).getLsbD 14 = (o.shift == some true)) ∧
    (∀ o, b.owed = some o → o.target = none → o.left < 4 → b'.csrAt 0x007 = s.seqAfter c p o.left epc ∧
      (b'.csrAt 0x001).extractLsb' 11 2 = BitVec.ofNat 2 o.left ∧ (b'.csrAt 0x001).extractLsb' 13 2 = 0) ∧
    (∀ k, 8 ≤ k → b'.csrAt k = b.csrAt k) ∧ b'.csrAt 0x006 = b.csrAt 0x006 ∧
    b'.s = b.s ∧ b'.a = b.a ∧ b'.p = b.p ∧ b'.k = b.k ∧ b'.cd = b.cd ∧ b'.q = b.q ∧ b'.pend = b.pend ∧ b'.accs = b.accs ∧
    s'.mem = s.mem ∧ (∀ c' p', c' ≠ c ∨ p' ≠ p → s'.bank c' p' = s.bank c' p')

/-- When entry waits, and when there is none: with exposed results in flight the trap is kept, and TRAP_ENTRY enters it once they have
landed (R22); a trap with EXL set is a double trap, which terminates the context with the second cause (R23); a region is rolled back
first, and EPC takes the recovery address (R88). -/
def Obligations.TrapsWaitDoubleAndRollBack : Prop :=
  ∀ (s : State) (c p : Nat) (t : Trap) (epc : Word), t.code ≠ 0x18 →
    let b := s.bank c p
    (b.exl = true → s.takeTrap c p t epc = s.terminate b.ctx t.code) ∧
    (b.exl = false → b.flight ≠ [] → s.takeTrap c p t epc = s.modBank c p fun b => { b with entry := some (t, epc), wait := none }) ∧
    (s.ev.core = c → s.ev.pos = p → b.entry = some (t, epc) → b.flight = [] → b.spec = none →
      exec .trapEntry s = .next (s.enterTrap c p t epc)) ∧
    (s.ev.core = c → s.ev.pos = p → b.entry = some (t, epc) → b.flight ≠ [] → exec .trapEntry s = .next s) ∧
    (∀ r, b.exl = false → b.flight = [] → b.spec = some r →
      b.accs.all (fun a => decide (a.order < r.order) || a.dest.isNone) = true →
      let b' := (s.takeTrap c p t epc).bank c p
      b'.csrAt 0x002 = r.recover ∧ b'.spec = none ∧ b'.inSpec = false ∧ b'.s = r.s ∧ b'.a = r.a ∧ b'.p = r.p ∧ b'.owed = none ∧
      b'.csrAt 0x007 = b.csrAt 0x007)

/-- TRAP (R28): where the guard holds, Trap(TRAP_INSTR, ZeroExt(IMM, 17)) is taken at the TRAP bundle itself. (In a delay bundle TRAP is
illegal: the last clause.) -/
def Obligations.TrapInstructionTraps : Prop :=
  ∀ (g : Guard) (imm : BitVec 17) (s : State), s.guard g = true →
    (s.bk.owed = none →
      exec (.trap g imm) s = .next { s.takeTrap s.cur.core s.cur.pos { code := 0x1E, info := imm.setWidth 64, slot := s.cur.slot } s.cur.pc with
        mark := .trapped { code := 0x1E, info := imm.setWidth 64, slot := s.cur.slot } }) ∧
    encodeSFields (.trap g imm) = some (.of 0x4F g 0 0 0 imm) ∧
    (s.bk.owed.isSome = true → exec (.trap g imm) s = s.settle (.trap { code := 0x02, info := 0x4F, decode := true }))

/-- ERET (R29): PRIV takes SPV, EXL is cleared, the strand goes to EPC, and with CAUSE.DLY ≠ 0 the owed target ETGT and the window shift
of CAUSE.WSH and WDIR are owed again. An odd target raises ALIGN at the ERET (R43).
In user mode it raises PRIV; in supervisor mode with EXL = 0 ILLEGAL_OPCODE. -/
def Obligations.EretReturns : Prop :=
  ∀ (g : Guard) (s : State), s.guard g = true →
    let b := s.bk
    let cause := b.csrAt 0x001
    (b.priv = true → b.exl = true → b.owed = none → b.inSpec = false → (b.csrAt 0x002).getLsbD 0 = false →
      (cause.extractLsb' 11 2 = 0 ∨ (b.csrAt 0x007).getLsbD 0 = false) → ∃ t, exec (.eret g) s = .next t ∧
      t.bk.priv = b.status 15 ∧ t.bk.exl = false ∧ (∀ n, n < 64 → n ≠ 13 → n ≠ 14 → t.bk.status n = b.status n) ∧
      t.bk.go = some (b.csrAt 0x002) ∧
      (cause.extractLsb' 11 2 = 0 → t.bk.owed = none) ∧
      (cause.extractLsb' 11 2 ≠ 0 → t.bk.owed = some ⟨some (b.csrAt 0x007), (cause.extractLsb' 11 2).toNat,
        if cause.getLsbD 13 then some (cause.getLsbD 14) else none⟩) ∧
      (∀ k, k ≠ 0 → t.bk.csrAt k = b.csrAt k) ∧ t.bk.s = b.s ∧ t.bk.a = b.a ∧ t.bk.p = b.p ∧ t.bk.flight = b.flight ∧ t.mem = s.mem) ∧
    (b.priv = true → b.exl = true → b.owed = none → b.inSpec = false → (b.csrAt 0x002).getLsbD 0 = true →
      exec (.eret g) s = s.settle (.trap { code := 0x06, info := 2, addr := (b.csrAt 0x00B).setWidth 16 ++ b.csrAt 0x002 })) ∧
    (b.priv = true → b.exl = true → b.owed = none → b.inSpec = false → (b.csrAt 0x002).getLsbD 0 = false → cause.extractLsb' 11 2 ≠ 0 →
      (b.csrAt 0x007).getLsbD 0 = true →
      exec (.eret g) s = s.settle (.trap { code := 0x06, info := 2, addr := (b.csrAt 0x00B).setWidth 16 ++ b.csrAt 0x007 })) ∧
    (b.priv = false → exec (.eret g) s = s.settle (.trap { code := 0x05, info := 0xA2, decode := true })) ∧
    (b.priv = true → b.exl = false → b.owed = none → b.inSpec = false →
      exec (.eret g) s = s.settle (.trap { code := 0x02, info := 0xA2, decode := true })) ∧
    encodeSFields (.eret g) = some (.of 0xA2 g 0 0 0 0)

/-- CSRR and CSRW (R14, R26, R27): a read writes the register's value in force at issue; a write changes, at the end of its clk, exactly
the bits that the mode in force may change. In user mode an index from 0x100 to 0x1FF raises PRIV, and so does a write of a register
that holds SW fields and no RW or ST field; an index that no table assigns raises ILLEGAL_OPCODE. When a write lands, the bits of the mask
take the value written, the others keep theirs, and no other register changes; STATUS keeps its RO fields in either mode (R16). VLIM, SEMLIM,
DLEN and LGGRACE store at most 2,048, 256, 4,096 and 1,000 (R47, R91, R356; what counts as a larger value is log 65's), every other register
the value written. -/
def Obligations.ControlRegisterAccess : Prop :=
  (∀ (g : Guard) (d a : BitVec 6) (idx : BitVec 12) (s : State), s.guard g = true →
     let b := s.bk
     let i := idx.toNat
     let trap (code op : Nat) (csr : Nat) := s.settle (.trap { code := code, info := BitVec.ofNat 64 (op + csr * 65536), decode := true })
     let denied := 0x100 ≤ i ∧ i ≤ 0x1FF ∧ b.priv = false
     (denied → exec (.csrr g d idx) s = trap 0x05 0xA0 i ∧ exec (.csrw g a idx) s = trap 0x05 0xA1 i) ∧
     (¬denied → csrMasks i = none → exec (.csrr g d idx) s = trap 0x02 0xA0 0 ∧ exec (.csrw g a idx) s = trap 0x02 0xA1 0) ∧
     (¬denied → (csrMasks i).isSome = true → b.status 7 = false → (∀ t, b.task = some t → t.replay = false) →
       exec (.csrr g d idx) s = .next (s.landS d (s.csrRead i) 1)) ∧
     (∀ rw sw, ¬denied → csrMasks i = some (rw, sw) → b.inSpec = false →
       (b.priv = true ∨ rw ≠ 0 ∨ sw = 0 → ∃ t, exec (.csrw g a idx) s = .next t ∧
         t.bk.flight = b.flight ++ [⟨s.clk + (if s.tripled then 2 else 0), s.order,
           .csr i (csrClamp i (s.sr a)) (if b.priv then rw ||| sw else rw), 0, false⟩] ∧
         t.bk.csr = b.csr ∧ t.bk.s = b.s ∧ t.bk.a = b.a ∧ t.bk.p = b.p ∧ t.mem = s.mem) ∧
       (b.priv = false → rw = 0 → sw ≠ 0 → exec (.csrw g a idx) s = trap 0x05 0xA1 i))) ∧
  ((∀ (s : State) (c p i due n : Nat) (v m : Word), (s.bank c p).flight = [⟨due, n, .csr i v m, 0, false⟩] → due ≤ s.clk →
     i ≠ 0x120 → i ≠ 0x130 → i ≠ 0x062 →
     let b := s.bank c p
     let t := s.landDue c p
     let b' := t.bank c p
     (∀ k, k < 64 → (b'.csrAt i).getLsbD k = if m.getLsbD k then v.getLsbD k else (b.csrAt i).getLsbD k) ∧
     (∀ j, j ≠ i → b'.csrAt j = b.csrAt j) ∧ b'.s = b.s ∧ b'.a = b.a ∧ b'.p = b.p ∧ t.mem = s.mem) ∧
   (∀ (i : Nat) (v : Word),
     (i = 0x011 → csrClamp i v = if 2048 < (v.extractLsb' 0 12).toNat then 2048 else v) ∧
     (i = 0x013 → csrClamp i v = if 256 < (v.extractLsb' 0 9).toNat then 256 else v) ∧
     (i = 0x016 → csrClamp i v = if 4096 < v.toNat then 4096 else v) ∧
     (i = 0x130 → csrClamp i v = if 1000 < v.toNat then 1000 else v) ∧
     (i ≠ 0x011 → i ≠ 0x013 → i ≠ 0x016 → i ≠ 0x130 → csrClamp i v = v)) ∧
   (∀ k, k < 64 → ((csrMasks 0).getD (0, 0)).1.getLsbD k = (k == 0 || k == 1 || k == 12)) ∧
   (∀ k, k < 64 → ((csrMasks 0).getD (0, 0)).2.getLsbD k = (k == 13 || k == 14 || k == 15)))

/-- The privileged opcodes 0xA2 to 0xAB raise PRIV in user mode, with the opcode in EINFO, and nothing else is done (R51). -/
def Obligations.PrivilegedOpcodesTrapInUserMode : Prop :=
  ∀ (i : Instr) (f : SFields) (s : State), encodeSFields i = some f → 0xA2 ≤ f.op.toNat → f.op.toNat ≤ 0xAB →
    s.guard ⟨f.pg, f.pn⟩ = true → s.bk.priv = false →
    exec i s = s.settle (.trap { code := 0x05, info := f.op.setWidth 64, decode := true })

/-- UIRET (R98), PHASE (R295) and SWAP (R94). UIRET leaves the handler: INUI is cleared, the interrupted s48-s63 come back, and the strand
goes to UIPC after one idle clk. PHASE sets EXP and COUNT at the end of its clk. SWAP starts the exchange of a position with the shadow
bank: it takes the 16 clk that follow, and is over from clk c + 17 on (R94). -/
def Obligations.UiretPhaseAndSwap : Prop :=
  ∀ (g : Guard) (a : BitVec 6) (n : BitVec 2) (s : State), s.guard g = true →
    let b := s.bk
    (b.owed = none → b.inSpec = false → b.inui = true → b.flight = [] → b.accs = [] → ∃ t, exec (.uiret g) s = .next t ∧
      t.bk.inui = false ∧ t.bk.shadow = none ∧ t.bk.go = some (b.csrAt 0x021) ∧ t.bk.s = b.s ∧ t.bk.a = b.a ∧ t.bk.p = b.p ∧
      s.clk + 2 ≤ t.cr.issue.hold ∧ t.mem = s.mem) ∧
    (b.owed = none → b.inSpec = false → b.inui = false →
      exec (.uiret g) s = s.settle (.trap { code := 0x02, info := 0x50, decode := true })) ∧
    exec (.phase g a) s = .next ((s.landCsr 0x029 (((s.sr a).extractLsb' 0 32).setWidth 64) (BitVec.allOnes 64)).landCsr 0x028 0
      (BitVec.allOnes 64)) ∧
    (b.priv = true → b.Plain → s.cr.issue.exch = none → (s.bank s.cur.core n.toNat).accs = [] → (s.bank s.cur.core n.toNat).q = [] →
      (∀ d, d < 4 → (s.die d).rtab = []) →
      ∃ t, exec (.swap g n) s = .next t ∧
      t.cr.issue.exch = some (n.toNat, s.clk + 17) ∧ t.mem = s.mem) ∧
    (b.priv = true → b.owed = none → b.inSpec = false → b.guarded = true →
      exec (.swap g n) s = s.settle (.trap { code := 0x19, info := 0xA3 }))

/-! ### Global memory -/

/-- The checks of an effective address, in order (R238): outside 0 to 2^80 − 1 ADDR_OVERFLOW with EINFO 1, then ALIGN with EINFO the
access size and EADDR the address. Stated for each load, store, ordered form and atomic, in every order and scope, and for CDLD, whose
address is a multiple of 16 (R155); nothing else is done. -/
def Obligations.AddressChecksComeFirst : Prop :=
  ∀ (g : Guard) (d b : BitVec 6) (aa : BitVec 4) (n : BitVec 5) (imm : BitVec 17) (ord sc : BitVec 3) (off : BitVec 11) (s : State),
    s.guard g = true → s.Plain →
    let base : Int := (s.ar aa).toNat
    let plain : List (Instr × Nat) := [(.ldB g d aa imm, 1), (.ldBu g d aa imm, 1), (.ldH g d aa imm, 2), (.ldHu g d aa imm, 2),
      (.ldW g d aa imm, 4), (.ldWu g d aa imm, 4), (.ldD g d aa imm, 8), (.stB g aa b imm, 1), (.stH g aa b imm, 2), (.stW g aa b imm, 4),
      (.stD g aa b imm, 8), (.cdld g n aa imm, 16)]
    let ordered : List (Instr × Nat) := [(.ldaD g d aa sc off, 8), (.stlD g aa b sc off, 8), (.ldscD g d aa off, 8), (.stscD g aa b off, 8),
      (.aadd g d aa b ord sc off, 8), (.aand g d aa b ord sc off, 8), (.aor g d aa b ord sc off, 8), (.axor g d aa b ord sc off, 8),
      (.amin g d aa b ord sc off, 8), (.amax g d aa b ord sc off, 8), (.axchg g d aa b ord sc off, 8), (.acas g d aa b ord sc off, 8)]
    ∀ i size ea, ((i, size) ∈ plain ∧ ea = base + imm.toInt) ∨ ((i, size) ∈ ordered ∧ ea = base + off.toInt) →
      (ea < 0 ∨ 2 ^ 80 ≤ ea → exec i s = s.settle (.trap { code := 0x1F, info := 1 })) ∧
      (0 ≤ ea → ea < 2 ^ 80 → ea % (size : Int) ≠ 0 →
        exec i s = s.settle (.trap { code := 0x06, info := BitVec.ofNat 64 size, addr := BitVec.ofInt 80 ea }))

/-- Loads of local memory (R18, R238, R239, R242, R250): with their translation at hand they join the load queue, their destination
becomes pending (none for s0), and nothing else changes. LDA.D is an acquire with its scope, LDSC.D an SC load of package scope. -/
def Obligations.LoadsJoinTheirQueue : Prop :=
  ∀ (g : Guard) (d : BitVec 6) (aa : BitVec 4) (imm : BitVec 17) (sc : BitVec 3) (off : BitVec 11) (pa : Nat) (s : State),
    s.guard g = true → s.Plain →
    let base : Int := (s.ar aa).toNat
    let dest := if d = 0 then none else some (s.bk.regS d.toNat)
    let load (ea : Int) (size : Nat) (signed : Bool) (ord scope : Nat) : Host.Outcome State Fault Refusal :=
      .next (s.joins { id := 0, kind := .load signed, order := 0, va := BitVec.ofInt 80 ea, pa := pa, size := size, ord := ord, scope := scope,
                       dest := dest })
    let e := base + imm.toInt
    let eo := base + off.toInt
    (s.Reaches e 1 1 1 pa → exec (.ldB g d aa imm) s = load e 1 true 0 0 ∧ exec (.ldBu g d aa imm) s = load e 1 false 0 0) ∧
    (s.Reaches e 2 2 1 pa → exec (.ldH g d aa imm) s = load e 2 true 0 0 ∧ exec (.ldHu g d aa imm) s = load e 2 false 0 0) ∧
    (s.Reaches e 4 4 1 pa → exec (.ldW g d aa imm) s = load e 4 true 0 0 ∧ exec (.ldWu g d aa imm) s = load e 4 false 0 0) ∧
    (s.Reaches e 8 8 1 pa → exec (.ldD g d aa imm) s = load e 8 false 0 0) ∧
    (s.Reaches eo 8 8 1 pa → exec (.ldaD g d aa sc off) s = load eo 8 false 1 sc.toNat ∧ exec (.ldscD g d aa off) s = load eo 8 false 4 4)

/-- Stores and atomics of local memory, fences and markers (R236, R238, R239, R242-R245, R250, R252): with their translation at hand they
join the store queue with the operands read at issue (an atomic the values of s[B] and s[D], its destination pending), and nothing else
changes; FENCE, LSMARK and EFENCE join both queues as markers. PREF writes no register and never traps. -/
def Obligations.StoresAtomicsAndFencesJoinTheirQueue : Prop :=
  ∀ (g : Guard) (d b : BitVec 6) (aa : BitVec 4) (imm : BitVec 17) (ord sc : BitVec 3) (off : BitVec 11) (pa : Nat) (s : State),
    s.guard g = true → s.Plain →
    let base : Int := (s.ar aa).toNat
    let store (ea : Int) (size ord scope : Nat) : Host.Outcome State Fault Refusal :=
      .next (s.joins { id := 0, kind := .store, order := 0, va := BitVec.ofInt 80 ea, pa := pa, size := size, ord := ord, scope := scope,
                       data := (s.sr b).toNat % 2 ^ (8 * size) })
    let atomic (op : Nat) : Host.Outcome State Fault Refusal :=
      .next (s.joins { id := 0, kind := .atomic op, order := 0, va := BitVec.ofInt 80 (base + off.toInt), pa := pa, size := 8,
                       ord := ord.toNat, scope := sc.toNat, data := (s.sr b).toNat, aux := (s.sr d).toNat,
                       dest := if d = 0 then none else some (s.bk.regS d.toNat) })
    let e := base + imm.toInt
    let eo := base + off.toInt
    (s.Reaches e 1 1 2 pa → exec (.stB g aa b imm) s = store e 1 0 0) ∧ (s.Reaches e 2 2 2 pa → exec (.stH g aa b imm) s = store e 2 0 0) ∧
    (s.Reaches e 4 4 2 pa → exec (.stW g aa b imm) s = store e 4 0 0) ∧ (s.Reaches e 8 8 2 pa → exec (.stD g aa b imm) s = store e 8 0 0) ∧
    (s.Reaches eo 8 8 2 pa → exec (.stlD g aa b sc off) s = store eo 8 2 sc.toNat ∧ exec (.stscD g aa b off) s = store eo 8 4 4) ∧
    (s.Reaches eo 8 8 3 pa →
      exec (.aadd g d aa b ord sc off) s = atomic 0 ∧ exec (.aand g d aa b ord sc off) s = atomic 1 ∧
      exec (.aor g d aa b ord sc off) s = atomic 2 ∧ exec (.axor g d aa b ord sc off) s = atomic 3 ∧
      exec (.amin g d aa b ord sc off) s = atomic 4 ∧ exec (.amax g d aa b ord sc off) s = atomic 5 ∧
      exec (.axchg g d aa b ord sc off) s = atomic 6 ∧ exec (.acas g d aa b ord sc off) s = atomic 7) ∧
    exec (.fence g ord sc) s = .next (s.joins { id := 0, kind := .fence, order := 0, ord := ord.toNat, scope := sc.toNat }) ∧
    exec (.lsmark g) s = .next (s.joins { id := 0, kind := .lsmark, order := 0 }) ∧
    exec (.efence g) s = .next ((s.joins { id := 0, kind := .efence, order := 0 }).modBk fun b =>
      { b with old := [], fenced := (b.fenced ++ b.old.map (·.1)).eraseDups }) ∧
    (∃ t, exec (.pref g aa imm) s = .next t ∧ t.bk = s.bk ∧ t.mark = s.mark)

/-- A store to local memory performs (R5, R235): exactly its bytes change, the lowest first, and are visible to every agent at once; every
other byte of memory reads as before, no register changes, and the store leaves its queue. A load (R235, R236, R239), with no earlier store
of its strand to forward from, reads its bytes at that instant, sign- or zero-extended; memory and registers do not change. An atomic
(R243): one event reads the old value, which it will return, and writes f(old, s[B], s[D]); no other byte changes. -/
def Obligations.AccessesPerform : Prop :=
  (∀ (s : State) (c p id : Nat) (a : Acc), s.CanPerform c p id a → a.kind = .store → ∃ t, exec .accessPerform s = .next t ∧
     (∀ x, t.byteAt x = if a.pa ≤ x ∧ x < a.pa + a.size then BitVec.ofNat 8 (a.data / 256 ^ (x - a.pa)) else s.byteAt x) ∧
     (t.bank c p).acc? id = none ∧
     (t.bank c p).s = (s.bank c p).s ∧ (t.bank c p).a = (s.bank c p).a ∧ (t.bank c p).p = (s.bank c p).p ∧
     (t.bank c p).csr = (s.bank c p).csr ∧ (t.bank c p).pend = (s.bank c p).pend ∧ (t.bank c p).pc = (s.bank c p).pc ∧
     (∀ c' p', c' ≠ c ∨ p' ≠ p → t.bank c' p' = s.bank c' p')) ∧
  (∀ (s : State) (c p id : Nat) (a : Acc) (signed : Bool), s.CanPerform c p id a → a.kind = .load signed → a.aux = 0 → 1 ≤ a.size → a.size ≤ 8 →
     (s.bank c p).forwards a = [] → s.bad a.pa a.size = false → ∃ t a', exec .accessPerform s = .next t ∧
     (t.bank c p).acc? id = some a' ∧ a'.st = .performed ∧ a'.ue = false ∧ a'.dest = a.dest ∧
     (∀ n, n = natOfBytes ((List.range a.size).map fun i => s.byteAt (a.pa + i)) →
       a'.val = if signed then (BitVec.ofNat (8 * a.size) n).signExtend 64 |>.toNat else n) ∧
     (∀ x, t.byteAt x = s.byteAt x) ∧ (t.bank c p).s = (s.bank c p).s ∧ (t.bank c p).pend = (s.bank c p).pend ∧
     (t.bank c p).csr = (s.bank c p).csr) ∧
  (∀ (s : State) (c p id : Nat) (a : Acc) (op : Nat), s.CanPerform c p id a → a.kind = .atomic op → s.bad a.pa 8 = false → a.size = 8 →
     let old : Word := BitVec.ofNat 64 (natOfBytes ((List.range 8).map fun i => s.byteAt (a.pa + i)))
     let b : Word := BitVec.ofNat 64 a.data
     let d : Word := BitVec.ofNat 64 a.aux
     ∀ new : Word,
       (op = 0 ∧ new = old + b) ∨ (op = 1 ∧ new = old &&& b) ∨ (op = 2 ∧ new = old ||| b) ∨ (op = 3 ∧ new = old ^^^ b) ∨
       (op = 4 ∧ new = if b.slt old then b else old) ∨ (op = 5 ∧ new = if old.slt b then b else old) ∨ (op = 6 ∧ new = b) ∨
       (op = 7 ∧ new = if old = d then b else old) →
     ∃ t a', exec .accessPerform s = .next t ∧
       (∀ x, t.byteAt x = if a.pa ≤ x ∧ x < a.pa + 8 then new.extractLsb' (8 * (x - a.pa)) 8 else s.byteAt x) ∧
       (t.bank c p).acc? id = some a' ∧ a'.st = .performed ∧ a'.val = old.toNat ∧ a'.dest = a.dest ∧
       (t.bank c p).s = (s.bank c p).s ∧ (t.bank c p).csr = (s.bank c p).csr)

/-- A delivery (R18, R20, R155, R269, R273, R81): the destination takes the value and stops being pending, the operation leaves its queue, and
no other register and no memory changes. A load, an atomic, DEQ, GCOUNT and LGWAIT write a scalar register; DEQT writes its element to the
scratchpad as well; CDLD writes bytes of a descriptor register, a window fill half a frame, a refill its latch. -/
def Obligations.DeliveryWritesTheDestination : Prop :=
  ∀ (s : State) (c p id : Nat) (a : Acc), s.ev.core = c → s.ev.pos = p → s.ev.id = id → (s.bank c p).acc? id = some a →
    a.kind.delivers = true → (s.bank c p).mayDeliver a = true →
    (s.bank c p).accs.all (fun x => x.id == id || x.dest.isNone || x.dest != a.dest) = true → a.st = .performed → a.err = none →
    a.ue = false → a.given = false → (s.bank c p).spec = none →
    (s.bank c p).status 7 = false → (∀ k, (s.bank c p).task = some k → k.replay = false) → s.isFrozen c = false →
    let b := s.bank c p
    ∃ t, exec .interlockedDelivery s = .next t ∧
    let b' := t.bank c p
    b'.pend = b.pend.filter (fun r => some r != a.dest) ∧ b'.acc? id = none ∧
    b'.a = b.a ∧ b'.p = b.p ∧ b'.k = b.k ∧ b'.csr = b.csr ∧ t.mem = s.mem ∧ (t.core c).vfile = (s.core c).vfile ∧
    (t.core c).accum = (s.core c).accum ∧ (∀ c' p', c' ≠ c ∨ p' ≠ p → t.bank c' p' = s.bank c' p') ∧
    (a.kind ≠ .deqt → (t.core c).scratch = (s.core c).scratch) ∧ ((∀ n, a.kind ≠ .cdld n) → b'.cd = b.cd) ∧
    ((∀ n, a.kind ≠ .refill n) → b'.q = b.q) ∧
    (∀ i, a.wide = false ∨ a.kind = .deqt → a.dest = some (.s i) →
      mapGet (fun _ => 0) b'.s i = BitVec.ofNat 64 a.val ∧
      ∀ j, j ≠ i → mapGet (fun _ => 0) b'.s j = mapGet (fun _ => 0) b.s j) ∧
    (a.dest = none → a.kind ≠ .fill → b'.s = b.s) ∧
    (a.kind = .deqt → ∀ x, mapGet (fun _ => 0) (t.core c).scratch x =
      if a.aux ≤ x ∧ x < a.aux + a.size then BitVec.ofNat 8 (a.data / 256 ^ (x - a.aux)) else mapGet (fun _ => 0) (s.core c).scratch x) ∧
    (∀ n, a.kind = .cdld n → a.dest = some (.cd n) → a.aux + a.size ≤ 128 → b'.s = b.s ∧
      (∀ k, k < 128 → (b'.cdget n).extractLsb' (8 * k) 8 =
        if a.aux ≤ k ∧ k < a.aux + a.size then BitVec.ofNat 8 (a.val / 256 ^ (k - a.aux)) else (b.cdget n).extractLsb' (8 * k) 8) ∧
      ∀ m, m ≠ n → b'.cdget m = b.cdget m) ∧
    (a.kind = .fill → a.size = 64 →
      let r := 16 + 16 * (a.aux / 2 % 15) + 8 * (a.aux % 2)
      ∀ x, mapGet (fun _ => 0) b'.s x =
        if r ≤ x ∧ x < r + 8 then BitVec.ofNat 64 (a.val / 2 ^ (64 * (x - r))) else mapGet (fun _ => 0) b.s x) ∧
    (∀ n, a.kind = .refill n → a.dest = some (.q n) → a.val < 2 ^ (8 * a.size) → b'.s = b.s ∧
      b'.qget n = { b.qget n with full := true, elem := a.val, esize := a.size, held := false } ∧
      ∀ m, m ≠ n → b'.qget m = b.qget m)

/-! ### Memory and reset -/

/-- Memory (R5, R221): a read sees the bytes last written and every other byte as before; a write keeps the canonical form, in which equal
memories are equal data (log 3: what an unlisted byte reads as is the model's choice). -/
def Obligations.MemoryReadsWhatWasWritten : Prop :=
  (∀ (s : State) (pa : Nat) (v : List Byte) (x : Nat),
    (s.putMem pa v).byteAt x = if pa ≤ x ∧ x < pa + v.length then v.getD (x - pa) 0 else s.byteAt x) ∧
  (∀ (s : State) (pa n : Nat), s.memBytes pa n = (List.range n).map fun i => s.byteAt (pa + i)) ∧
  (∀ (s : State) (pa : Nat) (v : List Byte), s.MemOk → (s.putMem pa v).MemOk) ∧
  (∀ s t : State, s.MemOk → t.MemOk → (∀ a, s.byteAt a = t.byteAt a) → s.mem = t.mem)

/-- What reset leaves (R14, R171, R189, R225, R324, R330): memory in its canonical form with nothing listed, no task on any strand, MGAMMA 1.0, every other
CSR of a strand zero (R14, and for EPC, EINFO, EADDR, TVEC, ETGT and CODEHI, which have no reset value, log 2), LGGRACE of the package 50
(R356), every soft limit 0x8_0000 lines, the four dies held, every cluster Off (log 4), entry 0 of each firewall table for world 0 (its bits
are log 50's), the clk 0; that a byte nothing has written reads 0 is log 3's. -/
def Obligations.ResetState : Prop :=
  State.reset.MemOk ∧ (∀ a, State.reset.byteAt a = 0) ∧
  (∀ c p, (State.reset.bank c p).task = none ∧ (State.reset.bank c p).csrAt 0x038 = 0x3F800000 ∧
    (∀ i, i ≠ 0x038 → (State.reset.bank c p).csrAt i = 0)) ∧ State.reset.pkg.grace = 50 ∧
  (∀ k, (State.reset.cluster k).power = .off) ∧
  (∀ d, (State.reset.die d).state = .held ∧ (∀ i, mapGet limReset (State.reset.die d).lim i = 0x80000) ∧
    (State.reset.die d).fwAt 0 = (3, 0x1FFFFFFF000) ∧ ∀ i, i ≠ 0 → (State.reset.die d).fwAt i = (0, 0)) ∧
  State.reset.clk = 0

/-- The invariant of memory: every step keeps the canonical form, whatever the state. -/
def Obligations.StepKeepsMemoryCanonical : Prop :=
  ∀ s t : State, s.MemOk → step s = .next t → t.MemOk

/-! ### Header actions, semaphores, latches -/

/-- GAP (R34) and CRIT (R100) hold the core's issue back, and change nothing else of the strand; POP of an unbound latch does nothing, POP of
a bound latch releases its element and sends a refill (R273), and in a region it is refused as a queue operation (R86, log 65: its EINFO);
in a guarded task a POP raises GUARD_OVERFLOW (R298; its EINFO 0 and slot 7 are log 46's). QRD and VQRD read a
latch as it stands before the bundle's own POP, QBIND and QUNB (R32, R72, R274), zero beyond the element and where the latch is unbound;
QBIND binds the latch and sends its refill, QUNB of an unbound latch changes none (R272). -/
def Obligations.HeaderActionsAndLatches : Prop :=
  (∀ (s : State),
     (∀ n : BitVec 4, ∃ t, exec (.gap n) s = .next t ∧ t.cr.issue.hold = max s.cr.issue.hold (s.clk + 1) + n.toNat ∧ t.bk = s.bk ∧
       t.mem = s.mem ∧ t.cur = s.cur) ∧
     (∀ m : BitVec 4, m ≠ 0 → ∃ t, exec (.crit m) s = .next t ∧ t.cur = { s.cur with crit := m } ∧
       t.cr.issue.hold = max s.cr.issue.hold (s.clk + 3) ∧ t.bk = s.bk ∧ t.mem = s.mem) ∧
     (∀ n, n < 16 → s.bk.guarded = false → (s.bk.qget n).bound = false → ∃ t, exec (.pop (1 <<< n)) s = .next t ∧
       t.bk.accs = s.bk.accs ∧ t.bk.q = s.bk.q ∧ t.bk.pend = s.bk.pend ∧ t.mem = s.mem) ∧
     (∀ n, n < 16 → s.bk.guarded = false → s.bk.spec = none → s.bk.inSpec = false → (s.bk.qget n).bound = true →
       (tlbFind s.cr.tlb s.bk.ctx (s.bk.qget n).va (needOf 3 64) (!s.bk.priv)).any
         (fun e => e.peer.isNone && s.answers e (s.bk.qget n).va (needOf 3 64) && blockable (e.at (s.bk.qget n).va)) = true →
       ∃ t, exec (.pop (1 <<< n)) s = .next t ∧
       t.bk.accs.map (·.kind) = s.bk.accs.map (·.kind) ++ [.pop n, .refill n] ∧ (t.bk.qget n).bound = true ∧ (t.bk.qget n).full = false ∧
       t.bk.pend.contains (.q n) = true ∧ (∀ k, k ≠ n → t.bk.qget k = s.bk.qget k) ∧ t.mem = s.mem) ∧
     (∀ n, n < 16 → s.bk.inSpec = true → (s.bk.qget n).bound = true →
       exec (.pop (1 <<< n)) s = s.settle (.trap { code := 0x02, info := 0, slot := 7, decode := true })) ∧
     (∀ m : BitVec 16, s.bk.inSpec = false → s.bk.guarded = true → m ≠ 0 →
       exec (.pop m) s = s.settle (.trap { code := 0x19, info := 0, slot := 7 }))) ∧
  (∀ (g : Guard) (d : BitVec 6) (vd : BitVec 11) (n aa : BitVec 4) (w : BitVec 5) (pa : Nat) (s : State), s.guard g = true →
     let l := s.bk.qget n.toNat
     (s.bk.qSeen = none ∨ (∃ o m, s.bk.qSeen = some (o, m) ∧ o ≠ s.order) →
       exec (.qrd g d n w) s = .next (s.landS d
         (if l.bound = true ∧ 8 * w.toNat < l.esize then BitVec.ofNat 64 (l.elem / 2 ^ (64 * w.toNat)) else 0) 1) ∧
       (s.VFree vd.toNat →
         exec (.vqrd g vd n) s = .next (s.landV vd (if l.bound = true then BitVec.ofNat 2048 (l.elem % 2 ^ (8 * l.esize)) else 0) 2))) ∧
     (s.Plain → l.bound = false →
       (∃ t, exec (.qunb g n) s = .next t ∧ t.bk.q = s.bk.q ∧ t.bk.accs = s.bk.accs ∧ t.bk.pend = s.bk.pend ∧ t.mem = s.mem) ∧
       (s.Reaches (s.ar aa).toNat 64 64 3 pa → blockable pa = true → ∃ t, exec (.qbind g n aa) s = .next t ∧
         (t.bk.qget n.toNat).bound = true ∧ (t.bk.qget n.toNat).va = s.ar aa ∧ (t.bk.qget n.toNat).full = false ∧
         (∀ k, k ≠ n.toNat → t.bk.qget k = s.bk.qget k) ∧ t.bk.accs.map (·.kind) = s.bk.accs.map (·.kind) ++ [.refill n.toNat] ∧
         t.bk.pend.contains (.q n.toNat) = true ∧ t.bk.s = s.bk.s ∧ t.bk.a = s.bk.a ∧ t.mem = s.mem)) ∧
     (s.Plain → l.bound = true → ∃ t, exec (.qunb g n) s = .next t ∧ (t.bk.qget n.toNat).bound = false))

/-- WAITS, SIGS, SEMSET and SEMRD (R92, R142, R144): a reference outside the window raises REG_RANGE; semaphore 0 is null. WAITS takes its
threshold from the count, or blocks; the effects of a clk come together at its end, a count stops at 65,535, and an overflow sets SEMSAT in
the strand whose signal was clamped. -/
def Obligations.Semaphores : Prop :=
  (∀ (g : Guard) (d a : BitVec 6) (n v : BitVec 8) (s : State), s.guard g = true →
    let base := ((s.bk.csrAt 0x012).extractLsb' 0 8).toNat
    let legal := n = 0 ∨ (n.toNat < ((s.bk.csrAt 0x013).extractLsb' 0 9).toNat ∧ base + n.toNat ≤ 255)
    let k := base + n.toNat
    let trap := s.settle (.trap { code := 0x04, info := BitVec.ofNat 64 (0x2000 + n.toNat), decode := true })
    let count := mapGet (fun _ => 0) s.cr.sem k
    let taken := ((s.cr.semWait.filter (fun e => e.1 == k)).map (·.2)).sum
    (¬legal → exec (.waits g n v) s = trap ∧ exec (.sigs g n v) s = trap ∧ exec (.semset g a n) s = trap ∧ exec (.semrd g d n) s = trap) ∧
    (n = 0 → exec (.waits g n v) s = .next s ∧ exec (.sigs g n v) s = .next s ∧ exec (.semset g a n) s = .next s ∧
      exec (.semrd g d n) s = .next (s.landS d 0 1)) ∧
    (legal → n ≠ 0 →
      (v.toNat ≤ count - taken → exec (.waits g n v) s = .next (s.modCr fun x => { x with semWait := x.semWait ++ [(k, v.toNat)] })) ∧
      (count - taken < v.toNat → exec (.waits g n v) s =
        .next { s.modBk (fun b => { b with wait := some (.sem k v.toNat) }) with mark := .blocked (.sem k v.toNat) }) ∧
      exec (.sigs g n v) s = .next (s.modCr fun x => { x with semSig := x.semSig ++ [(k, v.toNat, s.bk.uid)] }) ∧
      exec (.semset g a n) s = .next (s.modCr fun x => { x with semSet := x.semSet ++ [(k, min (s.sr a).toNat 65535)] }) ∧
      exec (.semrd g d n) s = .next (s.landS d (BitVec.ofNat 64 count) 1))) ∧
  (∀ (x : Core) (n : Nat), n ≠ 0 →
    let count := mapGet (fun _ => 0) x.sem n
    let set := x.semSet.find? (fun e => e.1 == n)
    let waits := x.semWait.filter (fun e => e.1 == n)
    let sigs := x.semSig.filter (fun e => e.1 == n)
    let next := (match set with | some e => e.2 | none => count - (waits.map (·.2)).sum) + (sigs.map (fun e => e.2.1)).sum
    (mapGet (fun _ => 0) x.semUpdate.sem n = if set = none ∧ waits = [] ∧ sigs = [] then count else min next 65535) ∧
    (∀ p t, (p, x.bank p) ∈ x.banks → (x.bank p).task = some t → sigs.any (fun e => e.2.2 == t.uid) = true → 65535 < next →
      ∃ b, (p, b) ∈ x.semUpdate.banks ∧ b.status 1 = true) ∧
    x.semUpdate.semSet = [] ∧ x.semUpdate.semWait = [] ∧ x.semUpdate.semSig = [])

/-- LDS and STS (R137, R139, R140): a misaligned offset raises ALIGN, one outside the scratchpad SCRATCH_RANGE; a load takes the bytes as they stand at the
start of the clk, zero-extended, at latency 5; a store's bytes become visible at the end of its clk, the lowest first, and it keeps what R253 needs of
the chunks it touches. -/
def Obligations.ScalarScratchpadAccess : Prop :=
  ∀ (g : Guard) (d a b : BitVec 6) (imm : BitVec 17) (s : State), s.guard g = true →
    let x : Int := (s.sr a).toInt + imm.toInt
    let forms (n : Nat) : List Instr := if n = 4 then [.ldsW g d a imm, .stsW g a b imm] else [.ldsD g d a imm, .stsD g a b imm]
    ∀ n, n = 4 ∨ n = 8 →
      (∀ i ∈ forms n, x % (n : Int) ≠ 0 →
        exec i s = s.settle (.trap { code := 0x06, info := BitVec.ofNat 64 n, addr := ((BitVec.ofInt 64 x).setWidth 80 : Addr) })) ∧
      (∀ i ∈ forms n, x % (n : Int) = 0 → (x < 0 ∨ 786432 < x + n) →
        exec i s = s.settle (.trap { code := 0x09, info := BitVec.ofInt 64 x })) ∧
      (x % (n : Int) = 0 → 0 ≤ x → x + n ≤ 786432 →
        let bytes := (List.range n).map (fun k => mapGet (fun _ => (0 : Byte)) s.cr.scratch (x.toNat + k))
        (s.cr.scratchBad x.toNat n = none →
          exec (if n = 4 then .ldsW g d a imm else .ldsD g d a imm) s = .next (s.landS d (BitVec.ofNat 64 (natOfBytes bytes)) 5)) ∧
        exec (if n = 4 then .stsW g a b imm else .stsD g a b imm) s =
          .next (s.storeScratch x.toNat ((List.range n).map (fun k => some ((s.sr b).extractLsb' (8 * k) 8)))))

/-- Queue and group instructions, SPAWN and JDEC (R264, R266, R268-R270, R280-R283, R289): with the block's translation at hand they join
the strand's queues with the operands read at issue, and nothing else changes but the GMEM entry that JOIN takes and LEAVE gives up. In a
guarded task DEQ, DEQT, JOIN, LEAVE and GBAR raise GUARD_OVERFLOW (R298); in a region none is allowed (R86). -/
def Obligations.QueueInstructionsJoinTheirQueues : Prop :=
  ∀ (g : Guard) (d b : BitVec 6) (aa ab : BitVec 4) (vb : BitVec 11) (cap : BitVec 5) (esz : BitVec 6) (md : BitVec 1) (pa : Nat) (s : State),
    s.guard g = true →
    let op (k : AccKind) : Acc := { id := 0, kind := k, order := 0, va := s.ar aa, pa := pa, size := 64 }
    let dest := if d = 0 then none else some (s.bk.regS d.toNat)
    let x := (s.sr b).toInt
    let groupFull (i : Nat) : Prop := ∀ k < i, (mapGet (fun _ => ((0 : Addr), 0)) s.bk.gmem k).2 ≠ 0
    (s.Plain → s.Reaches (s.ar aa).toNat 64 64 3 pa → blockable pa = true →
      exec (.enq g aa b) s = .next (s.joins { op .enq with data := (s.sr b).toNat }) ∧
      exec (.deq g d aa) s = .next (s.joins { op .deq with dest := dest }) ∧
      ((s.ar ab).toNat % 8 = 0 → exec (.qinit g aa ab cap esz md) s =
        .next (s.joins { op .qinit with data := (s.ar ab).toNat, aux := cap.toNat + esz.toNat * 32 + md.toNat * 2048 })) ∧
      (x % 8 = 0 → 0 ≤ x → x + 256 ≤ 786432 →
        (s.cr.scratchBad x.toNat 256 = none →
          exec (.enqt g aa b) s = .next (s.joins { op .enq with data := natOfBytes (s.cr.scratchBytes x.toNat 256) })) ∧
        exec (.deqt g d aa b) s = .next (s.joins { op .deqt with dest := dest, aux := x.toNat })) ∧
      (s.VFree vb.toNat → exec (.venq g aa vb) s = .next (s.joins { op .enq with data := (s.vget vb.toNat).toNat })) ∧
      (∀ i, i < 4 → groupFull i → (mapGet (fun _ => ((0 : Addr), 0)) s.bk.gmem i).2 = 0 → s.bk.gmemOf (s.ar aa) = none →
        exec (.join g aa) s = .next ((s.joins (op .join)).modBk fun b => b.putGmem i (s.ar aa, pa))) ∧
      (∀ i, s.bk.gmemOf (s.ar aa) = some i →
        exec (.leave g aa) s = .next ((s.joins (op .leave)).modBk fun b => b.putGmem i (0, 0)) ∧
        exec (.gbar g aa) s = .next (s.joins (op .gbar))) ∧
      exec (.gcount g d aa) s = .next (s.joins { op .gcount with dest := dest })) ∧
    (s.Plain → s.Reaches (s.ar aa).toNat 64 64 3 pa → isLocal pa = true →
      exec (.spawn g aa) s = .next (s.joins (op .spawn)) ∧ exec (.jdec g aa) s = .next (s.joins (op .jdec))) ∧
    (s.bk.inSpec = false → s.bk.guarded = true →
      exec (.deq g d aa) s = s.settle (.trap { code := 0x19, info := 0x83 }) ∧
      exec (.deqt g d aa b) s = s.settle (.trap { code := 0x19, info := 0x85 }) ∧
      exec (.join g aa) s = s.settle (.trap { code := 0x19, info := 0x88 }) ∧
      exec (.leave g aa) s = s.settle (.trap { code := 0x19, info := 0x89 }) ∧
      exec (.gbar g aa) s = s.settle (.trap { code := 0x19, info := 0x8A })) ∧
    (s.bk.inSpec = true → ∀ p ∈ ([(.enq g aa b, 0x82), (.deq g d aa, 0x83), (.enqt g aa b, 0x84), (.deqt g d aa b, 0x85),
        (.qinit g aa ab cap esz md, 0x86), (.join g aa, 0x88), (.leave g aa, 0x89), (.gbar g aa, 0x8A), (.gcount g d aa, 0x8B),
        (.spawn g aa, 0x8C), (.jdec g aa, 0x8D), (.venq g aa vb, 0x30)] : List (Instr × Nat)),
      exec p.1 s = s.settle (.trap { code := 0x02, info := BitVec.ofNat 64 p.2, decode := true }))

/-! ### Descriptors, shapes, ends of tasks, privileged instructions -/

/-- CDSET, CDADR, CDRD and CDLD (R155): the bytes of a descriptor register that a write names change and no other byte does; a read takes its
field as it stands at issue; CDLD joins the load queue with its 128 bytes, its destination pending. -/
def Obligations.DescriptorInstructions : Prop :=
  ∀ (g : Guard) (d a : BitVec 6) (n : BitVec 5) (aa : BitVec 4) (off : BitVec 7) (sz : BitVec 2) (imm : BitVec 17) (s : State),
    s.guard g = true →
    exec (.cdset g n a off sz) s = .next (s.land (.cdb n.toNat off.toNat
      ((List.range (2 ^ sz.toNat)).map fun k => (s.sr a).extractLsb' (8 * k) 8)) 1) ∧
    exec (.cdadr g n aa off) s = .next (s.land (.cdb n.toNat off.toNat ((List.range 10).map fun k => (s.ar aa).extractLsb' (8 * k) 8)) 1) ∧
    exec (.cdrd g d n off sz) s = .next (s.landS d
      (((mapGet (fun _ => (0 : CDesc)) s.bk.cd n.toNat).extractLsb' (8 * off.toNat) (8 * 2 ^ sz.toNat)).setWidth 64) 1) ∧
    (∀ (b : Bank) (at_ order : Nat) (v : List Byte), at_ + v.length ≤ 128 →
      let b' := b.applyWrite (.cdb n.toNat at_ v) order
      (∀ k, k < 128 → (b'.cdget n.toNat).extractLsb' (8 * k) 8 =
        if at_ ≤ k ∧ k < at_ + v.length then v.getD (k - at_) 0 else (b.cdget n.toNat).extractLsb' (8 * k) 8) ∧
      (∀ m, m ≠ n.toNat → b'.cdget m = b.cdget m) ∧ b'.s = b.s ∧ b'.a = b.a ∧ b'.p = b.p ∧ b'.csr = b.csr) ∧
    (∀ pa, let ea : Int := (s.ar aa).toNat + imm.toInt
      s.Plain → s.Reaches ea 16 128 4 pa → ea / 4096 = (ea + 127) / 4096 →
      exec (.cdld g n aa imm) s = .next (s.joins
        { id := 0, kind := .cdld n.toNat, order := 0, va := BitVec.ofInt 80 ea, pa := pa, size := 128, dest := some (.cd n.toNat) }))

/-- TCFG and TRD (R166, R167): a tile that is not granted raises REG_RANGE; ROWS = 0 clears the shape; a legal word is stored with VALID set;
any other raises TILE_SHAPE with the word. -/
def Obligations.TileShapes : Prop :=
  ∀ (g : Guard) (d a : BitVec 6) (t : BitVec 4) (s : State), s.guard g = true →
    let b := s.bk
    let w := s.sr a
    let old := b.csrAt (0x040 + t.toNat)
    let granted := (b.csrAt 0x014).getLsbD t.toNat = true
    let size := if w.extractLsb' 16 4 = 0xB then 8 else 4
    let rows := (w.extractLsb' 0 8).toNat
    let cols := (w.extractLsb' 8 8).toNat
    let legal := w.extractLsb' 26 38 = 0 ∧ w.getLsbD 24 = false ∧ 1 ≤ cols ∧ cols ≤ 128 ∧ rows ≤ 128 ∧
      (w.extractLsb' 16 4 = 0x4 ∨ w.extractLsb' 16 4 = 0xA ∨ w.extractLsb' 16 4 = 0xB) ∧
      (b.csrAt 0x014).getLsbD (16 + (w.extractLsb' 20 4).toNat) = true ∧ rows * cols * size ≤ 65536
    let idle := (old.getLsbD 25 = false ∨ s.cr.frameBusy (old.extractLsb' 20 5).toNat = false) ∧ s.cr.tileNamed s.bk.uid t.toNat = false
    let range := s.settle (.trap { code := 0x04, info := BitVec.ofNat 64 (0x1000 + t.toNat), decode := true })
    (¬granted → exec (.tcfg g t a) s = range ∧ exec (.trd g d t) s = range) ∧
    (granted → exec (.trd g d t) s = .next (s.landS d old 1)) ∧
    (granted → idle → rows = 0 → exec (.tcfg g t a) s = .next (s.land (.csr (0x040 + t.toNat) 0 (BitVec.allOnes 64)) 1)) ∧
    (granted → idle → rows ≠ 0 → legal →
      exec (.tcfg g t a) s = .next (s.land (.csr (0x040 + t.toNat) (w ||| 0x2000000) (BitVec.allOnes 64)) 1)) ∧
    (granted → idle → rows ≠ 0 → ¬legal →
      exec (.tcfg g t a) s = s.settle (.trap { code := 0x08, info := w <<< 32 ||| BitVec.ofNat 64 t.toNat }))

/-- RETIRE, RETIRE.FAIL, RETIRE.REQUEUE and REST (R209, R296): the task begins to end, and the strand issues nothing more; no register and
no memory changes at that clk. In a region, a delay bundle or a handler they raise ILLEGAL_OPCODE. -/
def Obligations.TaskEndInstructions : Prop :=
  ∀ (g : Guard) (cause : BitVec 8) (s : State), s.guard g = true →
    let forms : List (Instr × Ending) := [(.retire g, {}), (.retireFail g cause, { fail := some cause.toNat }),
      (.retireRequeue g, { requeue := true }), (.rest g, { rest := true })]
    ∀ p ∈ forms,
      (s.bk.owed = none → s.bk.inSpec = false → s.bk.inui = false → ∃ t, exec p.1 s = .next t ∧
        t.bk.task = s.bk.task.map (fun k => { k with ending := some p.2 }) ∧ t.bk.go = some s.cur.pc ∧
        (s.bk.task.isSome = true → t.stopped s.cur.core s.cur.pos = true) ∧
        t.bk.s = s.bk.s ∧ t.bk.a = s.bk.a ∧ t.bk.p = s.bk.p ∧ t.bk.csr = s.bk.csr ∧ t.bk.flight = s.bk.flight ∧ t.bk.accs = s.bk.accs ∧
        t.mem = s.mem) ∧
      (s.bk.owed.isSome = true ∨ s.bk.inSpec = true ∨ s.bk.inui = true →
        exec p.1 s = s.settle (.trap { code := 0x02, info := if p.2.rest then 0x4D else 0x4C, decode := true }))

/-- TLBINV, WAKE, SCRUBR and LGWAIT (R210, R231, R306, R307, R358) in supervisor mode: TLBINV drops exactly the translations it names, of its die or of the
package; WAKE wakes the clusters its mask names that are Off, and no other; SCRUBR starts a sweep and writes its number; LGWAIT joins the
queues of a task of a league. -/
def Obligations.SupervisorInstructions : Prop :=
  ∀ (g : Guard) (d a b : BitVec 6) (aa : BitVec 4) (n : BitVec 8) (pkg : BitVec 1) (s : State), s.guard g = true →
    let me := s.cur.core
    (s.bk.priv = true → s.bk.inSpec = false → s.invHeld (pkg == 1) = [] →
      ∀ (i : Instr) (mode : Nat) (named : TlbEntry → Bool),
        (i = .tlbinvPage g aa b pkg ∧ mode = 0 ∧
          named = (fun e => e.ctx == (s.sr b).toNat % 4096 && e.page == (s.ar aa).toNat / 2 ^ e.log)) ∨
        (i = .tlbinvCtx g b pkg ∧ mode = 1 ∧ named = (fun e => e.ctx == (s.sr b).toNat % 4096)) ∨
        (i = .tlbinvAll g pkg ∧ mode = 2 ∧ named = (fun _ => true)) → ∃ t, exec i s = .next t ∧
      (∀ c, c < 256 → (t.core c).tlb = if pkg = 1 ∨ c / 64 = me / 64 then (s.core c).tlb.filter (fun e => !named e) else (s.core c).tlb) ∧
      (∀ k, k < 4 → (t.die k).tlb = if pkg = 1 ∨ k = me / 64 then (s.die k).tlb.filter (fun e => !named e) else (s.die k).tlb) ∧
      (∀ k, k < 4 → pkg = 1 ∨ k = me / 64 → ∀ e ∈ (t.die k).tables, mode < 2 ∧ e.ctx ≠ (s.sr b).toNat % 4096) ∧
      t.bk.s = s.bk.s ∧ t.bk.a = s.bk.a ∧ t.bk.csr = s.bk.csr ∧ t.mem = s.mem) ∧
    (s.bk.priv = true → s.bk.inSpec = false → s.bk.guarded = false → ∃ t, exec (.wake g a) s = .next t ∧
      (∀ k, k < 64 → (s.sr a).getLsbD k = false → t.cluster k = s.cluster k) ∧
      (∀ k, k < 64 → (s.cluster k).power ≠ .off → t.cluster k = s.cluster k) ∧
      (∀ k, k < 64 → s.sr a = 1 <<< k → (s.cluster k).power = .off → (s.die (k / 16)).state = .released → 20000 ≤ s.pkg.allowance →
        (t.cluster k).power = .ramp (s.clk + 3 * (600 + 25 * s.pkg.freq))) ∧
      t.bk = s.bk ∧ t.mem = s.mem) ∧
    (s.bk.priv = true → s.bk.inSpec = false → s.bk.semOk n.toNat = true →
      let num := (s.die (me / 64)).sweepNext
      let sweep (base len mode : Nat) : Sweep := { num := num.toNat, core := me, uid := s.bk.uid, sem := s.bk.semPhys n.toNat,
                                                   base := base, len := len, startClk := s.clk, mode := mode }
      let started (i : Instr) (base len mode : Nat) : Prop := ∃ t, exec i s = .next t ∧
        (t.die (me / 64)).sweeps.map (fun w => { w with exc := [] }) =
          (s.die (me / 64)).sweeps.map (fun w => { w with exc := [] }) ++ [sweep base len mode] ∧
        (t.die (me / 64)).sweepNext = num + 1 ∧ t.bk.flight = (s.landS d (num.setWidth 64) 1).bk.flight ∧
        t.bk.s = s.bk.s ∧ t.bk.csr = s.bk.csr ∧ t.mem = s.mem ∧ (mode ≠ 0 → t.cr.dected = decide (mode = 2))
      started (.scrubrSecded g d n) 0 0 1 ∧ started (.scrubrDected g d n) 0 0 2 ∧
      ((s.ar aa).toNat % 4096 = 0 → (s.sr b).toNat % 4096 = 0 → inDie (me / 64) (s.ar aa).toNat (s.sr b).toNat = true →
        started (.scrubrRange g d aa b n) (s.ar aa).toNat (s.sr b).toNat 0)) ∧
    (∀ k, s.bk.task = some k → bitOf k.flags 3 = true → s.Plain →
      exec (.lgwait g d) s = .next (s.joins
        { id := 0, kind := .lgwait (k.league.getD 64), order := 0, ord := 3, scope := 5,
          dest := if d = 0 then none else some (s.bk.regS d.toNat) })) ∧
    ((∀ k, s.bk.task = some k → bitOf k.flags 3 = false) →
      exec (.lgwait g d) s = s.settle (.trap { code := 0x02, info := 0xAC, decode := true }))

/-- The journal instructions (R200, R203-R205) in supervisor mode, outside regions and delay bundles: JBEGIN opens a transaction with number
GEN + 1; JWRITE appends a record with its 64 bytes; JCOMMIT ends once its commit point is reached; JABORT discards the transaction; JVERIFY
lands the engine's result, and until then the bundle blocks. JWRITE's checks come in the order of R203, and the status codes of the traps are
those of R205, with the unit concerned in EADDR; a JCOMMIT whose record or commit unit failed discards the transaction (FAILED). That a
record takes its unit, QNEXT, at JWRITE, that a discarded transaction gives its units back, and that the piece in progress does not count
among the 64 that wait, is log 7's. -/
def Obligations.JournalInstructions : Prop :=
  ∀ (g : Guard) (d a b : BitVec 6) (s : State), s.guard g = true → s.bk.priv = true → s.bk.owed = none → s.bk.inSpec = false →
    let k := s.cur.core / 4
    let x := (s.cluster k).slab
    let me := (s.cur.core, s.bk.uid)
    let put (f : Slab → Slab) : State := s.modCluster k fun c => { c with slab := f c.slab }
    let status (n unit : Nat) : Trap := { code := 0x20, info := BitVec.ofNat 64 n, addr := BitVec.ofNat 80 (slabPa k (64 * (unit / 64))) }
    let journal (n : Nat) := s.settle (.trap { code := 0x20, info := BitVec.ofNat 64 n, addr := BitVec.ofNat 80 (slabPa k 0) })
    let inSlab (off : Nat) : Nat := if off < 0x10000000 then off else 0
    (s.bk.guarded = false →
      (x.work.contains .apply = false → x.ro = false → x.txn = none →
        exec (.jbegin g d) s = .next ((put fun y => { y with
          txn := some { owner := s.bk.ctx, num := (x.gen + 1).toNat, first := y.qnext } }).landS d ((x.gen + 1).setWidth 64) 1)) ∧
      (x.work.contains .apply = false → x.ro = true → exec (.jbegin g d) s = journal 4) ∧
      (x.work.contains .apply = false → x.ro = false → x.txn.isSome = true → exec (.jbegin g d) s = journal 1) ∧
      (∀ t, x.txn = some t → t.committed = false → t.owner = s.bk.ctx →
        (let h := (s.sr a).toNat
         let o := (s.sr b).toInt
         h % 64 = 0 → h ≤ 0x0FBFFFC0 → o % 16 = 0 → 0 ≤ o → o + 64 ≤ 786432 → t.recs.length < 32768 → x.queued < 64 →
           s.cr.scratchBad o.toNat 64 = none →
           exec (.jwrite g a b) s = .next (put fun y => { y with
             txn := some { t with recs := t.recs ++ [{ home := h, data := s.cr.scratchBytes o.toNat 64, unit := y.qnext }] },
             qnext := if y.qnext = 65535 then 2 else y.qnext + 1, work := y.work ++ [.record t.recs.length] })) ∧
        (let h := (s.sr a).toNat
         let o := (s.sr b).toInt
         h % 64 = 0 → h ≤ 0x0FBFFFC0 → o % 16 = 0 → 0 ≤ o → o + 64 ≤ 786432 →
           (32768 ≤ t.recs.length → exec (.jwrite g a b) s = journal 3) ∧
           (t.recs.length < 32768 → 64 ≤ x.queued → exec (.jwrite g a b) s = s.settle (.block (.journal 0xA6) s)) ∧
           (∀ e, t.recs.length < 32768 → x.queued < 64 → s.cr.scratchBad o.toNat 64 = some e →
             exec (.jwrite g a b) s = s.settle (.trap { code := 0x18, info := 2, addr := BitVec.ofNat 80 e }))) ∧
        (x.commits.contains me = false →
          (t.commitUnit = none → t.recs.any (fun r => !r.written && !r.failed) = true →
            exec (.jcommit g) s = s.settle (.block (.journal 0xA7) s)) ∧
          (∀ r, t.commitUnit = none → t.recs.any (fun r => !r.written && !r.failed) = false → t.recs.find? (·.failed) = some r →
            exec (.jcommit g) s = (put fun y => y.dropTxn t).settle (.trap (status 7 r.home))) ∧
          (∀ n, t.commitUnit = some n → x.work.contains .commit = false →
            exec (.jcommit g) s = (put fun y => y.dropTxn t).settle (.trap (status 7 (0x0FC00000 + 64 * n))))) ∧
        (x.busyWithTxn = false → ∃ u, exec (.jabort g) s = .next u ∧ (u.cluster k).slab.txn = none ∧
          (u.cluster k).slab.qnext = t.first ∧ (u.cluster k).slab.gen = x.gen ∧ u.bk = s.bk ∧ u.mem = s.mem)) ∧
      (x.commits.contains me = true → exec (.jcommit g) s = .next (put fun y => { y with commits := y.commits.filter (fun e => e != me) })) ∧
      (x.txn = none → x.commits.contains me = false → exec (.jcommit g) s = journal 2 ∧ exec (.jabort g) s = journal 2) ∧
      (∀ t, x.txn = some t → t.committed = false → t.owner ≠ s.bk.ctx → x.commits.contains me = false →
        exec (.jcommit g) s = journal 6 ∧ exec (.jabort g) s = journal 6) ∧
      -- JWRITE's checks, in their order
      (let h := (s.sr a).toNat
       let o := (s.sr b).toInt
       (h % 64 ≠ 0 → exec (.jwrite g a b) s = s.settle (.trap { code := 0x06, info := 64, addr := (s.sr a).setWidth 80 })) ∧
       (h % 64 = 0 → (o % 16 ≠ 0 ∨ o < 0 ∨ 786432 < o + 64) →
         exec (.jwrite g a b) s = s.settle (.trap { code := 0x09, info := s.sr b })) ∧
       (h % 64 = 0 → o % 16 = 0 → 0 ≤ o → o + 64 ≤ 786432 →
         (0x0FBFFFC0 < h → exec (.jwrite g a b) s = s.settle (.trap (status 5 (inSlab h)))) ∧
         (h ≤ 0x0FBFFFC0 → x.txn = none → exec (.jwrite g a b) s = journal 2) ∧
         (h ≤ 0x0FBFFFC0 → ∀ t, x.txn = some t → (t.committed = true → exec (.jwrite g a b) s = journal 2) ∧
           (t.committed = false → t.owner ≠ s.bk.ctx → exec (.jwrite g a b) s = journal 6))))) ∧
    -- JVERIFY: an offset or range that passes the slab
    (let off := (s.sr a).toNat
     let len := (s.sr b).toNat
     (0x10000000 ≤ off ∨ len = 0 ∨ 0x10000000 < off + len →
       exec (.jverifyCrc g d a b) s = s.settle (.trap (status 5 (inSlab off)))) ∧
     (0x10000000 ≤ off → exec (.jverifyWear g d a) s = journal 5)) ∧
    (let off := (s.sr a).toNat
     let len := (s.sr b).toNat
     let forms : List Instr := (if off < 0x10000000 ∧ len ≠ 0 ∧ off + len ≤ 0x10000000 then [.jverifyCrc g d a b] else []) ++
       (if off < 0x10000000 then [.jverifyWear g d a] else []) ++ [.jverifyStatus g d]
     ∀ i ∈ forms,
       (∀ v, x.results.find? (fun e => e.1 == me.1 && e.2.1 == me.2) = some (me.1, me.2, v) → s.ueMem = [] → s.poison = [] →
         exec i s = .next ((put fun y => { y with results := y.results.filter (fun e => !(e.1 == me.1 && e.2.1 == me.2)) }).landS d v 1)) ∧
       (x.results.find? (fun e => e.1 == me.1 && e.2.1 == me.2) = none → x.asksFor me = true →
         exec i s = s.settle (.block (.journal 0xA9) s)))

/-! ### Vector instructions -/

/-- The element-wise vector instructions (R124, R126-R128, R130, R132): each element of the destination takes the function below of the
elements of the sources at issue, with its latency; without an active element the slot is a no-op. The windows are those of R92. -/
def Obligations.VectorElementwise : Prop :=
  ∀ (g : Guard) (ty pc : BitVec 4) (m : BitVec 3) (vd va vb vc : BitVec 11) (a k : BitVec 6) (s : State),
    s.VFree vd.toNat → s.VFree va.toNat → s.VFree vb.toNat → s.VFree vc.toNat →
    let w := tyWidth ty
    let t := ty.toNat
    let rm := s.rm m
    let x (i : Nat) : Nat := (s.vget va.toNat).extractLsb' (w * i) w |>.toNat
    let y (i : Nat) : Nat := (s.vget vb.toNat).extractLsb' (w * i) w |>.toNat
    let z (i : Nat) : Nat := (s.vget vc.toNat).extractLsb' (w * i) w |>.toNat
    let act := (List.range (2048 / w)).any fun i => s.active g w i
    let does (i : Instr) (lat : Nat) (f : Nat → Flagged Nat) : Prop :=
      exec i s = .next (if act then s.elementwise g w vd lat f else s)
    does (.vadd g ty m vd va vb) 2 (fun i => bin t rm (· + ·) (fAdd rm) (x i) (y i)) ∧
    does (.vsub g ty m vd va vb) 2 (fun i => bin t rm (· - ·) (fun a b => fAdd rm a b.flip) (x i) (y i)) ∧
    does (.vmul g ty m vd va vb) 4 (fun i => bin t rm (· * ·) fMul (x i) (y i)) ∧
    does (.vmulHi g ty vd va vb) 4 (fun i => (mulHi t (x i) (y i), 0)) ∧
    does (.vfma g ty m vd va vb vc) 4 (fun i => mulAdd t rm false (x i) (y i) (z i)) ∧
    does (.vfms g ty m vd va vb vc) 4 (fun i => mulAdd t rm true (x i) (y i) (z i)) ∧
    does (.vmin g ty m vd va vb) 2 (fun i => (pick t false (x i) (y i), 0)) ∧
    does (.vmax g ty m vd va vb) 2 (fun i => (pick t true (x i) (y i), 0)) ∧
    does (.vabs g ty vd va) 2 (fun i => (absElem t (x i), 0)) ∧
    does (.vneg g ty vd va) 2 (fun i => (negElem t (x i), 0)) ∧
    (tyFlt ty = true →
      does (.vdiv g ty m vd va vb) 12 (fun i => deliver (fmtOf t) rm false (fDiv ((fmtOf t).read (x i)) ((fmtOf t).read (y i)))) ∧
      does (.vsqrt g ty m vd va) 12 (fun i => deliver (fmtOf t) rm false (fSqrt ((fmtOf t).read (x i)))) ∧
      does (.vrcp g ty m vd va) 8 (fun i => deliver (fmtOf t) rm false (fDiv (.fin false 1 0 false) ((fmtOf t).read (x i)))) ∧
      does (.vrsq g ty m vd va) 8 (fun i => deliver (fmtOf t) rm false (fRsqrt ((fmtOf t).read (x i)))) ∧
      does (.vexp2 g ty m vd va) 8 (fun i => deliver (fmtOf t) rm false (fExp2 ((fmtOf t).read (x i)), 0)) ∧
      does (.vlog2 g ty m vd va) 8 (fun i => deliver (fmtOf t) rm false (fLog2 ((fmtOf t).read (x i))))) ∧
    does (.vadds g ty vd va vb) 2 (fun i => satElem t (intOf t (x i) + intOf t (y i))) ∧
    does (.vsubs g ty vd va vb) 2 (fun i => satElem t (intOf t (x i) - intOf t (y i))) ∧
    does (.vand g ty vd va vb) 2 (fun i => (x i &&& y i, 0)) ∧ does (.vor g ty vd va vb) 2 (fun i => (x i ||| y i, 0)) ∧
    does (.vxor g ty vd va vb) 2 (fun i => (x i ^^^ y i, 0)) ∧ does (.vnot g ty vd va) 2 (fun i => (2 ^ w - 1 - x i, 0)) ∧
    (∀ c : ShiftCount, c = .imm k ∨ c = .vec vb →
      let n (i : Nat) : Nat := if c = .imm k then k.toNat else y i
      does (.vshl g ty vd va c) 2 (fun i => ((x i * 2 ^ n i) % 2 ^ w, 0)) ∧
      does (.vshr g ty vd va c) 2 (fun i => (x i / 2 ^ n i, 0)) ∧
      does (.vsar g ty vd va c) 2 (fun i =>
        (((signedOf w (x i) / (2 ^ n i : Nat)) % (2 ^ w : Nat)).toNat, 0))) ∧
    does (.vsel g ty vd pc va vb) 2 (fun i => (if (s.pr pc).getLsbD (i * (w / 8)) then x i else y i, 0)) ∧
    does (.vmov g ty vd va) 2 (fun i => (x i, 0)) ∧
    does (.vbcast g ty vd a) 2 (fun _ => ((s.sr a).toNat % 2 ^ w, 0)) ∧
    (tyInt ty = true → does (.viota g ty m vd a) 2 (fun i => (((s.sr a).toNat + i) % 2 ^ w, 0))) ∧
    (tyFlt ty = true → does (.viota g ty m vd a) 2 (fun i => roundTo (fmtOf t) rm false (fOfInt ((s.sr a).toInt + i)))) ∧
    does (.vperm g ty vd va vb) 4 (fun i => (if y i < 2048 / w then x (y i) else 0, 0)) ∧
    does (.vshuf g ty vd va vb vc) 4 (fun i =>
      (if z i < 2048 / w then x (z i) else if z i < 2 * (2048 / w) then y (z i - 2048 / w) else 0, 0)) ∧
    (∀ j : ElemIndex, does (.vrot g ty vd va j) 4 (fun i => (x ((i + s.elemIndex ty j) % (2048 / w)), 0)))

/-- What an element-wise write comes to (R124): active elements take their result, the others the value held at issue; the flags are those of the
active elements; the write lands whole, and only its register changes. Integer arithmetic wraps (R126), and saturates where VADDS and VSUBS
do; a value that its format holds rounds to itself and raises no flag (R107). -/
def Obligations.VectorElementsAndFlags : Prop :=
  (∀ (g : Guard) (w lat : Nat) (vd : BitVec 11) (f : Nat → Flagged Nat) (s : State), w = 8 ∨ w = 16 ∨ w = 32 →
    ∃ (v : VReg) (fl : BitVec 8), s.elementwise g w vd lat f = s.landV vd v lat fl ∧
      (∀ i, i < 2048 / w → v.extractLsb' (w * i) w =
        if s.active g w i then BitVec.ofNat w (f i).1 else (s.vget vd.toNat).extractLsb' (w * i) w) ∧
      (∀ k, k < 8 → fl.getLsbD k = (List.range (2048 / w)).any (fun i => s.active g w i && (f i).2.getLsbD k))) ∧
  (∀ (s : State) (c p due n i : Nat) (v : VReg) (fl : BitVec 8),
    (s.bank c p).flight = [⟨due, n, .v i v (BitVec.allOnes 2048), fl, false⟩] → due ≤ s.clk → (s.bank c p).guarded = false →
    let t := s.landDue c p
    (t.core c).vreg i = v ∧ (∀ j, j ≠ i → (t.core c).vreg j = (s.core c).vreg j) ∧
    (t.bank c p).csrAt 0x009 = ((s.bank c p).csrAt 0x009 ||| fl.setWidth 64) ∧
    (∀ j, j ≠ 0x009 → (t.bank c p).csrAt j = (s.bank c p).csrAt j) ∧
    (t.bank c p).s = (s.bank c p).s ∧ (t.bank c p).p = (s.bank c p).p ∧ (t.core c).scratch = (s.core c).scratch ∧ t.mem = s.mem) ∧
  (∀ (ty : BitVec 4) (rm a b c : Nat) (ff : FVal → FVal → Flagged FVal), tyInt ty = true →
    let w := tyWidth ty
    let t := ty.toNat
    a < 2 ^ w → b < 2 ^ w → c < 2 ^ w →
    bin t rm (· + ·) ff a b = ((a + b) % 2 ^ w, 0) ∧ bin t rm (· - ·) ff a b = ((a + (2 ^ w - b)) % 2 ^ w, 0) ∧
    bin t rm (· * ·) ff a b = ((a * b) % 2 ^ w, 0) ∧ mulAdd t rm false a b c = ((a * b + c) % 2 ^ w, 0) ∧
    mulAdd t rm true a b c = ((a * b + (2 ^ w - c)) % 2 ^ w, 0) ∧
    (tySigned ty = false → mulHi t a b = a * b / 2 ^ w ∧
      satElem t (intOf t a + intOf t b) = (min (a + b) (2 ^ w - 1), if a + b < 2 ^ w then 0 else 0x40) ∧
      satElem t (intOf t a - intOf t b) = (a - b, if b ≤ a then 0 else 0x40))) ∧
  (∀ (f : FFmt) (rm v : Nat) (sat : Bool), f ∈ [F32, F16, BF16, E4M3, E5M2] → v < 2 ^ (1 + f.exp + f.frac) → f.read v ≠ .nan →
    roundTo f rm sat (f.read v) = (v, 0))

/-- Compares, reductions and moves between the files (R129, R131, R138). A compare writes every predicate bit of the bytes of an active element and
keeps the others; a reduction writes its destination whole, with the tree of R131 over the active elements; VMVS and VINS move one element,
and are no-ops where it is not active. -/
def Obligations.VectorComparesReductionsMoves : Prop :=
  ∀ (g : Guard) (ty pd : BitVec 4) (m : BitVec 3) (d a : BitVec 6) (vd va vb : BitVec 11) (j : ElemIndex) (s : State),
    s.VFree vd.toNat → s.VFree va.toNat → s.VFree vb.toNat → tyAny ty = true →
    let w := tyWidth ty
    let n := 2048 / w
    let t := ty.toNat
    let rm := s.rm m
    let x (i : Nat) : Nat := (s.vget va.toNat).extractLsb' (w * i) w |>.toNat
    let y (i : Nat) : Nat := (s.vget vb.toNat).extractLsb' (w * i) w |>.toNat
    let act := (List.range n).any fun i => s.active g w i
    let compares (i : Instr) (kind : Nat) : Prop := ∃ v : Pred, exec i s = .next (if act then s.landP pd v 2 else s) ∧
      ∀ e, e < n → ∀ k, k < w / 8 → v.getLsbD (e * (w / 8) + k) =
        if s.active g w e then cmpElem t kind (x e) (y e) else (s.pr pd).getLsbD (e * (w / 8) + k)
    let reduces (i : Instr) (op : Nat → Nat → Flagged Nat) : Prop :=
      let r := treeReduce op (Nat.log2 n) ((List.range n).map fun e => if s.active g w e then some (x e) else none)
      exec i s = .next (if act then s.landV vd (BitVec.ofNat 2048 (r.1.getD 0)) 6 r.2 else s)
    compares (.vceq g ty pd va vb) 0 ∧ compares (.vclt g ty pd va vb) 1 ∧ compares (.vcle g ty pd va vb) 2 ∧
    compares (.vcne g ty pd va vb) 3 ∧
    (tyInt ty = true → ∀ p q, cmpElem t 0 p q = (intOf t p == intOf t q) ∧ cmpElem t 1 p q = decide (intOf t p < intOf t q) ∧
      cmpElem t 2 p q = decide (intOf t p ≤ intOf t q) ∧ cmpElem t 3 p q = (intOf t p != intOf t q)) ∧
    (tyInt ty = false → ∀ p q, (fmtOf t).read p = .nan ∨ (fmtOf t).read q = .nan → ∀ k, k < 4 → cmpElem t k p q = (k == 3)) ∧
    reduces (.vredadd g ty m vd va) (bin t rm (· + ·) (fAdd rm)) ∧ reduces (.vredmax g ty vd va) (fun p q => (pick t true p q, 0)) ∧
    reduces (.vredmin g ty vd va) (fun p q => (pick t false p q, 0)) ∧
    (let k := s.elemIndex ty j
     k < n →
     (s.active g w k = true →
       exec (.vmvs g ty d va j) s = .next (s.landS d (if tySigned ty then BitVec.ofInt 64 (signedOf w (x k)) else BitVec.ofNat 64 (x k)) 3) ∧
       ∃ v : VReg, exec (.vins g ty vd a j) s = .next (s.landV vd v 3) ∧
         ∀ i, i < n → v.extractLsb' (w * i) w = if i = k then (s.sr a).setWidth w else (s.vget vd.toNat).extractLsb' (w * i) w) ∧
     (s.active g w k = false → exec (.vmvs g ty d va j) s = .next s ∧ exec (.vins g ty vd a j) s = .next s))

/-- VCVT and the transform slot (R112, R133, R134, R161): which element each result element takes, the format it is rounded to, and the
latency. The roundings are those of R107 to R109 and the DX blocks those of R112; XTRN transposes its blocks. -/
def Obligations.ConversionsAndTransforms : Prop :=
  (∀ (g : Guard) (ty src gap : BitVec 4) (m part : BitVec 3) (vd va : BitVec 11) (s : State),
    s.VFree vd.toNat → s.VFree va.toNat →
    let w := tyWidth ty
    let ws := tyWidth src
    let nd := 2048 / w
    let ns := 2048 / ws
    let p := part.toNat
    let rm := s.rm m
    let x (j : Nat) : Nat := (s.vget va.toNat).extractLsb' (ws * j) ws |>.toNat
    let old (i : Nat) : Nat := (s.vget vd.toNat).extractLsb' (w * i) w |>.toNat
    let from_ (i : Nat) : Option Nat :=
      if nd < ns then some (p * nd + i) else if p * ns ≤ i ∧ i < p * ns + ns then some (i - p * ns) else none
    let act := (List.range nd).any fun i => s.active g w i
    (tyAny ty = true → tyAny src = true → (nd < ns → p < ns / nd) →
      exec (.vcvt g ty m vd va src part gap) s = .next (if act then s.elementwise g w vd 3 (fun i =>
        match from_ i with | some j => convert src.toNat ty.toNat rm s.satcvt (x j) | none => (old i, 0)) else s)) ∧
    (tyDx ty = true → tyFlt src = true → s.VFree (vd.toNat + 1) →
      let r := dxStore w rm gap.toNat (p * ns / 32) (s.vget vd.toNat) (s.vget (vd.toNat + 1))
        ((List.range ns).map fun j => (fmtOf src.toNat).read (x j))
      exec (.vcvt g ty m vd va src part gap) s =
        .next ((s.landV vd r.1.1 3 r.2).land (.v (s.bk.vphys (vd.toNat + 1)) r.1.2 (BitVec.allOnes 2048)) 3)) ∧
    (tyFlt ty = true → tyDx src = true → s.VFree (va.toNat + 1) → act = true →
      let r := dxPair ws (s.vget va.toNat) (s.vget (va.toNat + 1))
      let t := s.elementwise g w vd 3 (fun i =>
        match from_ i with | some j => roundTo (fmtOf ty.toNat) rm s.satcvt (r.1.getD j .nan) | none => (old i, 0))
      exec (.vcvt g ty m vd va src part gap) s = .next (if r.2 then t.land .none 3 0x80 else t))) ∧
  (∀ (vd va : BitVec 11) (b : BitVec 1) (w : BitVec 2) (q : BitVec 3) (s : State), s.VFree vd.toNat → s.VFree va.toNat →
    let e (n i : Nat) : Nat := (s.vget va.toNat).extractLsb' (n * i) n |>.toNat
    let rm := s.rm 0
    let flags (l : List (Flagged Nat)) : BitVec 8 := l.foldl (fun f r => f ||| r.2) 0
    let lands (i : Instr) (n lat : Nat) (rs : List (Flagged Nat)) : Prop := ∃ v : VReg, exec i s = .next (s.landV vd v lat (flags rs)) ∧
      ∀ k, k < rs.length → v.extractLsb' (n * k) n = BitVec.ofNat n (rs.getD k (0, 0)).1
    lands (.xexp vd va b) (if b = 1 then 16 else 32) 6 ((List.range (if b = 1 then 128 else 64)).map fun i =>
      roundTo (fmtOf (if b = 1 then 9 else 10)) rm false (fExp ((fmtOf (if b = 1 then 9 else 10)).read (e (if b = 1 then 16 else 32) i)))) ∧
    (let n := if w = 0 then 32 else if w = 1 then 8 else 16
     let r := if w = 1 then 16 else 8
     ∃ v : VReg, exec (.xtrn vd va w) s = .next (s.landV vd v 4) ∧
       ∀ block row col, row < r → col < r → r * r * (block + 1) ≤ 2048 / n →
         v.extractLsb' (n * (r * r * block + r * row + col)) n = (s.vget va.toNat).extractLsb' (n * (r * r * block + r * col + row)) n) ∧
    (q = 0 ∨ q = 1 → lands (.xcvt vd va q b) 16 3 ((List.range 128).map fun i =>
      if 64 * b.toNat ≤ i ∧ i < 64 * b.toNat + 64 then convert 10 (if q = 0 then 9 else 8) rm s.satcvt (e 32 (i - 64 * b.toNat))
      else (((s.vget vd.toNat).extractLsb' (16 * i) 16).toNat, 0))) ∧
    (q = 2 ∨ q = 3 → lands (.xcvt vd va q b) 32 3 ((List.range 64).map fun i =>
      convert (if q = 2 then 9 else 8) 10 rm s.satcvt (e 16 (64 * b.toNat + i)))) ∧
    (let n := if b = 1 then 32 else 16
     ∃ v : VReg, exec (.xhad vd va b) s = .next (s.landV vd v 5
         (((List.range (64 / n)).map fun h => hadamard ((List.range n).map fun i => e 32 (n * h + i))).foldl (fun f r => f ||| r.2) 0)) ∧
       ∀ h i, h < 64 / n → i < n → v.extractLsb' (32 * (n * h + i)) 32 =
         BitVec.ofNat 32 ((hadamard ((List.range n).map fun i => e 32 (n * h + i))).1.getD i 0)) ∧
    (let k := if b = 1 then 8 else 4
     s.VFree (vd.toNat + 1) → (∀ i, i < k → s.VFree (va.toNat + i)) →
       let xs := (List.range k).flatMap fun i => (List.range 64).map fun l => F32.read ((s.vget (va.toNat + i)).extractLsb' (32 * l) 32).toNat
       let r := dxStore (if b = 1 then 4 else 8) rm q.toNat 0 0 0 xs
       exec (.xqnt vd va b q) s =
         .next ((s.landV vd r.1.1 4 r.2).land (.v (s.bk.vphys (vd.toNat + 1)) r.1.2 (BitVec.allOnes 2048)) 4)) ∧
    (let k := if b = 1 then 8 else 4
     s.VFree (va.toNat + 1) → (∀ i, i < k → s.VFree (vd.toNat + i)) →
       let r := dxPair (if b = 1 then 4 else 8) (s.vget va.toNat) (s.vget (va.toNat + 1))
       let bits := r.1.map fun x => (roundTo F32 0 false x).1
       let t := (List.range k).foldl (fun t i =>
         t.land (.v (s.bk.vphys (vd.toNat + i)) (packV 32 ((bits.drop (64 * i)).take 64)) (BitVec.allOnes 2048)) 3) s
       exec (.xdqn vd va b) s = .next (if r.2 then t.land .none 3 0x80 else t)))

/-- The vector scratchpad forms (R135, R137): the offset of each element; the alignment and the range of the active elements, in increasing
order, for VGATH and VSCAT too, whose elements have 4 bytes; a load takes the bytes at the start of the clk, a store writes the bytes of the active elements at its end, so that of two at one
offset the higher element stands. -/
def Obligations.VectorScratchpadAccess : Prop :=
  ∀ (g : Guard) (ty : BitVec 4) (vd : BitVec 11) (a : BitVec 6) (off : BitVec 22) (s : State),
    s.VFree vd.toNat → tyAny ty = true →
    let w := tyWidth ty
    let size := w / 8
    let n := 2048 / w
    let base : Int := (s.sr a).toInt + off.toInt
    let index (i : Nat) : Int := ((s.vget (vd.toNat + 1)).extractLsb' (32 * i) 32).toNat
    let live := (List.range n).filter fun i => s.active g w i
    let inside (x : Int) : Prop := 0 ≤ x ∧ x + size ≤ 786432
    let load (x : Nat → Int) (lat : Nat) : Host.Outcome State Fault Refusal := .next (s.elementwise g w vd lat fun i =>
      (natOfBytes ((List.range size).map fun k => mapGet (fun _ => (0 : Byte)) s.cr.scratch ((x i).toNat + k)), 0))
    let good (x : Nat → Int) : Prop := ∀ i ∈ live, inside (x i) ∧ s.cr.scratchBad (x i).toNat size = none
    let stored (i : Nat) : List Byte := (List.range size).map fun k => (s.vget vd.toNat).extractLsb' (w * i + 8 * k) 8
    let stores (i : Instr) (x : Nat → Int) : Prop := ∃ t, exec i s = .next t ∧
      t.bk.flight = s.bk.flight ++ live.map (fun i =>
        ⟨s.clk + (if s.tripled then 2 else 0), s.order, .scratch (x i).toNat ((stored i).map some), 0, false⟩) ∧
      t.bk.s = s.bk.s ∧ t.bk.csr = s.bk.csr ∧ t.mem = s.mem ∧ t.cr.scratch = s.cr.scratch
    let x0 (i : Nat) : Int := base + (i * size : Nat)
    let xi (i : Nat) : Int := base + index i
    let xs (i : Nat) : Int := base + i * (s.sr (a + 1)).toInt
    (∀ (t : State) (x : Nat) (v : List (Option Byte)), ∃ o, (t.storeScratch x v).bk = { t.bk with old := o, flight := t.bk.flight ++
      [⟨t.clk + (if t.tripled then 2 else 0), t.order, .scratch x v, 0, false⟩] }) ∧
    (live = [] → exec (.vld g ty vd a off) s = .next s ∧ exec (.vst g ty vd a off) s = .next s ∧ exec (.vlds g ty vd a off) s = .next s ∧
      exec (.vsts g ty vd a off) s = .next s ∧ (w = 32 → exec (.vgath g ty vd a off) s = .next s ∧ exec (.vscat g ty vd a off) s = .next s)) ∧
    (live ≠ [] →
      (base % 16 = 0 → good x0 →
        exec (.vld g ty vd a off) s = load x0 6 ∧
        exec (.vst g ty vd a off) s = .next (s.storeScratch base.toNat (((List.range 256).map fun k =>
          if s.active g w (k / size) then some ((s.vget vd.toNat).extractLsb' (8 * k) 8) else none).drop (-base).toNat))) ∧
      (base % 16 ≠ 0 → ∀ i, i = .vld g ty vd a off ∨ i = .vst g ty vd a off →
        exec i s = s.settle (.trap { code := 0x06, info := 16, addr := ((BitVec.ofInt 64 base).setWidth 80 : Addr) })) ∧
      ((∀ i ∈ live, xs i % (size : Int) = 0) → good xs → exec (.vlds g ty vd a off) s = load xs 6 ∧ stores (.vsts g ty vd a off) xs) ∧
      (w = 32 → s.VFree (vd.toNat + 1) → (∀ i ∈ live, xi i % 4 = 0) → good xi →
        exec (.vgath g ty vd a off) s = load xi 10 ∧ stores (.vscat g ty vd a off) xi) ∧
      (∀ i ∈ live, (∀ k ∈ live, k < i → inside (x0 k)) → ¬inside (x0 i) → base % 16 = 0 → ∀ v, v = .vld g ty vd a off ∨ v = .vst g ty vd a off →
        exec v s = s.settle (.trap { code := 0x09, info := BitVec.ofInt 64 (x0 i) })) ∧
      (∀ i ∈ live, (∀ k ∈ live, k < i → xs k % (size : Int) = 0 ∧ inside (xs k)) → ∀ v, v = .vlds g ty vd a off ∨ v = .vsts g ty vd a off →
        (xs i % (size : Int) ≠ 0 → exec v s = s.settle (.trap
          { code := 0x06, info := BitVec.ofNat 64 size, addr := ((BitVec.ofInt 64 (xs i)).setWidth 80 : Addr) })) ∧
        (xs i % (size : Int) = 0 → ¬inside (xs i) → exec v s = s.settle (.trap { code := 0x09, info := BitVec.ofInt 64 (xs i) }))) ∧
      (w = 32 → s.VFree (vd.toNat + 1) → ∀ i ∈ live, (∀ k ∈ live, k < i → xi k % 4 = 0 ∧ inside (xi k)) →
        ∀ v, v = .vgath g ty vd a off ∨ v = .vscat g ty vd a off →
        (xi i % 4 ≠ 0 → exec v s = s.settle (.trap { code := 0x06, info := 4, addr := ((BitVec.ofInt 64 (xi i)).setWidth 80 : Addr) })) ∧
        (xi i % 4 = 0 → ¬inside (xi i) → exec v s = s.settle (.trap { code := 0x09, info := BitVec.ofInt 64 (xi i) }))))

/-- Tile, slice, carry and affine instructions (R162, R164, R168-R171, R195-R197): the bytes of the frame or the lanes and pairs that each
writes, what it reads at issue, and its latency; a slice index or a type that does not fit raises TILE_SHAPE, a tile without a shape
TILE_UNCONFIG. Nothing else changes. -/
def Obligations.TileAndCarryInstructions : Prop :=
  ∀ (g : Guard) (t ts ty : BitVec 4) (k : BitVec 2) (v va vb : BitVec 11) (j : SliceIndex) (s : State),
    let w := s.bk.tshape t.toNat
    let rows := (w.extractLsb' 0 8).toNat
    let cols := (w.extractLsb' 8 8).toNat
    let fmt := (w.extractLsb' 16 4).toNat
    let size := if fmt = 0xB then 8 else 4
    let frame := 65536 * (w.extractLsb' 20 5).toNat
    let at_ (r c : Nat) : Nat := frame + (r * cols + c) * size
    let elem (r c : Nat) : Nat := natOfBytes ((List.range size).map fun i => mapGet (fun _ => (0 : Byte)) s.cr.accum (at_ r c + i))
    let idx := match j with | .imm n => n.toNat | .reg r => (s.sr r).toNat
    let lane (r l : Nat) : Nat := ((s.vget r).extractLsb' (32 * l) 32).toNat
    let on (l : Nat) : Bool := s.active g 32 l
    let late (n : Nat) : Nat := s.clk + n - 1 + (if s.tripled then 2 else 0)
    let adds (i : Instr) (l : List Landing) : Prop := ∃ u, exec i s = .next u ∧ u.bk.flight = s.bk.flight ++ l ∧
      u.bk.s = s.bk.s ∧ u.bk.p = s.bk.p ∧ u.bk.csr = s.bk.csr ∧ u.cr.accum = s.cr.accum ∧ u.cr.vfile = s.cr.vfile ∧ u.mem = s.mem
    let put (lat off x : Nat) : Landing := ⟨late lat, s.order, .frame off ((bytesOfNat size x).map some), 0, false⟩
    let pair (i : Nat) : Nat := ((s.bk.kget k.toNat).extractLsb' (64 * i) 64).toNat
    (s.TFree t.toNat → rows ≤ 128 → cols ≤ 128 →
      -- slices of a row and of a column
      (∀ row : Bool,
        let n := if row then cols else rows
        let hi := if 64 < n then 2 else 1
        let regs := hi * (if fmt = 0xB then 2 else 1)
        let cell (e : Nat) : Nat × Nat := if row then (idx, e) else (e, idx)
        let write : Instr := if row then .trw g ty t v j else .tcw g ty t v j
        let read : Instr := if row then .trr g ty t v j else .tcr g ty t v j
        (∀ i, i < regs → s.VFree (v.toNat + i)) →
          ((List.range (min n 64)).any on = true → ty.toNat = fmt → idx < (if row then rows else cols) → v.toNat % regs = 0 →
            adds write (((List.range n).filter fun e => on (e % 64)).map fun e => put 3 (at_ (cell e).1 (cell e).2)
              (lane (v.toNat + e / 64) (e % 64) + if fmt = 0xB then 2 ^ 32 * lane (v.toNat + hi + e / 64) (e % 64) else 0)) ∧
            ∃ x : Nat → VReg, adds read ((List.range regs).map fun i =>
                ⟨late 3, s.order, .v (s.bk.vphys (v.toNat + i)) (x i) (BitVec.allOnes 2048), 0, false⟩) ∧
              ∀ i l, i < regs → l < 64 →
                let e := 64 * (i % hi) + l
                ((x i).extractLsb' (32 * l) 32).toNat = if n ≤ e then 0
                  else if on l then elem (cell e).1 (cell e).2 / 2 ^ (if hi ≤ i then 32 else 0) % 2 ^ 32 else lane (v.toNat + i) l) ∧
          ((List.range (min n 64)).any on = true → ty.toNat = fmt → (if row then rows else cols) ≤ idx → ∀ i, i = write ∨ i = read →
            exec i s = s.settle (.trap { code := 0x08, info := w <<< 32 ||| BitVec.ofNat 64 (t.toNat + idx % 256 * 256) })) ∧
          ((List.range (min n 64)).any on = true → ty.toNat ≠ fmt → ∀ i, i = write ∨ i = read →
            exec i s = s.settle (.trap { code := 0x08, info := w <<< 32 ||| BitVec.ofNat 64 t.toNat })) ∧
          ((List.range (min n 64)).any on = false → exec write s = .next s ∧ exec read s = .next s)) ∧
      -- whole tiles
      (s.guard g = true →
        adds (.tzero g t) [⟨late 2, s.order, .frame frame (((List.replicate (rows * cols)
          (bytesOfNat size (if fmt = 0xB then 0x3F800000 else 0))).flatten).map some), 0, false⟩] ∧
        (s.TFree ts.toNat → w.extractLsb' 0 20 = (s.bk.tshape ts.toNat).extractLsb' 0 20 →
          adds (.tmov g t ts) [⟨late 4, s.order, .frame frame ((List.range (rows * cols * size)).map fun i =>
            some (mapGet (fun _ => 0) s.cr.accum (65536 * ((s.bk.tshape ts.toNat).extractLsb' 20 5).toNat + i))), 0, false⟩]) ∧
        (fmt = 0xB →
          let out := (List.range cols).map fun c => scanColumn ((List.range rows).map fun r => elem r c) (pair c)
          let lat := 6 + 2 * ((rows + 15) / 16)
          adds (.scan g t k)
            [⟨late lat, s.order, .frame frame (((List.range rows).flatMap fun r => out.flatMap fun o => bytesOfNat 8 (o.1.1.getD r 0)).map some),
              out.foldl (fun f o => f ||| o.2) 0, false⟩,
             ⟨late lat, s.order, .k k.toNat (BitVec.ofNat 4096 (packBits 64 (out.map fun o => o.1.2))) (BitVec.ofNat 4096 (2 ^ (64 * cols) - 1)), 0,
              false⟩])) ∧
      -- affine rows
      (fmt = 0xB → cols ≤ 64 → idx < rows → (List.range cols).any on = true →
        (s.VFree va.toNat → s.VFree vb.toNat →
          adds (.affset g t va vb j) (((List.range cols).filter on).map fun c => put 3 (at_ idx c) (lane va.toNat c + 2 ^ 32 * lane vb.toNat c))) ∧
        (s.VFree v.toNat → s.VFree va.toNat → ∀ src : ApplySrc, src = .vec va ∨ src = .carry k →
          let x (c : Nat) : Nat := if src = .carry k then pair c / 2 ^ 32 else lane va.toNat c
          let res := (List.range 64).map fun c => if cols ≤ c then ((0, 0) : Flagged Nat)
            else if on c then applyMap (elem idx c) (x c) else (lane v.toNat c, 0)
          exec (.apply g v t j src) s = .next (s.landV v (packV 32 (res.map (·.1))) 4 (res.foldl (fun f r => f ||| r.2) 0))))) ∧
    -- carries
    ((List.range 64).any on = true →
      (s.VFree va.toNat → s.VFree (va.toNat + 1) → ∃ x m : Carry, adds (.kld g k va) [⟨late 3, s.order, .k k.toNat x m, 0, false⟩] ∧
        ∀ i, i < 64 → x.extractLsb' (64 * i) 64 = BitVec.ofNat 64 (lane va.toNat i + 2 ^ 32 * lane (va.toNat + 1) i) ∧
          m.extractLsb' (64 * i) 64 = if on i then BitVec.allOnes 64 else 0) ∧
      (s.VFree v.toNat → s.VFree (v.toNat + 1) → ∃ x y : VReg, adds (.kst g v k)
          [⟨late 3, s.order, .v (s.bk.vphys v.toNat) x (BitVec.allOnes 2048), 0, false⟩,
           ⟨late 3, s.order, .v (s.bk.vphys (v.toNat + 1)) y (BitVec.allOnes 2048), 0, false⟩] ∧
        ∀ i, i < 64 → (x.extractLsb' (32 * i) 32).toNat = (if on i then pair i % 2 ^ 32 else lane v.toNat i) ∧
          (y.extractLsb' (32 * i) 32).toNat = if on i then pair i / 2 ^ 32 else lane (v.toNat + 1) i)) ∧
    -- a tile that is not granted, or that has no shape
    (s.guard g = true → s.bk.tileOk t.toNat = false →
      exec (.tzero g t) s = s.settle (.trap { code := 0x04, info := BitVec.ofNat 64 (0x1000 + t.toNat), decode := true })) ∧
    (s.guard g = true → s.bk.tileOk t.toNat = true → w.getLsbD 25 = false →
      exec (.tzero g t) s = s.settle (.trap { code := 0x07, info := t.setWidth 64 }))

/-- The M and C slots (R156, R159, R179-R184, R187, R191): what a legal command adds to the M queue or to the copy queue, with the
mappings, the shapes and MGAMMA in force at issue; an array command that reaches the head of the queue asks for the lease at once; OCLAIM and LEASE act on the cluster; a full queue blocks the bundle; a slot that is not
claimed raises OSLOT; in a region every command raises ILLEGAL_OPCODE (R86). -/
def Obligations.MatrixAndCopyCommands : Prop :=
  ∀ (td : BitVec 4) (oa ob : BitVec 6) (fmt wt si : BitVec 4) (acc cm : BitVec 2) (ws ss : BitVec 8) (n : BitVec 6) (sa sb st : Bool) (cd : BitVec 5)
    (s : State),
    let b := s.bk
    let k := s.cur.core / 4
    let cl := s.cluster k
    let me := (s.cur.core, b.ctx)
    let mine (o : Nat) : Prop := (cl.slot o).claim = some me ∧ (cl.slot o).since ≤ s.clk
    let laid (o : Nat) : Prop := (cl.slot o).layout = ((b.csrAt 0x039).extractLsb' 0 8).toNat
    let legal (f : MmaFields) : Prop := (b.csrAt 0x014).getLsbD f.td = true ∧ b.semOk f.ws = true ∧ b.semOk f.ss = true ∧
      shValid (b.tshape f.td) = true ∧ shFmt (b.tshape f.td) = (if f.acc = 2 then 0xB else 0xA) ∧ mine f.oa ∧ mine f.ob ∧ laid f.oa ∧ laid f.ob
    let joins (i : Instr) (op : MOp) (ws wt ss : Nat) (shapes : List Word) (same : Bool) : Prop := ∃ u m, exec i s = .next u ∧
      u.cr.mq = s.cr.mq ++ [m] ∧ m.op = op ∧ m.ws = b.semPhys ws ∧ m.wt = wt ∧ m.ss = b.semPhys ss ∧ m.shapes = shapes ∧
      m.gamma = (b.csrAt 0x038).extractLsb' 0 32 ∧ m.uid = b.uid ∧ m.ctx = b.ctx ∧ m.start = none ∧ u.cr.mrun = s.cr.mrun ∧
      u.bk.s = b.s ∧ u.bk.csr = b.csr ∧ u.bk.accs = b.accs ∧ u.mem = s.mem ∧ (same = true → u.cluster k = match s.cr.mq ++ [m] with
        | h :: _ => if h.op.isArray then cl.requestLease s.cur.core h.ctx none else cl
        | [] => cl)
    let f : MmaFields := ⟨td.toNat, oa.toNat, ob.toNat, fmt.toNat, acc.toNat, ws.toNat, wt.toNat, ss.toNat⟩
    (b.inSpec = true → ∀ p ∈ ([(.mma td oa ob fmt acc ws wt ss, 1), (.lease ss, 2), (.unlease, 3), (.oclaim oa, 4), (.orelease oa, 5),
        (.ofill ob oa ws wt ss, 6), (.mrep n sa sb st, 7), (.copy cd ws wt ss si cm, 1), (.copyn cd ws wt ss si cm, 2), (.copyd cd wt ss si cm, 3)] :
          List (Instr × Nat)), exec p.1 s = s.settle (.trap { code := 0x02, info := BitVec.ofNat 64 p.2, decode := true })) ∧
    (b.inSpec = false →
      (s.cr.mq.length < 16 →
        (legal f → joins (.mma td oa ob fmt acc ws wt ss) (.mma f) ws.toNat wt.toNat ss.toNat [b.tshape td.toNat] true) ∧
        (∀ h, b.mrep = some h →
          let cmds := (List.range (n.toNat + 1)).map fun i =>
            { h with oa := h.oa + (i + 1) * sa.toNat, ob := h.ob + (i + 1) * sb.toNat, td := h.td + (i + 1) * st.toNat,
                     acc := if st = false ∧ h.acc = 1 then 0 else h.acc }
          (∀ c ∈ cmds, c.oa ≤ 63 ∧ c.ob ≤ 63 ∧ c.td ≤ 15 ∧ legal c) →
            joins (.mrep n sa sb st) (.mrep cmds) h.ws h.wt h.ss (cmds.map fun c => b.tshape c.td) true) ∧
        (mine oa.toNat → joins (.orelease oa) (.orelease oa.toNat) 0 0 0 [] true) ∧
        joins .unlease .unlease 0 0 0 [] true ∧
        (mine oa.toNat → mine ob.toNat → b.semOk ws.toNat = true → b.semOk ss.toNat = true →
          joins (.ofill ob oa ws wt ss) (.ofill ob.toNat oa.toNat) ws.toNat wt.toNat ss.toNat [] false)) ∧
      (16 ≤ s.cr.mq.length → exec .unlease s = s.settle (.block .mqueue s) ∧
        (legal f → exec (.mma td oa ob fmt acc ws wt ss) s = s.settle (.block .mqueue s))) ∧
      (b.mrep = none → exec (.mrep n sa sb st) s = s.settle (.trap { code := 0x02, info := 7, decode := true })) ∧
      ((cl.slot oa.toNat).claim ≠ some me →
        exec (.orelease oa) s = s.settle (.trap { code := 0x0F, info := oa.setWidth 64 }) ∧
        ((cl.slot oa.toNat).claim ≠ none → exec (.oclaim oa) s = s.settle (.trap { code := 0x0F, info := oa.setWidth 64 })) ∧
        ((cl.slot oa.toNat).claim = none → ∃ u, exec (.oclaim oa) s = .next u ∧ ((u.cluster k).slot oa.toNat).claim = some me ∧
          ((u.cluster k).slot oa.toNat).since = s.clk + 1 ∧ ((u.cluster k).slot oa.toNat).tag = some b.ctx ∧
          ((cl.slot oa.toNat).tag = none ∨ (cl.slot oa.toNat).tag = some b.ctx →
            ((u.cluster k).slot oa.toNat).bytes = (cl.slot oa.toNat).bytes ∧ ((u.cluster k).slot oa.toNat).layout = (cl.slot oa.toNat).layout) ∧
          (∀ c, (cl.slot oa.toNat).tag = some c → c ≠ b.ctx → ((u.cluster k).slot oa.toNat).bytes = [] ∧
            ((u.cluster k).slot oa.toNat).layout = 0 ∧ ((u.cluster k).slot oa.toNat).zeroing = some (s.clk + 143)) ∧
          (∀ o, o ≠ oa.toNat → (u.cluster k).slot o = cl.slot o) ∧ u.bk = b ∧ u.mem = s.mem)) ∧
      ((cl.slot oa.toNat).claim = some me → exec (.oclaim oa) s = .next s) ∧
      (b.semOk ss.toNat = true → ∃ u, exec (.lease ss) s = .next u ∧ (u.cluster k).lease.holder = cl.lease.holder ∧
        (u.cluster k).lease.reqs = (if cl.lease.holder = some s.cur.core ∨ cl.lease.reqs.contains s.cur.core = true then cl.lease.reqs
          else cl.lease.reqs ++ [s.cur.core]) ∧ u.bk = b ∧ u.mem = s.mem) ∧
      (b.guarded = false → s.copyTrap cd.toNat (Desc.parse (b.cdget cd.toNat)) = none → b.semOk ws.toNat = true → b.semOk ss.toNat = true →
        let asks (i : Instr) (ws : Nat) (deferred : Bool) : Prop := ∃ u y, exec i s = .next u ∧
          u.bk.copies = (if deferred then b.copies else b.copies ++ [y]) ∧ u.bk.deferred = (if deferred then b.deferred ++ [y] else b.deferred) ∧
          y.desc = b.cdget cd.toNat ∧ y.cdn = cd.toNat ∧ y.ws = b.semPhys ws ∧ y.wt = wt.toNat ∧ y.ss = b.semPhys ss.toNat ∧ y.si = si.toNat ∧
          y.cm = cm.toNat ∧ y.ctx = b.ctx ∧ y.vbase = b.vbase ∧ y.vlim = b.vlim ∧ y.st = .queued ∧ y.deferred = deferred ∧
          u.bk.s = b.s ∧ u.bk.cd = b.cd ∧ u.bk.csr = b.csr ∧ u.mem = s.mem ∧
          u.bk.flight = b.flight ++ (match i with
            | .copyn _ _ _ _ _ _ => [⟨s.clk + (if s.tripled then 2 else 0), s.order, .cdb cd.toNat 0x4A (bytesOfNat 2
                (((b.cdget cd.toNat).extractLsb' (8 * 0x4A) 16).toNat + ((b.cdget cd.toNat).extractLsb' (8 * 0x1A) 16).toNat)), 0, false⟩]
            | _ => [])
        (b.copies.length < 16 → asks (.copy cd ws wt ss si cm) ws.toNat false ∧ asks (.copyn cd ws wt ss si cm) ws.toNat false) ∧
        (16 ≤ b.copies.length → ∀ i, i = .copy cd ws wt ss si cm ∨ i = .copyn cd ws wt ss si cm ∨ i = .copyd cd wt ss si cm →
          exec i s = s.settle (.block .copies s)) ∧
        (b.copies.length < 16 → b.deferred.length < 64 → asks (.copyd cd wt ss si cm) 0 true)))

/-! ### Events -/

/-- Events of a core (R44, R48, R80, R89, R90, R81, R94, R95, R97, R99, R172, R211, R294, R328): what each does where its condition holds.
That the NV copy holds the owed transfer and the open region is the model's choice (log 29), that of the bank image is log 72's, and how the
eighth detection takes the bundle back, and what of it stands, is log 67's. -/
def Obligations.CoreEvents : Prop :=
  ∀ (s : State), let c := s.ev.core
    let p := s.ev.pos
    let n := s.ev.n
    let b := s.bank c p
    let x := s.core c
    let hand (va : Addr) (need : Need) (pa : Nat) : Prop :=
      ∃ e, tlbFind x.tlb b.ctx va need (!b.priv) = some e ∧ e.peer = none ∧ e.at va = pa ∧ s.answers e va need = true
    -- BUNDLE_FETCH of the bundle at the pc, and on a cluster that is not On; STRAND_SWITCH: the next ready strand in round-robin order
    (∀ v next f r, s.CanIssue c → s.ev = { core := c } → (s.atStrand c).BundleAt v next r →
      let q := r.withNext next
      q.decodeBundle v = .ok f → q.hazard f.slots f.pop = .none → exec .bundleFetch s = .next { q with fetched := some f }) ∧
    ((s.cluster (clusterOf c)).power ≠ .on → exec .bundleFetch s = .next { s with fetched := none }) ∧
    (∀ q, (if x.issue.yielded then [1, 2, 3, 4] else [1, 2, 3]).find? (fun k => s.strandReady c ((x.issue.pos + k) % 4)) = some q →
      exec .strandSwitch s = .next (s.modCore c fun x => { x with issue :=
        { x.issue with pos := (x.issue.pos + q) % 4, yielded := false, hold := max x.issue.hold (s.clk + 1) } })) ∧
    -- SCRUPLE_REPLAY freezes the core for 2 clk; at the eighth detection the bundle is taken back and raises UE_CONSUMED
    (∀ u, x.issue.undo = some u → x.issue.lastClk ≤ s.clk → s.clk ≤ x.issue.lastClk + 1 →
      (x.issue.replays < 7 → ∃ t, exec .scrupleReplay s = .next t ∧ (t.core c).issue.replays = x.issue.replays + 1 ∧
        (let f := max s.clk x.issue.frozen + 2
         (t.core c).issue.frozen = f ∧ (t.core c).issue.hold = max (x.issue.hold + 2) (f + 1)) ∧ t.mem = s.mem ∧
        ∀ q, (t.bank c q).flight = (s.bank c q).flight.map (fun l => { l with due := l.due + 2 }) ∧ (t.bank c q).s = (s.bank c q).s) ∧
      (∀ q, 7 ≤ x.issue.replays → x.posOf u.uid = some q → exec .scrupleReplay s =
        .next (((s.modCore c fun x => { x with issue := { x.issue with replays := 0 } }).takeBack c q u).takeTrap c q
          { code := 0x18, info := 7 } u.bank.pc))) ∧
    -- USER_INTERRUPT_ENTRY
    (∀ src det rest, (s.bank c x.issue.pos).uiDue = true → (s.bank c x.issue.pos).uiq = (src, det) :: rest → src < 256 → det < 256 →
      ∃ t, exec .userInterruptEntry s = .next t ∧ (let b := s.bank c x.issue.pos
        let b' := t.bank c x.issue.pos
        b'.inui = true ∧ b'.pc = b.csrAt 0x020 ∧ b'.csrAt 0x021 = b.pc ∧ b'.uiq = rest ∧
        (b'.csrAt 0x022).extractLsb' 0 16 = BitVec.ofNat 16 (det * 256 + src) ∧ (∀ k, k < 64 → b'.sget k = b.sget k) ∧ b'.s = b.s ∧
        b'.a = b.a ∧ b'.p = b.p) ∧ s.clk + 1 ≤ (t.core c).issue.hold ∧ t.mem = s.mem) ∧
    -- WINDOW_SPILL, WINDOW_FILL: the next 64-byte piece joins its queue; with the last, WSTK moves by 256 bytes
    (∀ w piece rest pa, b.win = some w → w.pieces = piece :: rest → isMmio pa = false →
      (piece.fill = false → isSlab pa = false) → hand piece.va (needOf 7 64 (!piece.fill)) pa →
      ∃ t a, exec (if piece.fill then .windowFill else .windowSpill) s = .next t ∧ (t.bank c p).accs = b.accs ++ [a] ∧
        a.id = b.nextId ∧ a.va = piece.va ∧ a.pa = pa ∧ a.size = 64 ∧ a.kind = (if piece.fill then .fill else .spill) ∧
        (if piece.fill then a.aux = piece.data else a.data = piece.data) ∧
        (rest ≠ [] → (t.bank c p).win = some { w with pieces := rest } ∧ (t.bank c p).csrAt 0x018 = b.csrAt 0x018) ∧
        (rest = [] → (t.bank c p).win = none ∧ (t.bank c p).wait = (if piece.fill then b.wait else some (.clk (s.clk + 1))) ∧
          ∀ back, w.move = some back → (t.bank c p).csrAt 0x018 = if back then b.csrAt 0x018 - 256 else b.csrAt 0x018 + 256) ∧
        (t.bank c p).s = b.s ∧ t.mem = s.mem) ∧
    -- BANK_EXCHANGE, URGENT_PREEMPTION
    (∀ q due, x.issue.exch = some (q, due) → due ≤ s.clk → q < 4 → (s.bank c 4).resend = [] → (s.bank c 4).q = [] →
      ∃ t u : State, exec .bankExchange s = .next t ∧
        -- `u`: the banks have changed places; then the image of a bank that holds a task is written to the save area
        u.bank c q = s.bank c 4 ∧ u.bank c 4 = { s.bank c q with lastPos := q } ∧
        (u.core c).issue.exch = none ∧ (∀ r, r ≠ q → r ≠ 4 → u.bank c r = s.bank c r) ∧ u.mem = s.mem ∧
        let v := if (s.bank c q).task.isSome then u.saveWrite (s.bank c q).ctx c 0x180000 (s.bank c q).image else u
        t.mem = v.mem ∧ (t.core c).issue.exch = (v.core c).issue.exch ∧ ∀ r, v.bank c r = u.bank c r → t.bank c r = u.bank c r) ∧
    (x.issue.exch = none → p < 4 → b.accs = [] → b.q = [] → (∀ d, d < 4 → (s.die d).rtab = []) → ∃ t, exec .urgentPreemption s = .next t ∧
      (t.core c).issue.exch = some (p, s.clk + 17) ∧ t.mem = s.mem) ∧
    -- VECTOR_GROUP_EXCHANGE, VECTOR_GROUP_BACKGROUND_SAVE
    (∀ uid due q, x.groupMoves = [(n, uid, due)] → due ≤ s.clk → x.posOf uid = some q → (x.vtagAt n).dirty = false →
      let ctx := (s.bank c q).ctx
      let away := (x.vtagAt n).world ≠ s.worldOf ctx ∧ (x.vtagAt n).uid.isSome = true
      away ∨ (s.ctx ctx).saved.contains (c, 256 + n) = false → ∃ t, exec .vectorGroupExchange s = .next t ∧
        (t.core c).vtagAt n = ⟨some uid, ctx, 0, false, s.worldOf ctx⟩ ∧ (t.core c).groupMoves = [] ∧
        (¬away → ∀ i, (t.core c).vreg i = x.vreg i) ∧
        (away → ∀ i, (t.core c).vreg i = if 8 * n ≤ i ∧ i < 8 * n + 8 then 0 else x.vreg i) ∧ t.mem = s.mem) ∧
    -- the background save takes one register of the group in an idle port clk, and with the eighth the group is saved
    (∀ u k at_, (x.vtagAt n).uid = some u → x.posOf u = some 4 → (x.vtagAt n).dirty = true → (s.ctx (x.vtagAt n).ctx).dead = false →
      x.portClk ≠ s.clk → x.groupMoves = [] → (x.groupSave = none ∧ k = 0) ∨ (x.groupSave = some (n, k, at_) ∧ at_ ≠ s.clk) →
      (k < 7 → exec .vectorGroupBackgroundSave s = .next
        ((s.saveWrite (x.vtagAt n).ctx c (0x100000 + 2048 * n + 256 * k) (((x.groupBytes n).drop (256 * k)).take 256)).modCore c fun x =>
          { x with groupSave := some (n, k + 1, s.clk) })) ∧
      (k = 7 → ∃ t, exec .vectorGroupBackgroundSave s = .next t ∧ ((t.core c).vtagAt n).dirty = false ∧
        (t.ctx (x.vtagAt n).ctx).saved.contains (c, 256 + n) = true)) ∧
    -- FRAME_EXCHANGE, FRAME_BACKGROUND_SAVE
    (∀ ctx due, x.frameMoves = [(n, ctx, due)] → due ≤ s.clk → (s.ctx ctx).dead = false → x.owns n ctx = false →
      x.frameDirty.contains n = false → (s.ctx ctx).saved.contains (c, n) = false → ∃ t, exec .frameExchange s = .next t ∧
        (t.core c).owns n ctx = true ∧ (t.core c).frameMoves = [] ∧ t.mem = s.mem ∧
        ∀ i, mapGet (fun _ => (0 : Byte)) (t.core c).accum i =
          if 65536 * n ≤ i ∧ i < 65536 * n + 65536 then 0 else mapGet (fun _ => 0) x.accum i) ∧
    (∀ o, mapGet (fun _ => none) x.frameOwner n = some o → x.frameDirty.contains n = true →
      (x.frameSaves.find? (fun e => e.1 == n) = none → x.resident o = false → x.frameMoves.any (fun m => m.1 == n) = false →
        exec .frameBackgroundSave s = .next (s.modCore c fun x => { x with frameSaves := x.frameSaves ++ [(n, s.clk + 256)] })) ∧
      (∀ due, x.frameSaves.find? (fun e => e.1 == n) = some (n, due) → due ≤ s.clk → ∃ t, exec .frameBackgroundSave s = .next t ∧
        (t.core c).frameDirty.contains n = false ∧ (t.ctx o).saved.contains (c, n) = true ∧
        (t.core c).frameSaves.any (fun e => e.1 == n) = false)) ∧
    -- DICT_RELOAD, EXPOSED_RESULT_LANDS, NV_SNAPSHOT, PHASE_OVERRUN
    (∀ t l, b.dictDue = true → b.dlenDue = false → x.dictRoom p = true →
      s.readImage c p ((b.csrAt 0x00B).setWidth 16 ++ b.csrAt 0x015) (b.csrAt 0x016).toNat = (t, .ok l) →
      exec .dictReload s = .next (t.modBank c p fun b => { b with dict := l, dictDue := false, dictErr := none, far := [] })) ∧
    (∀ k, b.task = some k → k.ending = none → s.isParked c p = false → s.isFrozen c = false →
      let t := ((s.modBank c p fun b => b.putCsr 0x028 (BitVec.ofNat 64 (min ((b.csrAt 0x028).toNat + 1) 0xFFFFFFFF))).landShared c).landDue c p
      ((t.bank c p).task = some k → exec .exposedResultLands s = .next t)) ∧
    ((s.cluster (clusterOf c)).power ≠ .on → exec .nvSnapshot s = .next s) ∧
    ((s.cluster (clusterOf c)).power = .on → b.task.isSome = true → b.flight = [] → b.pend = [] → ∃ t, exec .nvSnapshot s = .next t ∧
      (t.bank c p).nv = some ⟨b.s, b.wbase, b.a, b.p, b.pc, b.csr, b.owed, b.spec, b.shadow, b.gmem, b.winKept⟩ ∧ (t.bank c p).s = b.s ∧ t.mem = s.mem) ∧
    (b.task.isSome = true → b.overrun = false → b.accs = [] → b.csrAt 0x029 ≠ 0 →
      (b.csrAt 0x029).toNat + (b.csrAt 0x02A).toNat < (b.csrAt 0x028).toNat → ∃ t, exec .phaseOverrun s = .next t ∧
      (t.bank c p).async = b.async ++ [{ code := 0x17, info := b.csrAt 0x028 }] ∧ (t.bank c p).overrun = true ∧ t.mem = s.mem)

/-- Events of the controllers, of the translation units and of the fault queue (R229-R234, R247, R249, R264-R275, R280-R283): what each
does where its condition holds. That FQRESOLVE gives an entry that is resolved already a new ACTION is log 51's, and that it does nothing at
a die in reset is log 73's. -/
def Obligations.ControllerAndFaultEvents : Prop :=
  ∀ (s : State), let c := s.ev.core
    let p := s.ev.pos
    let b := s.bank c p
    let uid := b.uid
    let d := s.die s.ev.die
    -- an operation that has reached its controller; nothing waits at its block
    let arrives (a : Acc) : Prop := b.acc? s.ev.id = some a ∧ a.st = .queued ∧ b.mayPerform a = true ∧ b.task.isSome = true ∧
      (s.core c).posOf uid = some p ∧ (b.accs.map (·.id)).Nodup ∧ a.err = none ∧ s.waitersOf a.pa = [] ∧
      s.controllerHeld c b.ctx a = false ∧ isSlab a.pa = false
    let sound (a : Acc) (q : QBlock) : Prop := s.bad a.pa 64 = false ∧ s.qblock a.pa = q ∧
      q.firstBad (s.memNat a.pa 64) (homeDie a.pa) = none ∧ bitOf q.flags 0 = false ∧ q.world = s.worldOf b.ctx ∧
      (bitOf q.flags 1 = true ∨ dieOf c = q.home) ∧ (s.die (homeDie a.pa)).waiters = []
    -- where the element at HEAD or TAIL lies, part by part of the pages that it reaches into (R264)
    let ring (a : Acc) (q : QBlock) (n : Nat) (write : Bool) : State × Except Trap (List (Nat × Nat × Nat)) :=
      ((s.readHome b.ctx a.pa 64).1).ringAt c b.ctx a.user q n write
    let blockAs (t : State) (a : Acc) (q : QBlock) (rest : Nat → Byte) : Prop := ∀ x, t.byteAt x =
      if a.pa ≤ x ∧ x < a.pa + 64 then (withCheck q.body).getD (x - a.pa) 0 else rest x
    -- QUEUE_PERFORM: ENQ with room, DEQ with an element, DEQ of an empty queue
    (∀ a q, arrives a → sound a q →
      (∀ s1 l, a.kind = .enq → q.free ≠ 0 → ring a q q.tail true = (s1, .ok l) → ∃ t, exec .queuePerform s = .next t ∧
        blockAs t a { q with tail := (q.tail + 1) % 2 ^ 64, free := q.free - 1 } (fun x =>
          match l.reverse.find? (fun e => decide (e.1 ≤ x) && decide (x < e.1 + e.2.2)) with
          | some e => BitVec.ofNat 8 (a.data / 256 ^ (e.2.1 + (x - e.1)))
          | none => s1.byteAt x) ∧
        (t.bank c p).s = b.s ∧ (t.bank c p).csr = b.csr ∧ ((t.bank c p).acc? a.id).all (fun x => x.st == .performed && x.err == none) = true) ∧
      (∀ s1 l s2 bs, q.live ≠ 0 → ring a q q.head false = (s1, .ok l) → s1.ringRead c b.ctx l = (s2, bs, false) →
        (a.kind = .deq → ∃ t, exec .queuePerform s = .next t ∧
          blockAs t a { q with head := (q.head + 1) % 2 ^ 64, free := q.free + 1 } s1.byteAt ∧
          ((t.bank c p).acc? a.id).all (fun x => x.st == .performed && x.val == natOfBytes bs % 2 ^ 64 && x.err == none) = true ∧
          (t.bank c p).s = b.s) ∧
        -- LATCH_REFILL
        (∀ n, a.kind = .refill n → (s.die (homeDie a.pa)).rtab.length < 8192 → ∃ t, exec .latchRefill s = .next t ∧
          blockAs t a { q with head := (q.head + 1) % 2 ^ 64, rsv := q.rsv + 1 } s1.byteAt ∧
          (t.die (homeDie a.pa)).rtab = (s.die (homeDie a.pa)).rtab ++ [⟨a.pa, a.va, b.ctx, c, uid, n, natOfBytes bs, a.user⟩] ∧
          ((t.bank c p).acc? a.id).any (fun x => x.st == .performed && x.val == natOfBytes bs) = true)) ∧
      (a.kind = .deq → q.live = 0 → ∃ t, exec .queuePerform s = .next t ∧
        blockAs t a { q with waiters := q.waiters + 1 } s.byteAt ∧ t.waitersOf a.pa = [⟨a.pa, c, uid, a.id⟩] ∧
        ((t.bank c p).acc? a.id).any (fun x => x.st == .waiting) = true ∧ (t.bank c p).s = b.s)) ∧
    -- GROUP_PERFORM: JOIN, LEAVE, GBAR and GCOUNT
    (∀ a q, arrives a → s.bad a.pa 64 = false → s.gblock a.pa = q → q.firstBad (s.memNat a.pa 64) = none → bitOf q.flags 0 = false → q.world = s.worldOf b.ctx →
      let does (r : GBlock) (st : AccState) : Prop := ∃ t, exec .groupPerform s = .next t ∧
        (∀ x, t.byteAt x = if a.pa ≤ x ∧ x < a.pa + 64 then (withCheck r.body).getD (x - a.pa) 0 else s.byteAt x) ∧
        ((t.bank c p).acc? a.id).all (fun x => x.st == st && x.err == none) = true ∧ (t.bank c p).s = b.s
      (a.kind = .join → q.members ≠ 65535 → does { q with members := q.members + 1 } .performed) ∧
      (a.kind = .leave → 2 ≤ q.members → q.arrived ≠ q.members - 1 → does { q with members := q.members - 1 } .performed) ∧
      (a.kind = .gbar → q.arrived + 1 ≠ q.members → does { q with arrived := q.arrived + 1 } .waiting) ∧
      (a.kind = .gbar → q.arrived + 1 = q.members → does { q with gen := (q.gen + 1) % 2 ^ 32, arrived := 0 } .performed) ∧
      (a.kind = .gcount → ∃ t, exec .groupPerform s = .next t ∧ (∀ x, t.byteAt x = s.byteAt x) ∧ ((t.bank c p).acc? a.id).all (fun x =>
        x.val == (q.gen % 2 ^ 32) * 2 ^ 32 + (q.arrived % 2 ^ 16) * 2 ^ 16 + q.members % 2 ^ 16) = true)) ∧
    -- CONTROLLER_REPORT, RESERVATION_TABLE_WAIT_END
    (∀ a t, b.acc? s.ev.id = some a → a.st = .performed → a.err = some t → a.kind = .enq → a.dest = none → ∃ u, exec .controllerReport s = .next u ∧
      (u.bank c p).async = b.async ++ [t] ∧ (u.bank c p).acc? a.id = none ∧ (u.bank c p).s = b.s ∧ u.mem = s.mem) ∧
    (∀ w a n ws, d.rtab.length < 8192 → d.waiters = w :: ws → (s.uidBank w.core w.uid).acc? w.acc = some a → a.kind = .refill n →
      homeDie w.block = s.ev.die → (s.qblock w.block).live ≠ 0 →
      s.queueFault w.core (s.uidBank w.core w.uid).ctx w.block a.va = none →
      let t := s.serveOne w
      exec .reservationTableWaitEnd s =
        .next ((t.serveQ w.block ((t.waitersOf w.block).length + 1)).wakeTable s.ev.die d.waiters.length)) ∧
    (8192 ≤ d.rtab.length → exec .reservationTableWaitEnd s = .next s) ∧
    -- SC_WHEEL_PERFORM: one position of the wheel for each core, its strands in turn
    (s.clk % 256 ≠ c → exec .scWheelPerform s = .next s) ∧
    (∀ a q, s.clk % 256 = c → s.isFrozen c = false → q = ((s.core c).issue.scLast + 1) % 4 → (s.bank c q).parked = [] →
      s.scReady (s.bank c q) = some a → ∃ t, exec .scWheelPerform s = .next t ∧ (t.core c).issue.scLast = q ∧
      ∀ x, t.byteAt x = (s.accessPerform c q a.id true).byteAt x) ∧
    -- ATS_INVALIDATE, TRANSLATION_WALK_END
    (∃ t, exec .atsInvalidate s = .next t ∧ (∀ k, k < 256 → (t.core k).tlb = (s.core k).tlb.filter fun e => !tlbNamed s.ev.n s.ev.ctx s.ev.va e) ∧
      (∀ k, k < 4 → (t.die k).tlb = (s.die k).tlb.filter fun e => !tlbNamed s.ev.n s.ev.ctx s.ev.va e) ∧ t.mem = s.mem) ∧
    (∀ w a q, d.walks = [w] → w.id = s.ev.id → w.waits = [a] → (s.core a.core).posOf a.uid = some q → (s.bank a.core q).wait = some .walk →
      let r := ((s.setDie s.ev.die { d with walks := [] }).lookup a.core w.ctx a.va (needOf a.kind a.size) a.user).2
      ∃ t, exec .translationWalkEnd s = .next t ∧ (t.die s.ev.die).walks = [] ∧ (t.bank a.core q).s = (s.bank a.core q).s ∧
        (∀ e, r = .ok e → (t.bank a.core q).wait = none ∧ (t.bank a.core q).walkErr = (s.bank a.core q).walkErr) ∧
        (∀ e, r = .error e → (if e.code = 0x10 ∧ 1 ≤ a.kind ∧ a.kind ≤ 4 ∧ a.soft = false then
            (t.bank a.core q).wait = some .park ∧ ((s.die (dieOf a.core)).faults.length < 4096 →
              (t.die (dieOf a.core)).faults.map (fun f => (f.seq, f.va, f.kind, f.uid)) =
                (s.die (dieOf a.core)).faults.map (fun f => (f.seq, f.va, f.kind, f.uid)) ++
                  [((s.die (dieOf a.core)).faultNext.toNat, a.va, a.kind, (s.bank a.core q).uid)] ∧
              (t.bank a.core q).parked = (s.bank a.core q).parked ++ [(s.die (dieOf a.core)).faultNext.toNat])
          else (t.bank a.core q).wait = none ∧ (t.bank a.core q).walkErr = some (a.kind, a.va, e)))) ∧
    -- FAULT_ENTRY_WRITE, FQRESOLVE, FAULT_RELEASE
    (∀ e es, d.faultWait = e :: es → d.faults.length < 4096 → s.ev.die = dieOf e.core → ∃ t, exec .faultEntryWrite s = .next t ∧
      (t.die s.ev.die).faults = d.faults ++ [{ e with seq := d.faultNext.toNat }] ∧ (t.die s.ev.die).faultNext = d.faultNext + 1 ∧
      (t.die s.ev.die).faultWait = es ∧ t.mem = s.mem) ∧
    (d.state ≠ .released → exec .fqresolveRetry s = .next s ∧ exec .fqresolveFail s = .next s ∧ exec .fqresolveReject s = .next s) ∧
    (∀ i act, d.state = .released → (i = .fqresolveRetry ∧ act = 0) ∨ (i = .fqresolveFail ∧ act = 1) ∨ (i = .fqresolveReject ∧ act = 2) →
      ∃ t, exec i s = .next t ∧
      (if d.faults.any (fun e => e.seq == s.ev.n) then
        (t.die s.ev.die).faults = d.faults.map (fun e => if e.seq = s.ev.n then { e with action := some act } else e) ∧
        (t.die s.ev.die).badres = d.badres
       else (t.die s.ev.die).faults = d.faults ∧ (t.die s.ev.die).badres = true) ∧ t.mem = s.mem) ∧
    (∀ e q, d.faults = [e] → e.accId = none → e.latch = none → (s.core e.core).posOf e.uid = some q → (s.bank e.core q).parked = [e.seq] →
      (e.action = none → exec .faultRelease s = .next s) ∧
      (e.action = some 0 ∨ e.action = some 1 → e.kind < 10 → ∃ t, exec .faultRelease s = .next t ∧ (t.die s.ev.die).faults = [] ∧
        (t.bank e.core q).parked = [] ∧ (t.bank e.core q).s = (s.bank e.core q).s ∧ t.mem = s.mem ∧
        (t.bank e.core q).async = (s.bank e.core q).async ++ (if e.action = some 0 then [] else
          [{ code := 0x10, info := BitVec.ofNat 64 (e.kind + 64 * e.evict.toNat + 128 * e.malformed.toNat), addr := e.va, slot := e.slot }])))

/-- Events of the scheduler (R285-R287, R290-R293, R297): insertion of a record, its pop to an empty position, the join counter, the
timetable, held log entries. That a log entry counts in LOGWR where its ring address has no translation, and that nothing the scheduler
writes reaches a slab, is the model's choice (log 14). -/
def Obligations.SchedulerEvents : Prop :=
  ∀ (s : State), let c := s.ev.core
    let p := s.ev.pos
    let pa := s.ev.pa
    let v := s.memNat pa 64
    let d := homeDie pa
    -- RECORD_INSERT of a well-formed record that names no cluster
    (let ctx := bitsOf v 240 12
     let ready := bitsOf v 256 32 == 0
     (s.worldOf s.ev.ctx = 0 ∨ (s.world (s.worldOf s.ev.ctx)).tdisp = .run) → 3 ≤ bitsOf v 376 8 → s.recMalformed (s.worldOf s.ev.ctx) v = false →
      (s.ctx ctx).dead = false → (s.ctx ctx).loaded = true → bitsOf v 352 16 = 0 → ∃ t, exec .recordInsert s = .next t ∧
      (∀ x, t.byteAt x = if x = pa + 0x2F ∧ isSlab x = false then (if ready then 1 else 0) else s.byteAt x) ∧
      (t.die d).recs = (s.die d).recs ++ [⟨pa, s.ev.va, ctx, ready, bitsOf v 368 4, bitsOf v 288 32, 0, bitsOf v 372 4, bitsOf v 320 16,
        bitsOf v 336 8, bitsOf v 344 8⟩]) ∧
    -- RECORD_POP: the registers of the new task
    (∀ r charged, s.positionFree c p = true → s.keptForLeague c = false → s.choosePop c = some (r, charged) → ∃ t k, exec .recordPop s = .next t ∧
      (let b := t.bank c p
       let w := s.memNat r.pa 64
       b.task = some k ∧ k.uid = s.uids + 1 ∧ k.ctx = r.ctx ∧ k.pa = r.pa ∧ k.vregs = r.vregs ∧ k.sems = r.sems ∧
       b.pc = BitVec.ofNat 64 w ∧ b.csrAt 0x00B = BitVec.ofNat 64 (bitsOf w 64 16) ∧ b.sget 16 = BitVec.ofNat 64 (bitsOf w 464 48) ∧
       b.aget 0 = BitVec.ofNat 80 (bitsOf w 160 80) ∧ b.csrAt 0x015 = BitVec.ofNat 64 (bitsOf w 80 64) + 16 ∧
       b.priv = decide ((s.ctx r.ctx).mode % 2 = 1) ∧ b.exl = false ∧ b.guarded = bitOf r.flags 0 ∧ b.status 7 = bitOf r.flags 1 ∧
       b.csrAt 0x011 = BitVec.ofNat 64 r.vregs ∧ b.csrAt 0x013 = BitVec.ofNat 64 (r.sems + 1) ∧ b.csrAt 0x018 = (s.ctx r.ctx).wstk ∧
       b.csrAt 0x029 = BitVec.ofNat 64 r.cost ∧ b.csrAt 0x02A = BitVec.ofNat 64 (s.ctx r.ctx).margin ∧
       b.flight = [] ∧ b.accs = [] ∧ b.owed = none ∧ b.spec = none ∧ (∀ n, b.kget n = carryReset n)) ∧
      t.uids = s.uids + 1 ∧ (t.ctx r.ctx).reserved = (s.ctx r.ctx).reserved + 1 ∧
      (t.die (dieOf c)).recs = (s.die (dieOf c)).recs.filter (fun y => y.pa != r.pa)) ∧
    (s.positionFree c p = false ∨ s.keptForLeague c = true → exec .recordPop s = .next s) ∧
    -- JOIN_DECREMENT
    (let j := s.memNat (pa + 0x20) 4
     (2 ≤ j → ∃ t, exec .joinDecrement s = .next t ∧ (∀ x, t.byteAt x =
       if pa + 0x20 ≤ x ∧ x < pa + 0x24 ∧ isSlab (pa + 0x20) = false then BitVec.ofNat 8 ((j - 1) / 256 ^ (x - (pa + 0x20))) else s.byteAt x) ∧ (t.die d).recs = (s.die d).recs) ∧
     (j = 1 → s.byteAt (pa + 0x2F) = 0 → ∃ t, exec .joinDecrement s = .next t ∧ (∀ x, t.byteAt x =
       if pa + 0x20 ≤ x ∧ x < pa + 0x24 ∧ isSlab (pa + 0x20) = false then 0
       else if x = pa + 0x2F ∧ isSlab x = false then 1 else s.byteAt x) ∧
       (t.die d).recs = (s.die d).recs.map (fun r => if r.pa = pa then { r with ready := true } else r)) ∧
     (j = 0 → ∃ t, exec .joinDecrement s = .next t ∧ t.mem = s.mem ∧ (t.die d).sched.getLsbD 1 = true ∧ (t.die d).schedAddr = s.ev.va)) ∧
    -- FURLONG_START: CL := min(B, CL + B), and nothing between furlongs
    (s.clk % 4194304 = 0 → (s.cores.map (·.1)).Nodup → (∀ k, ((s.core k).claims.map (·.1)).Nodup) → ∃ t, exec .furlongStart s = .next t ∧
      (∀ k x, t.claim k x = min (s.budget x) (s.claim k x + s.budget x)) ∧ t.mem = s.mem) ∧
    (s.clk % 4194304 ≠ 0 → exec .furlongStart s = .next s) ∧
    -- HELD_LOG_WRITE
    (∀ e, (s.die s.ev.die).heldLog = [e] → (s.ctx e.ctx).slotFree = true → ∃ t, exec .heldLogWrite s = .next t ∧
      (t.die s.ev.die).heldLog = [] ∧ (t.ctx e.ctx).logwr = ((s.ctx e.ctx).logwr + 1) % 2 ^ 32 ∧
      (isSlab (s.ctx e.ctx).desc = false → t.memNat ((s.ctx e.ctx).desc + 0x34) 4 = ((s.ctx e.ctx).logwr + 1) % 2 ^ 32))

/-- Events of the copy engine, the M queue, the array, the lease, the journal engine and the scrubber (R157, R158, R179, R182-R186, R188,
R189, R201-R203, R207, R303-R308): what each does where its condition holds. How a copy reads ahead, how large the share of its writes is that
a unit makes due, and when in its clk each comes about, are the model's choice (log 19), and so are the order of a sweep's end (log 36), the CRC
of a tag and a rewrite in every power state (log 34), and what a read-only slab does with its queued records (log 7). -/
def Obligations.EngineEvents : Prop :=
  ∀ (s : State), let c := s.ev.core
    let p := s.ev.pos
    let b := s.bank c p
    let x := s.core c
    let cl := clusterOf c
    let kc := s.cluster cl
    let signalled (t : State) (m : MCmd) : Prop := (t.core c).semSig = if m.ss = 0 then x.semSig else x.semSig ++ [(m.ss, 1, m.uid)]
    -- COPY_START: not before its wait succeeds, and in issue order; then it joins the engine's rotation
    (∀ q y, s.copyAt c s.ev.id = some (q, y) →
      (s.copyReady c q y = false → exec .copyStart s = .next s) ∧
      (s.copyReady c q y = true → exec .copyStart s = .next
        ((s.modCore c fun x => { (x.takeSem y.ws y.wt) with nextId := x.nextId + 1 }).modCopy c q y.id fun y =>
          { y with st := .started, begun := s.clk, turn := x.nextId }))) ∧
    -- COPY_COMPLETE between scratchpad ranges: in the engine's turn a share of the write events of the pipeline is due; by the end of the clk
    -- those that are due have come about, and after the last one CPSTAT holds the counts
    (∀ y, let d := Desc.parse y.desc
      s.ev.n = 0 → (x.banks.map (·.1)).Pairwise (· < ·) →
      x.running = [(p, y)] → b.copies = [y] → s.copyAt c y.id = some (p, y) → p < 4 → d.dstk = 1 →
      d.srcScratch = true → d.packed = false → d.useDelta = false → x.issue.lastClk ≠ s.clk → y.begun + 5 + d.latency ≤ s.clk →
      y.out = [] → y.readN = d.reads.length →
      let w := (y.output d).1
      let n := d.unitCount w
      let total := (d.writes w).length
      let upto := if n ≤ y.units + 1 then total else total * (y.units + 1) / n
      let due := (((d.writes w).take upto).drop y.wroteN).mapIdx fun i e => ({ n := y.asked + i, parts := e.parts } : OutPart)
      ∃ t, exec .copyComplete s = .next t ∧ t.mem = s.mem ∧ (t.core c).scratch = x.scratch ∧ (t.bank c p).csrAt 0x058 = b.csrAt 0x058 ∧
        (t.core c).lastTurn = y.turn ∧
        (t.bank c p).copies = [{ y with units := y.units + 1, wroteN := upto, out := due, asked := y.asked + due.length,
                                        stat := (y.output d).2, crc := w.crc, flags := w.flags,
                                        fate := if n ≤ y.units + 1 then some none else none }]) ∧
    (∀ y, let d := Desc.parse y.desc
      s.ev.n = 1 → (x.banks.map (·.1)).Pairwise (· < ·) →
      x.startedCopies = [y.id] → b.copies = [y] → s.copyAt c y.id = some (p, y) → p < 4 → y.st = .started → y.err = none → d.dstk = 1 →
      y.cm = 0 → y.out.all (·.toks.isNone) = true → (y.out.map (·.n)).Nodup →
      let parts := y.out.flatMap (·.parts)
      let sum := y.written + (parts.map (·.2.length)).sum
      ∃ t, exec .copyComplete s = .next t ∧ t.mem = s.mem ∧
        (t.core c).scratch = parts.foldl (fun m e => mapSetList (fun _ => 0) m e.1.toNat e.2) x.scratch ∧
        (y.fate = none → (t.bank c p).csrAt 0x058 = b.csrAt 0x058 ∧ (t.bank c p).copies = [{ y with out := [], written := sum }]) ∧
        (y.fate = some none → (t.bank c p).copies = [] ∧ (t.bank c p).csrAt 0x058 = BitVec.ofNat 64 ((sum % 2 ^ 25) * 2 ^ 39 +
          (y.readB % 2 ^ 25) * 2 ^ 14 + y.cdn * 2 ^ 9 + y.deferred.toNat * 16 + y.stat) ∧
          (t.core c).semSig = if y.ss = 0 then x.semSig else x.semSig ++ [(y.ss, y.si, b.uid)])) ∧
    -- COPY_FAULT: the cause is raised at the strand's next bundle, and CPSTAT is its only completion effect
    (∀ y e, s.copyAt c s.ev.id = some (p, y) → b.copies = [y] → p < 4 → y.st = .started → y.err = some e → ∃ t, exec .copyFault s = .next t ∧
      (t.bank c p).copies = [] ∧ (t.bank c p).async = b.async ++ [{ e with slot := 6, decode := false }] ∧
      (t.bank c p).csrAt 0x058 = y.cpstat ∧ (t.core c).semSig = x.semSig ∧ t.mem = s.mem) ∧
    -- M_QUEUE_START
    (∀ m ms, x.mq = m :: ms → s.headFree c m = true → x.semReady m.ws m.wt = true →
      (∀ oa ob, m.op = .ofill ob oa → s.slotsOpen c [oa, ob] = true → ∃ t, exec .mQueueStart s = .next t ∧ (t.core c).mq = ms ∧
        (t.core c).mrun = x.mrun ++ [{ m with start := some s.clk }] ∧ t.mem = s.mem ∧
        (t.core c).semWait = if m.ws = 0 then x.semWait else x.semWait ++ [(m.ws, m.wt)]) ∧
      (∀ f, m.op = .mma f → s.slotsOpen c [f.oa, f.ob] = true → kc.lease.holder = some c → s.arrayFree c = true →
        x.mayUse (shFrame (m.shapes.headD 0)) m.ctx = true → ∃ t, exec .mQueueStart s = .next t ∧ (t.core c).mq = ms ∧
        (t.core c).mrun = x.mrun ++ [{ m with id := x.nextId, op := .mma f, shapes := [m.shapes.headD 0], start := some s.clk,
                                              loaded := (kc.slot f.ob).bytes }] ∧
        (t.cluster cl).lease = { kc.lease with lastStart := s.clk, lastRows := shRows (m.shapes.headD 0), cmds := kc.lease.cmds + 1,
                                               busyTo := max kc.lease.busyTo (s.clk + 11 + shRows (m.shapes.headD 0)) } ∧
        t.mem = s.mem)) ∧
    -- ORELEASE_EFFECT, UNLEASE_EFFECT
    (∀ m ms o, x.mq = m :: ms → m.op = .orelease o → s.headFree c m = true → x.mrun = [] → (∀ e ∈ x.banks, e.2.copies = []) →
      ∃ t, exec .oreleaseEffect s = .next t ∧ (t.core c).mq = ms ∧ ((t.cluster cl).slot o).claim = none ∧
        ((t.cluster cl).slot o).bytes = (kc.slot o).bytes) ∧
    (∀ m ms, x.mq = m :: ms → m.op = .unlease → s.headFree c m = true → ∃ t, exec .unleaseEffect s = .next t ∧ (t.core c).mq = ms ∧
      (t.cluster cl).lease.reqs = kc.lease.reqs.filter (fun r => r != c) ++
        (if (match ms with | h :: _ => h.op.isArray | [] => false) = true ∧ kc.lease.holder ≠ some c then [c] else []) ∧
      (t.cluster cl).lease.ended = (kc.lease.ended || kc.lease.holder == some c)) ∧
    -- MMA_ROW_STREAM: a row of the result a clk from clk 12 on; an uncorrectable operand word stops the command
    (∀ m f st, x.mrun.find? (fun m => m.id == s.ev.id) = some m → m.op = .mma f → m.start = some st → m.stop = none →
      m.row < shRows (m.shapes.headD 0) →
      let w := m.shapes.headD 0
      let offs := lineBytes f.fmt m.layA m.row
      (s.clk < st → exec .mmaRowStream s = .next s) ∧
      (s.clk = st → exec .mmaRowStream s = .next (s.setRun c { m with loaded := (kc.slot f.ob).bytes })) ∧
      (st + 12 ≤ s.clk → s.clk < st + 12 + m.row → exec .mmaRowStream s = .next s) ∧
      (st + 12 + m.row ≤ s.clk → kc.slotBad f.oa offs = none → let out := s.mmaRow c m f w (offs.map (fun o => s.slotByte c f.oa o))
        ∃ t, exec .mmaRowStream s = .next t ∧ t.mem = s.mem ∧ (t.core c).accum = mapSetList (fun _ => 0) x.accum
          (65536 * shFrame w + m.row * shCols w * shSize w) (out.flatMap (fun o => bytesOfNat (shSize w) o.val)) ∧
        (t.core c).mrun = x.mrun.map (fun r => if r.id = m.id then
          { m with row := m.row + 1, nanb := m.nanb || lineNanb (offs.map (fun o => s.slotByte c f.oa o)),
                   auf := m.auf + (out.filter (·.auf)).length, ofc := m.ofc + (out.filter (·.ovf)).length,
                   iv := m.iv + (out.map (·.iv)).sum } else r)) ∧
      (∀ o, st + 12 + m.row ≤ s.clk → kc.slotBad f.oa offs = some o → ∃ t, exec .mmaRowStream s = .next t ∧ (t.core c).accum = x.accum ∧
        (t.core c).mrun = x.mrun.map (fun r => if r.id = m.id then { m with stop := some (65536 * f.oa + 8 * (o / 8)) } else r) ∧
        (t.bank c p).async = b.async)) ∧
    -- MMA_COMPLETE, OFILL_COMPLETE: SS is signalled, but not by a command that an uncorrectable word stopped
    (∀ m f st, x.mrun = [m] → m.id = s.ev.id → m.op = .mma f → m.start = some st → x.doomed = [] → x.posOf m.uid ≠ some 4 →
      (m.stop = none → shRows (m.shapes.headD 0) ≤ m.row → st + 11 + shRows (m.shapes.headD 0) ≤ s.clk → ∃ t, exec .mmaComplete s = .next t ∧
        (t.core c).mrun = [] ∧ signalled t m ∧ (t.core c).accum = x.accum ∧ t.mem = s.mem) ∧
      (m.stop = none → s.clk < st + 11 + shRows (m.shapes.headD 0) → exec .mmaComplete s = .next s) ∧
      (∀ a q, m.stop = some a → x.posOf m.uid = some q → ∃ t, exec .mmaComplete s = .next t ∧
        (t.core c).mrun = [] ∧ (t.core c).semSig = x.semSig ∧ (t.core c).accum = x.accum ∧ (t.bank c q).async = (s.bank c q).async ++
          [{ code := 0x18, info := 5, addr := BitVec.ofNat 80 a, slot := 4 }])) ∧
    (∀ m oa ob st, x.mrun = [m] → m.id = s.ev.id → m.op = .ofill ob oa → m.start = some st → x.doomed = [] → m.filled = [] →
      ((kc.slot oa).bytes.map (·.1)).Pairwise (· < ·) → ((kc.slot ob).bytes.map (·.1)).Pairwise (· < ·) →
      (st + 143 ≤ s.clk → ∃ t, exec .ofillComplete s = .next t ∧ (t.core c).mrun = [] ∧ signalled t m ∧ t.mem = s.mem ∧
        ∀ i, mapGet (fun _ => 0) ((t.cluster cl).slot ob).bytes i = if oa = ob then 0 else mapGet (fun _ => 0) (kc.slot oa).bytes i) ∧
      (s.clk < st + 143 → ∃ t, exec .ofillComplete s = .next t ∧ (t.core c).semSig = x.semSig ∧ t.mem = s.mem ∧ (t.core c).mrun.length = 1 ∧
        ∀ i, mapGet (fun _ => 0) ((t.cluster cl).slot ob).bytes i = mapGet (fun _ => 0) (kc.slot ob).bytes i ∨
          mapGet (fun _ => 0) ((t.cluster cl).slot ob).bytes i = if oa = ob then 0 else mapGet (fun _ => 0) (kc.slot oa).bytes i)) ∧
    -- SLOT_ZEROING_DONE: after the last of the 144 clk
    (∀ due, ((s.cluster s.ev.cl).slot s.ev.n).zeroing = some due → (s.clk ≤ due → exec .slotZeroingDone s = .next s) ∧
      (due < s.clk → ∃ t, exec .slotZeroingDone s = .next t ∧
        (t.cluster s.ev.cl).slot s.ev.n = { (s.cluster s.ev.cl).slot s.ev.n with zeroing := none })) ∧
    -- LEASE_GRANT, LEASE_PASS, QUANTUM_EXPIRE
    (let k := s.ev.cl
     let y := s.cluster k
     (y.lease.holder = none → y.lease.reqs.contains c = true → ∃ t, exec .leaseGrant s = .next t ∧ (t.cluster k).lease.holder = some c ∧
       (t.cluster k).lease.reqs = y.lease.reqs.filter (fun r => r != c) ∧ (t.cluster k).lease.start = s.clk ∧ (t.cluster k).lease.cmds = 0) ∧
     (∀ h, y.lease.holder = some h →
       (∀ n, (s.core h).arrayRuns = false → y.lease.ended = true ∨ (s.core h).arrayQueued = false → y.nextCore k h = some n → n ≠ h →
         ∃ t, exec .leasePass s = .next t ∧ (t.cluster k).lease.holder = some n ∧ (t.cluster k).lease.start = s.clk + 1) ∧
       ((s.core h).arrayRuns = true → exec .leasePass s = .next s) ∧
       (64 ≤ y.lease.cmds ∨ y.lease.start + 8192 ≤ s.clk + 1 → ∃ t, exec .quantumExpire s = .next t ∧
         (y.others h = [] → (t.cluster k).lease = { y.lease with start := s.clk + 1, cmds := 0 }) ∧
         (y.others h ≠ [] → (t.cluster k).lease = { y.lease with ended := true })))) ∧
    -- JOURNAL_ATTEMPT of a record: written at the first attempt, or the next pulse level, or a read-only slab
    (let k := s.ev.cl
     let y := s.cluster k
     (∀ a w ws, y.slab.att = some a → y.slab.work = w :: ws → s.clk < a.due → exec .journalAttempt s = .next s) ∧
     (∀ a n ws u r, y.slab.att = some a → y.slab.work = .record n :: ws → y.slab.txn = some u → u.aborting = false → u.recs[n]? = some r →
       r.data.length = 64 → a.due ≤ s.clk → y.slab.ro = false → a.copies = 0 → a.spare = none →
       (jfiHits y.jfi (some r.home) = false → ∃ t, exec .journalAttempt s = .next t ∧
         (Config.writeFails s.fresh = false →
           (∀ i, t.byteAt i = if slabPa k (quireOff r.unit) ≤ i ∧ i < slabPa k (quireOff r.unit) + 64
             then r.data.getD (i - slabPa k (quireOff r.unit)) 0 else s.byteAt i) ∧
           (t.cluster k).slab.att = none ∧ (t.cluster k).slab.work = ws ∧
           mapGet (fun _ => (0, 0, 0)) (t.cluster k).slab.tags r.unit = (u.num + 1, r.home, tagCrc r.data u.num r.home)) ∧
         (Config.writeFails s.fresh = true → a.level < 3 →
           (t.cluster k).slab.att = some ⟨a.level + 1, 0, none, s.clk + attemptClk (a.level + 1)⟩ ∧ (t.cluster k).slab.work = .record n :: ws)) ∧
       (jfiHits y.jfi (some r.home) = true → a.level < 3 → ∃ t, exec .journalAttempt s = .next t ∧
         (t.cluster k).slab.att = some ⟨a.level + 1, 0, none, s.clk + attemptClk (a.level + 1)⟩ ∧ (t.cluster k).slab.work = .record n :: ws ∧
         (t.cluster k).jfi = jfiSpent y.jfi) ∧
       (jfiHits y.jfi (some r.home) = true → 3 ≤ a.level → 64 ≤ y.slab.spUsed → ∃ t, exec .journalAttempt s = .next t ∧
         (t.cluster k).slab.att = none ∧ (t.cluster k).slab.ro = true ∧ (t.cluster k).slab.work = ws)) ∧
     -- COMMIT_POINT, JOURNAL_APPLY, JOURNAL_RECOVERY
     (∀ u n, y.slab.txn = some u → u.commitUnit = some n → u.committed = false → s.tagSound k n u.num = true →
       ∃ t, exec .commitPoint s = .next t ∧ (t.cluster k).slab.gen = BitVec.ofNat 32 u.num ∧ t.mem = s.mem ∧
         (u.recs = [] → (t.cluster k).slab.txn = none) ∧ (u.recs ≠ [] → (t.cluster k).slab.txn = some { u with committed := true } ∧
           (t.cluster k).slab.work = y.slab.work ++ [.apply])) ∧
     (∀ u r ws, y.slab.txn = some u → u.recs = [r] → r.applied = false → y.slab.work = .apply :: ws → y.slab.att = none → y.power = .on →
       ∃ t, exec .journalApply s = .next t ∧ (t.cluster k).slab.txn = none ∧ (t.cluster k).slab.work = ws ∧ t.mem = s.mem) ∧
     (y.power = .recover → y.slab.work.contains .apply = false →
       (y.slab.txn = none → ∃ t, exec .journalRecovery s = .next t ∧ (t.cluster k).power = .on) ∧
       (∀ u n, y.slab.txn = some u → u.recs ≠ [] → u.commitUnit = some n → s.tagSound k n u.num = true →
         ∃ t, exec .journalRecovery s = .next t ∧ (t.cluster k).jfi = 0 ∧ (t.cluster k).slab.lastwake = 2 ∧
           (t.cluster k).slab.gen = BitVec.ofNat 32 u.num ∧ (t.cluster k).slab.work = y.slab.work ++ [.apply] ∧ t.mem = s.mem))) ∧
    -- SCRUB_STEP, ECC_REWRITE
    (∀ e o, s.ev.loc = .scratch e o → (s.core e).scratchBad (16 * (o / 16)) 16 = none → ∃ t, exec .scrubStep s = .next t ∧
      mapGet (fun _ => false) (t.core e).chunkMode (o / 16) = (s.core e).dected ∧ (t.core e).scratch = (s.core e).scratch ∧ t.mem = s.mem) ∧
    (∀ pa, s.ev.loc = .phys pa → s.ev.flag = false → exec .scrubStep s = .next s) ∧
    (∀ pa k off, s.ev.loc = .phys pa → placeOf pa = .mram k off → mapGet (fun _ => 0) (s.die (homeDie pa)).corrCount (pa / 4096) < 15 →
      ∃ t, exec .eccRewrite s = .next t ∧ t.mem = s.mem ∧
        mapGet (fun _ => 0) (t.die (homeDie pa)).corrCount (pa / 4096) = mapGet (fun _ => 0) (s.die (homeDie pa)).corrCount (pa / 4096) + 1 ∧
        (t.cluster k).slab.work = (s.cluster k).slab.work ++ [.rewrite (64 * (off / 64)) false]) ∧
    -- SWEEP_COMPLETE of a range: its bytes read zero, and its semaphore is signalled
    (∀ w, (s.die s.ev.die).sweeps = [w] → w.num = s.ev.n → s.sweepPending w = false → w.mode = 0 → s.pkg.teardowns = [] →
      ∃ t, exec .sweepComplete s = .next t ∧
        (∀ i, t.byteAt i = if s.sweptByte s.ev.die w i = true ∧ isSlab i = false then 0 else s.byteAt i) ∧
        (t.die s.ev.die).sweeps = [] ∧ t.pkg.receiptNo = s.pkg.receiptNo + 1 ∧
        (w.sem ≠ 0 → (t.core w.core).semSig = (s.core w.core).semSig ++ [(w.sem, 1, w.uid)])) ∧
    -- CACHE_LINE_UE of a clean line: the line is dropped, and the way leaves the set
    (∀ n l, (s.die s.ev.die).cache = [(n, l)] → n = s.ev.pa / 128 → l.dirty = false → ∃ t, exec .cacheLineUe s = .next t ∧
      (t.die s.ev.die).cache = [] ∧ (t.die s.ev.die).quarantine.contains (n % 32768, l.way) = true ∧ t.mem = s.mem)

/-- Events of power, heat and energy (R208-R216, R341-R344): what each does where its condition holds. How the power manager chooses is the
model's choice (log 33), and so are what a loss of power reaches (log 31), the order and times of refreshes (log 32), and that nothing comes
from the host while I/O die 0 is held (log 73). -/
def Obligations.PowerEvents : Prop :=
  ∀ (s : State), let k := s.ev.cl
    let y := s.cluster k
    let idle (i : Nat) : Prop := s.core (4 * k + i) = {}
    -- CLUSTER_OFF: only where a rest is asked for and nothing is left to do
    (s.mayRest k = false → exec .clusterOff s = .next s) ∧
    (s.mayRest k = true → ∃ t, exec .clusterOff s = .next t ∧ (t.cluster k).power = .off ∧ (t.cluster k).slots = [] ∧
      (∀ i, i < 4 → (t.core (4 * k + i)).scratch = [] ∧ (t.core (4 * k + i)).vfile = [] ∧ (t.core (4 * k + i)).accum = [] ∧
        (t.core (4 * k + i)).frameOwner = [])) ∧
    -- CLUSTER_WAKE and RAMP_ALLOWANCE_REACHED: 20 W of the allowance, then the supplies ramp
    (∀ i, i = .clusterWake ∨ (i = .rampAllowanceReached ∧ y.wakeWaits = true) → ∃ t, exec i s = .next t ∧ t.mem = s.mem ∧ t.cores = s.cores ∧
      (y.power = .off → (s.die (k / 16)).state = .released → 20000 ≤ s.pkg.allowance →
        (t.cluster k).power = .ramp (s.clk + s.usClk 3) ∧ t.pkg.allowance = s.pkg.allowance - 20000 ∧ (t.cluster k).wakeWaits = false) ∧
      (y.power = .off → (s.die (k / 16)).state = .released → s.pkg.allowance < 20000 →
        (t.cluster k).power = .off ∧ (t.cluster k).wakeWaits = true ∧ t.pkg = s.pkg) ∧
      (y.power ≠ .off → t.cluster k = y ∧ t.pkg = s.pkg)) ∧
    -- SUPPLY_RAMP_DONE, SRAM_CLEAR_DONE: the clear takes 1 µs; a sample comes before recovery
    (∀ due, y.power = .ramp due → (s.clk < due → exec .supplyRampDone s = .next s) ∧
      (due ≤ s.clk → ∃ t, exec .supplyRampDone s = .next t ∧ (t.cluster k).power = .clear (s.clk + s.usClk 1) ∧ t.mem = s.mem)) ∧
    (∀ due, y.power = .clear due → (s.clk < due → exec .sramClearDone s = .next s) ∧
      (due ≤ s.clk → ∃ t e, exec .sramClearDone s = .next t ∧ (t.cluster k).power = .recover ∧ t.mem = s.mem ∧ e.cl = k ∧
        t.agenda = (.dramSensorSample, e) :: s.agenda)) ∧
    -- POWER_LOSS: memory keeps what it holds
    ((∀ e ∈ s.clusters, e.2.power = .off) → exec .powerLoss s = .next s) ∧
    (s.clusters = [(k, y)] → y.power ≠ .off → (∀ i, i < 4 → idle i) → ∃ t, exec .powerLoss s = .next t ∧ t.mem = s.mem ∧
      (t.cluster k).power = .off ∧ (t.cluster k).slab.gen = y.slab.gen ∧ (t.cluster k).slab.txn = y.slab.txn ∧
      (t.cluster k).slab.remap = y.slab.remap ∧ (t.cluster k).slab.wear = y.slab.wear) ∧
    -- BANK_REFRESH_START, BANK_REFRESH_END: the banks in turn, each for 180 ns, 16 to an interval
    (16 * s.clk < y.refAt → ∃ t, exec .bankRefreshStart s = .next t ∧ t.cluster k = y ∧ t.mem = s.mem) ∧
    (y.refAt ≤ 16 * s.clk → ∃ t, exec .bankRefreshStart s = .next t ∧ t.mem = s.mem ∧
      mapGet (fun _ => 0) (t.cluster k).refresh y.refBank = s.clk + s.usClk 180 / 1000 ∧ (t.cluster k).refBank = (y.refBank + 1) % 16 ∧
      (t.cluster k).refAt = max y.refAt (16 * s.clk - 15) + if y.hot then s.usClk 195 / 100 else s.usClk 39 / 10) ∧
    (s.clk < mapGet (fun _ => 0) y.refresh s.ev.n → exec .bankRefreshEnd s = .next s) ∧
    (mapGet (fun _ => 0) y.refresh s.ev.n ≤ s.clk → ∃ t, exec .bankRefreshEnd s = .next t ∧
      mapGet (fun _ => 0) (t.cluster k).refresh s.ev.n = 0 ∧ t.mem = s.mem) ∧
    -- DRAM_SENSOR_SAMPLE: 85.0 and 105.0 degrees less the readings, in 1/16 degree; from 85.0 on the interval is halved
    (-2000 ≤ s.ev.dram → s.ev.dram ≤ 4000 → -2000 ≤ s.ev.logic → s.ev.logic ≤ 4000 → ∃ t, exec .dramSensorSample s = .next t ∧
      (t.cluster k).tallow.toInt = 1360 - s.ev.dram ∧ (t.cluster k).tallowl.toInt = 1680 - s.ev.logic ∧
      ((t.cluster k).hot = true ↔ 1360 ≤ s.ev.dram) ∧ (t.cluster k).power = y.power ∧ t.mem = s.mem) ∧
    -- THERMAL_STEP: one step down from the frequency in force while a cluster's logic has no room, else one up, at most 32; the lowest setting is in force
    (∃ t, exec .thermalStep s = .next t ∧ t.mem = s.mem ∧ t.pkg.freq = min (min t.pkg.thermal s.pkg.cap) s.pkg.hostFreq ∧
      ((∃ e ∈ s.clusters, e.2.tallowl.toInt < 0) → t.pkg.thermal = s.pkg.freq - 1) ∧
      ((∀ e ∈ s.clusters, 0 ≤ e.2.tallowl.toInt) → t.pkg.thermal = min 32 (s.pkg.thermal + 1))) ∧
    -- POWER_MANAGER_PERIOD: above ECAP pops stop, then the frequency falls; at 95 % or less it rises again (the choice is log 33's)
    (∃ t, exec .powerManagerPeriod s = .next t ∧ t.mem = s.mem ∧ t.pkg.freq = min (min s.pkg.thermal t.pkg.cap) s.pkg.freqReq ∧
      (s.ev.n ≤ s.pkg.ecap → t.pkg.stopped = [] ∧
        t.pkg.cap = if 100 * s.ev.n ≤ 95 * s.pkg.ecap then min 32 (s.pkg.cap + 1) else s.pkg.cap) ∧
      (s.pkg.ecap < s.ev.n → (∃ w ∈ s.overFloor s.ev.share, s.pkg.stopped.contains w = false) → t.pkg.cap = s.pkg.cap ∧
        (∀ w ∈ s.overFloor s.ev.share, t.pkg.stopped.contains w = true)) ∧
      (s.pkg.ecap < s.ev.n → (∀ w ∈ s.overFloor s.ev.share, s.pkg.stopped.contains w = true) → t.pkg.cap = s.pkg.cap - 1)) ∧
    -- FREQREQ_WRITE, PCAP_WRITE, FLOOR_WRITE; nothing comes from the host while I/O die 0 is held
    (∀ i, i ∈ [.freqreqWrite, .pcapWrite, .floorWrite, .energyLoRead, .energyHiRead] → s.ioUp 0 = false → exec i s = .next s) ∧
    (s.ioUp 0 = true → ∃ t, exec .freqreqWrite s = .next t ∧ t.pkg.freqReq = min (s.ev.v.extractLsb' 0 6).toNat 32 ∧ t.pkg.freq = s.pkg.freq ∧ t.mem = s.mem) ∧
    (s.ioUp 0 = true → ∃ t, exec .pcapWrite s = .next t ∧ t.pkg.pcap = (s.ev.v.extractLsb' 0 16).toNat ∧ t.pkg.ecap = max t.pkg.pcap Config.idleFloor ∧
      t.pkg.belowFloor = decide (t.pkg.pcap < Config.idleFloor) ∧
      t.pkg.scaled = decide (t.pkg.ecap - Config.idleFloor < (s.worlds.map (fun e => e.2.floor)).sum) ∧ t.mem = s.mem) ∧
    (s.ioUp 0 = true → ∃ t, exec .floorWrite s = .next t ∧ (t.world s.ev.w).floor = (s.ev.v.extractLsb' 0 16).toNat ∧ t.pkg.pcap = s.pkg.pcap ∧ t.mem = s.mem) ∧
    -- ENERGY_LO_READ, ENERGY_HI_READ, ENERGY_COUNTER_WRAP
    (s.ioUp 0 = true → s.pkg.energy < 2 ^ 64 → ∃ t, exec .energyLoRead s = .next t ∧ t.pkg.msgs = s.pkg.msgs ++ [.host s.ev.w true (s.pkg.energy % 2 ^ 32)] ∧
      (t.world s.ev.w).shadow.toNat = s.pkg.energy / 2 ^ 32 ∧ (t.world s.ev.w).armed = true ∧ t.mem = s.mem) ∧
    (s.ioUp 0 = true → ∃ t, exec .energyHiRead s = .next t ∧ t.pkg.msgs = s.pkg.msgs ++ [.host s.ev.w true
        (if (s.world s.ev.w).armed then (s.world s.ev.w).shadow.toNat else s.pkg.energy / 2 ^ 32)] ∧
      (t.world s.ev.w).armed = false ∧ t.mem = s.mem) ∧
    (s.pkg.energy < 2 ^ 64 → exec .energyCounterWrap s = .next s) ∧
    (2 ^ 64 ≤ s.pkg.energy → ∃ t, exec .energyCounterWrap s = .next t ∧ t.pkg.energy = s.pkg.energy % 2 ^ 64 ∧ t.pkg.wrap = true ∧
      t.mem = s.mem)

/-- Events of the package and of its host: boot, SPDM, TDISP, the mailbox, notify, registers (R324-R340, R345-R356): what each does where
its condition holds. The layouts of responses, trailers and sections are the model's choice (logs 39, 42, 43), and so are what a reset of the
package keeps (log 31), the place of host memory (log 37), the checks of CTXLOAD and what LGLAUNCH reads (logs 40, 41), and that nothing comes
from the host while I/O die 0 is held (log 73). -/
def Obligations.PackageEvents : Prop :=
  ∀ (s : State), let w := s.ev.w
    let x := s.world w
    let arg (i : Nat) : Word := mapGet (fun _ => 0) x.mbarg i
    -- a mailbox command that is taken; what it answers (0 OK, 1 DENIED, 2 BADARG)
    let taken : Prop := s.ioUp 0 = true ∧ s.tearing w = false ∧ x.mbBusy = false
    let answers (i : Instr) (r : Nat) (p : State → Prop) : Prop := ∃ t, exec i s = .next t ∧ (t.world w).mbResult = r ∧ p t
    let hostBase (h : Word) : Nat := 0x10000000000000 + h.toNat % 2 ^ 52
    -- PACKAGE_RESET, DIE_AUTHENTICATE
    (∃ t, exec .packageReset s = .next t ∧ t.mem = s.mem ∧ t.cores = [] ∧ t.ctxs = [] ∧ t.dies = [] ∧ t.leagues = [] ∧ t.agenda = [] ∧
      t.pkg.bootNext = 0 ∧ t.pkg.pcap = 12000 ∧ t.pkg.receiptNo = s.pkg.receiptNo ∧ (∀ i, t.ioUp i = false) ∧
      ∀ k, (t.cluster k).power = .off) ∧
    (s.pkg.teardowns = [] → s.ev.n = s.pkg.bootNext → s.ev.n < 6 → ∃ t, exec .dieAuthenticate s = .next t ∧
      t.pkg.bootNext = s.ev.n + 1 ∧ t.mem = s.mem ∧ (let pass := Config.spdmPasses s.ev.n && decide (Config.measurement s.ev.n = Config.manifest s.ev.n)
        (pass = false → t.pkg.bootLog = s.pkg.bootLog ++ [s.ev.n]) ∧
        (s.ev.n < s.pkg.io.length → s.ev.n < 2 → (t.ioUp s.ev.n = true ↔ pass = true ∧ (s.ev.n = 0 ∨ s.ioUp 0 = true))) ∧
        (2 ≤ s.ev.n → ((t.die (s.ev.n - 2)).state = .released ↔ pass = true ∧ s.ioUp 0 = true)))) ∧
    -- nothing comes from the host while I/O die 0 is held
    (∀ i, i ∈ [.getVersion, .getCapabilities, .negotiateAlgorithms, .getDigests, .getCertificate, .challenge, .getMeasurements, .configLocked,
        .run, .tdispExit, .ctxassign, .ctxload, .ctxkill, .pageout, .pagein, .worldfree, .resync, .lglaunch, .notify, .firewallWrite,
        .registerWrite] → s.ioUp 0 = false → exec i s = .next s) ∧
    -- SPDM: the seven requests of R324 and R325, in order; what the responses hold
    (∀ i n r, (i = .getVersion ∧ n = 1 ∧ r = []) ∨ (i = .getCapabilities ∧ n = 2 ∧ r = []) ∨ (i = .negotiateAlgorithms ∧ n = 3 ∧ r = []) ∨
      (i = .getDigests ∧ n = 4 ∧ r = sha3 s.certificates) ∨ (i = .getCertificate ∧ n = 5 ∧ r = s.certificates) ∨
      (i = .challenge ∧ n = 6 ∧ r = mldsaSign s.pkg.aliasSeed (s.ev.bytes ++ s.certificates)) ∨
      (i = .getMeasurements ∧ n = 7 ∧ (let b := (List.range 8).flatMap (fun i => s.measured w (i + 1))
        r = b ++ mldsaSign s.pkg.aliasSeed (s.ev.bytes ++ b))) → s.ioUp 0 = true →
      ∃ t, exec i s = .next t ∧ t.world w = { x with spdm := n, resp := r } ∧ t.mem = s.mem) ∧
    -- TDISP
    (s.ioUp 0 = true → w ≠ 0 → w < 256 → x.tdisp = .unlocked → s.tearing w = false → ∃ t, exec .configLocked s = .next t ∧
      (t.world w).tdisp = .locked ∧ (t.world w).block8 = t.block8 w ∧ t.mem = s.mem) ∧
    (s.ioUp 0 = true → x.tdisp = .locked → ∃ t, exec .run s = .next t ∧ t.world w = { x with tdisp := .run } ∧ t.mem = s.mem) ∧
    (x.tdisp ≠ .locked → exec .run s = .next s) ∧
    (s.ioUp 0 = true → x.tdisp ≠ .unlocked → s.tearing w = false → ∃ t, exec .tdispExit s = .next t ∧ ((t.world w).tdisp = .error ∨ (t.world w).tdisp = .unlocked)) ∧
    -- the mailbox: a command in a teardown gives NBAD, one while BUSY is set is ignored
    (∀ i, i ∈ [.ctxassign, .ctxload, .ctxkill, .pageout, .pagein, .worldfree, .resync, .lglaunch] →
      (s.ioUp 0 = true → s.tearing w = true → ∃ t, exec i s = .next t ∧ t.world w = { x with nbad := true } ∧ t.mem = s.mem) ∧
      (s.tearing w = false → x.mbBusy = true → exec i s = .next s)) ∧
    (taken →
      -- CTXASSIGN
      (w ≠ 0 → answers .ctxassign 1 fun t => t.ctxs = s.ctxs) ∧
      (w = 0 → (arg 0).toNat < 4096 → (arg 1).toNat < 256 → (s.world (arg 1).toNat).tdisp = .unlocked →
        (s.world (s.worldOf (arg 0).toNat)).tdisp = .unlocked → answers .ctxassign 0 fun t => t.worldOf (arg 0).toNat = (arg 1).toNat ∧ t.mem = s.mem) ∧
      -- CTXLOAD
      ((arg 0).toNat < 4096 → s.worldOf (arg 0).toNat = w → (arg 1).toNat % 128 = 0 → isLocal (arg 1).toNat = true →
        s.physDeny w (arg 1).toNat false = none → s.physDeny w (arg 1).toNat true = none → s.bad (arg 1).toNat 128 = false →
        let bs := s.seenBytes (arg 1).toNat 128
        let v := natOfBytes bs
        (descOk v bs = true → answers .ctxload 0 fun t => (let k := t.ctx (arg 0).toNat
          k.loaded = true ∧ k.dead = false ∧ k.desc = (arg 1).toNat ∧ k.root = bitsOf v 0 64 ∧ k.mode = bitsOf v 0x98 8 ∧
          k.share = bitsOf v 0xB0 16 ∧ k.loglen = bitsOf v 0x120 32 ∧ k.logbase = BitVec.ofNat 80 (bitsOf v 0x140 80) ∧
          k.genctr = bitsOf v 0x1E0 32) ∧ t.mem = s.mem) ∧
        (descOk v bs = false → answers .ctxload 2 fun t => t.ctxs = s.ctxs)) ∧
      -- CTXKILL
      ((arg 0).toNat < 4096 → (w = 0 ∨ s.worldOf (arg 0).toNat = w) → (s.ctx (arg 0).toNat).loaded = true → (s.ctx (arg 0).toNat).dead = false →
        answers .ctxkill 0 fun t => (t.ctx (arg 0).toNat).dead = true) ∧
      -- PAGEOUT of a mapped page of the world's own memory: the page leaves with its trailer, and its entry names the generation; it waits
      -- for the accesses under way that were translated with the entry
      (∀ at_ e log, let c := ((arg 0).extractLsb' 0 12).toNat
        let pa := bitsOf e 12 44 * 4096
        let k := s.ctx c
        let va : Addr := (arg 0).extractLsb' 48 16 ++ arg 1
        let waits := s.translatedWith 0 true 0 c (BitVec.ofNat 80 (va.toNat / 2 ^ log * 2 ^ log))
        s.worldOf c = w → k.loaded = true → k.dead = false → s.leafOf w va.toNat k.root = .leaf at_ e log → bitOf e 9 = false →
        isLocal pa = true → isSlab pa = false → isSlab at_ = false → s.spanDeny w pa (2 ^ log) false = none →
        s.spanDeny w pa (2 ^ log) true = none → s.bad pa (2 ^ log) = false →
        answers .pageout 0 fun t => (t.ctx c).genctr = (k.genctr + 1) % 2 ^ 32 ∧
          (waits = [] → t.pkg.pageouts = s.pkg.pageouts ∧ ∀ i, pa ≤ i → i < pa + 2 ^ log → t.byteAt i = 0) ∧
          (waits ≠ [] → (t.world w).mbBusy = true ∧ t.pkg.pageouts.length = s.pkg.pageouts.length + 1) ∧
          (log ≠ 16 → (at_ + 8 ≤ pa ∨ pa + 2 ^ log ≤ at_) → at_ + 8 ≤ 0x10000000000000 →
            t.memNat at_ 8 = 2 + (k.genctr + 1) % 2 ^ 32 * 2 ^ 32)) ∧
      -- PAGEIN
      (let c := ((arg 0).extractLsb' 0 12).toNat
       (s.worldOf c ≠ w → answers .pagein 1 fun t => t.mem = s.mem) ∧
       (∀ log at_, s.worldOf c = w → [12, 16, 21, 30].find? (fun log => bitsOf (natOfBytes (s.memBytes (hostBase (arg 1) + 2 ^ log) 64)) 128 8 == log) = some log →
         let tag := s.memBytes (hostBase (arg 1) + 2 ^ log) 64
         let v := natOfBytes tag
         let pa := (arg 2).toNat
         let page := s.memBytes (hostBase (arg 1)) (2 ^ log)
         entryAt s w (bitsOf v 0 80) (levelOf log) 8 (s.ctx c).root = some at_ → (s.ctx c).loaded = true → (s.ctx c).dead = false →
         bitsOf (s.memNat at_ 8) 0 4 = 2 → isSlab at_ = false → pa % 2 ^ log = 0 → isLocal pa = true → isSlab pa = false →
         s.spanDeny w pa (2 ^ log) true = none →
         let sound : Prop := tag.drop 32 = (Config.kmac w (page ++ tag.take 32)).take 32 ∧ bitsOf v 96 32 = bitsOf (s.memNat at_ 8) 32 32
         (bitsOf v 80 12 ≠ c ∨ (bitOf (s.ctx c).mode 1 = true ∧ ¬sound) → answers .pagein 0 fun t => t.mem = s.mem) ∧
         (bitsOf v 80 12 = c → bitOf (s.ctx c).mode 1 = false ∨ sound → log ≠ 16 → answers .pagein 0 fun t =>
           t.memNat at_ 8 = (pa + 3 + 4 * bitsOf v 136 4) % 2 ^ 64))) ∧
      -- WORLDFREE, RESYNC, LGLAUNCH
      (w = 0 → 0 < (arg 0).toNat → (arg 0).toNat < 256 → (s.world (arg 0).toNat).tdisp = .unlocked → s.tearing (arg 0).toNat = false →
        answers .worldfree 0 fun t => (t.world (arg 0).toNat).tdisp = .unlocked) ∧
      (answers .resync 0 fun t => ∀ i b, (bytesOfNat 8 s.clk ++ bytesOfNat 8 s.clk ++ s.resyncBody w)[i]? = some b →
        t.byteAt (hostBase (arg 3) + i) = b) ∧
      (∀ u ms, let cnt := ((arg 0).extractLsb' 16 16).toNat
        let n := ((arg 0).extractLsb' 0 6).toNat
        s.spanDeny w (arg 2).toNat (16 * cnt) false = none → s.bad (arg 2).toNat (16 * cnt) = false →
        ((s.readHome 0 (arg 2).toNat (16 * cnt)).1).checkMembers w
          ((List.range cnt).map (fun i => memberAt (s.seenBytes (arg 2).toNat (16 * cnt)) i)) = (u, some ms) →
        ((u.league n).state = 0 → answers .lglaunch 0 fun t => (t.league n).state = 1 ∧ (t.league n).world = w ∧ (t.league n).members = ms ∧
          (t.league n).n = ((arg 0).extractLsb' 8 8).toNat ∧ (t.league n).p = ((arg 0).extractLsb' 32 32).toNat ∧ (t.league n).t = (arg 1).toNat) ∧
        ((u.league n).state ≠ 0 → answers .lglaunch 2 fun t => t.league n = u.league n))) ∧
    -- NOTIFY
    (let va : Addr := BitVec.ofNat 16 x.notifyH ++ s.ev.v
     s.ioUp 0 = true →
     (s.tearing w = true ∨ s.worldOf x.notifyCtx ≠ w ∨ (s.ctx x.notifyCtx).loaded = false ∨ va.toNat % 64 ≠ 0 →
       ∃ t, exec .notify s = .next t ∧ (t.world w).nbad = true ∧ t.mem = s.mem) ∧
     (∀ u e, s.tearing w = false → s.worldOf x.notifyCtx = w → (s.ctx x.notifyCtx).loaded = true → va.toNat % 64 = 0 →
       s.walk 0 x.notifyCtx va (needOf 3 64) false = (u, .ok e) → e.peer = none → isLocal (e.at va) = true → isSlab (e.at va) = false →
       u.bad (e.at va) 64 = false → ∃ t, exec .notify s = .next t ∧ t.mem = u.mem ∧
         t.agenda = (.recordInsert, { va := va, pa := e.at va, ctx := x.notifyCtx, how := .notify w }) :: u.agenda)) ∧
    -- FIREWALL_WRITE: to a die that is out of reset, by world 0 alone, and not where the entry is locked or its range meets a locked one of another world
    (let d := s.die s.ev.die
     let new := fwWritten (d.fwAt s.ev.n) s.ev.flag s.ev.v
     (w ≠ 0 ∨ d.state ≠ .released → exec .firewallWrite s = .next s) ∧
     (s.ioUp 0 = true → d.state = .released → w = 0 → s.ev.n < 1024 → (d.fwAt s.ev.n).2.getLsbD 63 = true → ∃ t, exec .firewallWrite s = .next t ∧
       (t.die s.ev.die).fw = d.fw ∧ (t.die s.ev.die).sched.getLsbD 2 = true ∧ t.mem = s.mem) ∧
     (s.ioUp 0 = true → d.state = .released → w = 0 → s.ev.n < 1024 → d.fwRefused s.ev.n new = false → ∃ t, exec .firewallWrite s = .next t ∧
       (t.die s.ev.die).fwAt s.ev.n = new ∧ t.mem = s.mem)) ∧
    -- REGISTER_WRITE
    (s.ioUp 0 = true → ∃ t, exec .registerWrite s = .next t ∧
      (s.ev.reg = .ramp → t.pkg.ramp = max 1 (s.ev.v.extractLsb' 0 16).toNat) ∧
      (s.ev.reg = .localId → t.pkg.localId = (s.ev.v.extractLsb' 0 10).toNat) ∧
      (s.ev.reg = .readOnly → t = s) ∧
      (∀ v, s.ev.reg = .notifyCtx v → (s.tearing v = false → (t.world v).notifyCtx = (s.ev.v.extractLsb' 0 12).toNat) ∧
        (s.tearing v = true → t.world v = { s.world v with nbad := true })) ∧
      (∀ v, s.ev.reg = .wevent v → (t.world v).wevent = (s.ev.v.extractLsb' 0 4).toNat) ∧
      (∀ v i, s.ev.reg = .mbarg v i → s.tearing v = false → mapGet (fun _ => 0) (t.world v).mbarg (i % 4) = s.ev.v) ∧
      (∀ q, s.ev.reg = .peerCfg q → (t.peer q).world = (s.ev.v.extractLsb' 56 8).toNat ∧ (t.peer q).ports = (s.ev.v.extractLsb' 48 8).toNat ∧
        (t.peer q).budget = max 1 (min 1024 (s.ev.v.extractLsb' 0 11).toNat) ∧
        (t.peer q).fenced = ((s.peer q).fenced && !s.ev.v.getLsbD 33)))

/-- Events of peers, of requests from outside, and of leagues (R331, R345-R359): what each does where its condition holds.
The model's choices here: generation 0 after an abort and what becomes of members that were not popped (log 53), PERMISSION for the error of
a peer (log 54), which requests the budget counts (log 52), and that nothing passes an I/O die that is held (log 73). -/
def Obligations.FabricAndLeagueEvents : Prop :=
  ∀ (s : State), let n := s.ev.n
    let e := s.peer n
    let l := s.league n
    let abortedAs (t : State) : Prop := (t.league n).state = (if l.p = 0 then 0 else 3) ∧ (t.league n).aborts = min (l.aborts + 1) 255 ∧
      (t.league n).gen = 0 ∧ Msg.abort n ∈ t.pkg.msgs ∧ (t.league n).t = l.t + 1000 * (if l.p = 0 then 0 else l.period)
    -- UNFENCE, UNSUPPORTED_UALINK_MESSAGE
    (s.ioUp 0 = true → ∃ t, exec .unfence s = .next t ∧ t.peer n = { e with fenced := false } ∧ t.mem = s.mem) ∧
    ((s.ioUp 0 || s.ioUp 1) = false → exec .unsupportedUalinkMessage s = .next s) ∧
    ((s.ioUp 0 || s.ioUp 1) = true → ∃ t, exec .unsupportedUalinkMessage s = .next t ∧ t.pkg.msgs = s.pkg.msgs ++ [.unsupported n] ∧ t.mem = s.mem) ∧
    -- REMOTE_RESPONSE: one that nothing waits for is discarded; one to a load brings its value, one with an error raises PERMISSION
    (e.out.find? (fun o => o.id == s.ev.id) = none → exec .remoteResponse s = .next s) ∧
    (∀ o uid i p a, e.out = [o] → o.id = s.ev.id → o.use = .access uid i → (s.core o.core).holderOf uid = some p →
      (s.bank o.core p).acc? i = some a → ((s.bank o.core p).accs.map (·.id)).Nodup → a.kind = .load false →
      (s.ev.flag = false → ∃ t, exec .remoteResponse s = .next t ∧ (t.peer n).out = [] ∧ t.mem = s.mem ∧ (t.bank o.core p).s = (s.bank o.core p).s ∧
        ((t.bank o.core p).acc? a.id).any (fun y => y.st == .performed &&
          y.val == natOfBytes (a.overlaid ((List.range a.size).map (fun i => s.ev.bytes.getD i 0)))) = true) ∧
      -- in a region the error is deferred: 0 is delivered, and the region fails
      (∀ r, s.ev.flag = true → (s.bank o.core p).spec = some r → r.order < a.order → ∃ t, exec .remoteResponse s = .next t ∧
        (t.peer n).out = [] ∧ t.mem = s.mem ∧ (t.bank o.core p).spec = some { r with failed := true } ∧
        (t.bank o.core p).async = (s.bank o.core p).async ∧
        ((t.bank o.core p).acc? a.id).any (fun y => y.st == .performed && y.val == 0) = true) ∧
      (s.ev.flag = true → (∀ r, (s.bank o.core p).spec = some r → a.order ≤ r.order) → ∃ t, exec .remoteResponse s = .next t ∧
        (t.peer n).out = [] ∧ t.mem = s.mem ∧
        (let t0 : Trap := { code := 0x11, info := 1, addr := a.va, slot := a.slot }
         (t.bank o.core p).async = if (s.bank o.core p).async.contains t0 then (s.bank o.core p).async else (s.bank o.core p).async ++ [t0]) ∧
        (t.bank o.core p).acc? a.id = none)) ∧
    -- PEER_BUDGET_RELEASE: the oldest held request is sent once the die's share allows
    (∀ c u i q p a, (s.die s.ev.die).holding = [⟨n, c, .access u i, q⟩] → (s.core c).holderOf u = some p → (s.bank c p).acc? i = some a →
      dieOf c = s.ev.die → e.fenced = false →
      (e.budget ≤ (e.out.filter (fun o => o.die == s.ev.die)).length → exec .peerBudgetRelease s = .next s) ∧
      ((e.out.filter (fun o => o.die == s.ev.die)).length < e.budget → ∃ t, exec .peerBudgetRelease s = .next t ∧
        (t.die s.ev.die).holding = [] ∧ t.mem = s.mem ∧ t.pkg.msgs = s.pkg.msgs ++ [.request n e.nextId q] ∧
        (t.peer n).out = e.out ++ [⟨e.nextId, dieOf c, c, .access u i, s.ns⟩])) ∧
    -- PEER_TIMEOUT: the peer is fenced, and what is outstanding to it fails
    (∃ t, exec .peerTimeout s = .next t ∧ t.mem = s.mem ∧
      ((∀ o ∈ e.out, s.ns < o.ns + 2000000) → t = s) ∧
      ((∃ o ∈ e.out, o.ns + 2000000 ≤ s.ns) → (t.peer n).fenced = true ∧ (t.peer n).out = [])) ∧
    -- INCOMING_PEER_REQUEST, HOST_REQUEST: each waits while its bank is refreshed
    ((s.ioUp 0 || s.ioUp 1) = false ∨ s.refreshing s.ev.req.pa = true → exec .incomingPeerRequest s = .next s) ∧
    (s.ioUp 0 = false ∨ s.refreshing s.ev.req.pa = true → exec .hostRequest s = .next s) ∧
    ((s.ioUp 0 || s.ioUp 1) = true → s.refreshing s.ev.req.pa = false → e.ports = 0 → ∃ t, exec .incomingPeerRequest s = .next t ∧ (t.world 0).peerbad = true ∧ t.pkg.msgs = s.pkg.msgs ++ [.answer n false 0] ∧
      t.mem = s.mem) ∧
    ((s.ioUp 0 || s.ioUp 1) = true → s.refreshing s.ev.req.pa = false → e.ports ≠ 0 → ∀ r, r = s.outside e.world false s.ev.req → ∃ t, exec .incomingPeerRequest s = .next t ∧ t.mem = r.1.mem ∧
      t.pkg.msgs = r.1.pkg.msgs ++ [.answer n r.2.isSome (r.2.getD 0)] ∧ (r.2 = none → (t.world 0).peerbad = true)) ∧
    (s.ioUp 0 = true → s.refreshing s.ev.req.pa = false → ∀ r, r = s.outside s.ev.w true s.ev.req → ∃ t, exec .hostRequest s = .next t ∧ t.mem = r.1.mem ∧
      t.pkg.msgs = r.1.pkg.msgs ++ [.host s.ev.w r.2.isSome (r.2.getD 0)]) ∧
    -- a write from outside that the firewall lets pass stores its bytes
    (∀ w host, let q := s.ev.req
      q.write = true → q.op = none → 1 ≤ q.size → q.size ≤ 256 → s.spanDeny w q.pa q.size true = none →
      isMmio q.pa = false → isSlab q.pa = false → isSlab (q.pa + q.size - 1) = false → (s.outside w host q).2 = some 0 ∧
        ∀ a, (s.outside w host q).1.byteAt a =
          if q.pa ≤ a ∧ a < q.pa + q.size then BitVec.ofNat 8 (q.data.toNat / 256 ^ (a - q.pa)) else s.byteAt a) ∧
    (∀ w host, let q := s.ev.req
      q.write = true → q.op = none → s.spanDeny w q.pa q.size true ≠ none → s.outside w host q = (s, none)) ∧
    -- LEAGUE_PREEMPT: not before 10 µs ahead of T; a task of no league is taken, at the lowest position, whatever stands at the others
    (s.ns + 10000 < l.t → exec .leaguePreempt s = .next s) ∧
    (∀ c cs v, l.state = 1 ∨ l.state = 3 → l.t ≤ s.ns + 10000 → l.l = 1 → (l.members.flatMap (fun m => s.memberCores m)).eraseDups = c :: cs →
      s.freeFor (c :: cs) = 0 → (∀ k ∈ c :: cs, (s.core k).issue.exch = none) → ((s.core c).bank 4).task = none →
      (s.cluster (clusterOf c)).power = .on →
      v < 4 → ((s.core c).bank v).task.any (fun t => t.league.isNone) = true →
      (∀ p, p < v → ((s.core c).bank p).task.all (fun t => t.league.isSome) = true) →
      exec .leaguePreempt s = .next (s.beginExchange c v)) ∧
    -- LEAGUE_START: all members together at T, or as soon after it as they can be; past the grace the league is aborted
    (l.state = 1 → (s.ns < l.t → exec .leagueStart s = .next s) ∧
      (l.t ≤ s.ns → s.popMembers n l.members = none → ∃ t, exec .leagueStart s = .next t ∧
        (l.t + 1000 * l.grace < s.ns → abortedAs t) ∧ (s.ns ≤ l.t + 1000 * l.grace → t = s)) ∧
      (∀ u, l.t ≤ s.ns → s.ns ≤ l.t + 1000 * l.grace → s.popMembers n l.members = some u →
        let late := decide (l.t ≤ (Config.fabricNs (s.age - 1)).toNat)
        ∃ t, exec .leagueStart s = .next t ∧ t.mem = u.mem ∧ (t.league n).state = 2 ∧ (t.league n).late = (l.late || late) ∧
          t.pkg.msgs = u.pkg.msgs ++ if late then [.start n s.ns] else [])) ∧
    -- LEAGUE_START_MESSAGE, LEAGUE_ARRIVE_MESSAGE
    (l.state = 1 ∨ l.state = 2 → (s.ev.aux ≤ l.t + 1000 * l.grace → ∃ t, exec .leagueStartMessage s = .next t ∧
        (t.league n).heard.contains s.ev.id = true ∧ (t.league n).state = l.state ∧ t.mem = s.mem) ∧
      (l.t + 1000 * l.grace < s.ev.aux → ∃ t, exec .leagueStartMessage s = .next t ∧ abortedAs t)) ∧
    (l.state = 1 → ∃ t, exec .leagueArriveMessage s = .next t ∧ (t.league n).held.contains (s.ev.id, s.ev.aux) = true ∧
      (t.league n).state = 1 ∧ t.mem = s.mem) ∧
    -- LEAGUE_ABORT_MESSAGE, LEAGUE_GRACE_EXPIRE, LEAGUE_RELAUNCH
    (l.state = 1 ∨ l.state = 2 → ∃ t, exec .leagueAbortMessage s = .next t ∧ abortedAs t) ∧
    (l.state ≠ 1 → l.state ≠ 2 → exec .leagueAbortMessage s = .next s) ∧
    (l.state = 2 → l.judged = false → l.n - 1 ≤ l.heard.length → ∃ t, exec .leagueGraceExpire s = .next t ∧ t.mem = s.mem ∧
      (s.ns < l.t + 1000 * l.grace + 10000 → t = s) ∧ (l.t + 1000 * l.grace + 10000 ≤ s.ns → t.league n = { l with judged := true })) ∧
    (l.state = 3 → l.t ≤ s.ns → ∃ t, exec .leagueRelaunch s = .next t ∧ (t.league n).state = 1 ∧
      (l.members = [] → t.mem = s.mem)) ∧
    (l.state = 3 → s.ns < l.t → exec .leagueRelaunch s = .next s)
end

