-- ==== Sys2Proof/Laws/Map.lean ====
section
/-!
SUPPORT. The laws of sparse maps: a read after a write to the same key gives the value written, a write leaves every other key alone,
and writing, clearing and dropping entries keep the canonical form.
-/

namespace Sys2Proof.Machine

variable {α : Type} {dflt : Nat → α}

theorem mapGet_filter_ne (m : SMap α) (k : Nat) : mapGet dflt (m.filter fun e => decide (e.1 ≠ k)) k = dflt k := by
  induction m with
  | nil => rfl
  | cons e m ih =>
    by_cases h : e.1 = k
    · simpa [h] using ih
    · simpa [List.filter_cons, h, mapGet, Ne.symm h] using ih

theorem mapGet_filter_other (m : SMap α) {k j : Nat} (h : j ≠ k) :
    mapGet dflt (m.filter fun e => decide (e.1 ≠ k)) j = mapGet dflt m j := by
  induction m with
  | nil => rfl
  | cons e m ih =>
    by_cases hk : e.1 = k
    · simpa [hk, mapGet, h] using ih
    · simp only [ne_eq, List.filter_cons, hk, not_false_eq_true, decide_true, if_true, mapGet]
      split
      · rfl
      · simpa using ih

variable [DecidableEq α]

@[simp] theorem mapGet_mapCons_same (m : SMap α) (k : Nat) (v : α) : mapGet dflt (mapCons dflt k v m) k = v := by
  unfold mapCons
  split
  · next h => rw [mapGet_filter_ne, h]
  · simp [mapGet]

theorem mapGet_mapCons_other (m : SMap α) {k j : Nat} (v : α) (h : j ≠ k) :
    mapGet dflt (mapCons dflt k v m) j = mapGet dflt m j := by
  unfold mapCons
  split
  · exact mapGet_filter_other m h
  · simp [mapGet, h]

/-- A read after a write to the same key. -/
@[simp] theorem mapGet_mapSet_same (m : SMap α) (k : Nat) (v : α) : mapGet dflt (mapSet dflt m k v) k = v := by
  induction m with
  | nil => simp [mapSet]
  | cons e m ih =>
    simp only [mapSet]
    split
    · simp
    · next h =>
      split
      · simp
      · simpa [mapGet, h] using ih

/-- A write leaves every other key alone. -/
theorem mapGet_mapSet_other (m : SMap α) {k j : Nat} (v : α) (h : j ≠ k) :
    mapGet dflt (mapSet dflt m k v) j = mapGet dflt m j := by
  induction m with
  | nil => simp [mapSet, mapGet_mapCons_other _ _ h]
  | cons e m ih =>
    simp only [mapSet]
    split
    · next hk => rw [mapGet_mapCons_other _ _ h]; simp [mapGet, ← hk, h]
    · split
      · rw [mapGet_mapCons_other _ _ h]
      · simp only [mapGet]
        split
        · rfl
        · exact ih

theorem mapGet_mapSet (m : SMap α) (k j : Nat) (v : α) :
    mapGet dflt (mapSet dflt m k v) j = if j = k then v else mapGet dflt m j := by
  by_cases h : j = k
  · subst h; simp
  · rw [mapGet_mapSet_other _ _ h, if_neg h]

/-- A write of consecutive keys, read back. -/
theorem mapGet_mapSetList (v : List α) : ∀ (m : SMap α) (k j : Nat),
    mapGet dflt (mapSetList dflt m k v) j =
      if k ≤ j ∧ j < k + v.length then v.getD (j - k) (dflt j) else mapGet dflt m j := by
  induction v with
  | nil =>
    intro m k j
    have h : ¬(k ≤ j ∧ j < k + ([] : List α).length) := by simp only [List.length_nil]; omega
    rw [if_neg h]; rfl
  | cons x v ih =>
    intro m k j
    rw [mapSetList, ih, mapGet_mapSet]
    by_cases h : j = k
    · subst h; rw [if_neg (by omega)]; simp
    · by_cases h2 : k ≤ j ∧ j < k + (v.length + 1)
      · have : j - k = (j - (k + 1)) + 1 := by omega
        rw [if_pos (by omega), List.length_cons, if_pos h2, this, List.getD_cons_succ]
      · rw [if_neg (by omega), if_neg h, List.length_cons, if_neg h2]

/-! ### The canonical form -/

theorem mapWfFrom_mono {m : SMap α} {lo lo' : Nat} (h : lo' ≤ lo) (hm : mapWfFrom dflt lo m = true) :
    mapWfFrom dflt lo' m = true := by
  cases m with
  | nil => rfl
  | cons e m =>
    simp only [mapWfFrom, Bool.and_eq_true, decide_eq_true_eq] at hm ⊢
    exact ⟨⟨by omega, hm.1.2⟩, hm.2⟩

theorem mapWfFrom_filter (p : Nat × α → Bool) {m : SMap α} {lo : Nat} (hm : mapWfFrom dflt lo m = true) :
    mapWfFrom dflt lo (m.filter p) = true := by
  induction m generalizing lo with
  | nil => rfl
  | cons e m ih =>
    simp only [mapWfFrom, Bool.and_eq_true, decide_eq_true_eq] at hm
    simp only [List.filter_cons]
    split
    · simp only [mapWfFrom, Bool.and_eq_true, decide_eq_true_eq]
      exact ⟨hm.1, ih hm.2⟩
    · exact mapWfFrom_mono (by omega) (ih hm.2)

theorem mapWfFrom_mapCons {m : SMap α} {k : Nat} (v : α) (hm : mapWfFrom dflt (k + 1) m = true) :
    mapWfFrom dflt k (mapCons dflt k v m) = true := by
  unfold mapCons
  split
  · exact mapWfFrom_mono (by omega) (mapWfFrom_filter _ hm)
  · next h => simp [mapWfFrom, h, hm]

theorem mapWfFrom_mapSet {m : SMap α} {lo k : Nat} (v : α) (h : lo ≤ k) (hm : mapWfFrom dflt lo m = true) :
    mapWfFrom dflt lo (mapSet dflt m k v) = true := by
  induction m generalizing lo with
  | nil => exact mapWfFrom_mono h (mapWfFrom_mapCons v rfl)
  | cons e m ih =>
    simp only [mapWfFrom, Bool.and_eq_true, decide_eq_true_eq] at hm
    simp only [mapSet]
    split
    · next hk => subst hk; exact mapWfFrom_mono h (mapWfFrom_mapCons v hm.2)
    · split
      · next hk =>
        refine mapWfFrom_mono h (mapWfFrom_mapCons v ?_)
        simp only [mapWfFrom, Bool.and_eq_true, decide_eq_true_eq]
        exact ⟨⟨by omega, hm.1.2⟩, hm.2⟩
      · simp only [mapWfFrom, Bool.and_eq_true, decide_eq_true_eq]
        exact ⟨hm.1, ih (by omega) hm.2⟩

/-- A write keeps the canonical form. -/
theorem mapWf_mapSet {m : SMap α} (k : Nat) (v : α) (hm : mapWf dflt m = true) : mapWf dflt (mapSet dflt m k v) = true :=
  mapWfFrom_mapSet v (Nat.zero_le k) hm

theorem mapWf_mapSetList (v : List α) : ∀ {m : SMap α} (k : Nat), mapWf dflt m = true → mapWf dflt (mapSetList dflt m k v) = true := by
  induction v with
  | nil => intro m k h; exact h
  | cons x v ih => intro m k h; exact ih (k + 1) (mapWf_mapSet k x h)

theorem mapWf_filter (p : Nat × α → Bool) {m : SMap α} (hm : mapWf dflt m = true) : mapWf dflt (m.filter p) = true :=
  mapWfFrom_filter p hm

theorem mapWf_mapClear {m : SMap α} (lo n : Nat) (hm : mapWf dflt m = true) : mapWf dflt (mapClear m lo n) = true :=
  mapWf_filter _ hm

end Sys2Proof.Machine
end

