-- ==== Sys2Proof/Laws/State.lean ====
section
/-!
SUPPORT. What each update of the state leaves alone, one lemma for each field, and the reads of the parts after a write. Every lemma of
the first kind is true by `rfl`; proofs use them and unfold no record.
-/

namespace Sys2Proof.Machine

/-! ### `setCore` -/

@[simp] theorem State.setCore_clk (s : State) (c : Nat) (x : Core) : (s.setCore c x).clk = s.clk := rfl
@[simp] theorem State.setCore_age (s : State) (c : Nat) (x : Core) : (s.setCore c x).age = s.age := rfl
@[simp] theorem State.setCore_cur (s : State) (c : Nat) (x : Core) : (s.setCore c x).cur = s.cur := rfl
@[simp] theorem State.setCore_mark (s : State) (c : Nat) (x : Core) : (s.setCore c x).mark = s.mark := rfl
@[simp] theorem State.setCore_ev (s : State) (c : Nat) (x : Core) : (s.setCore c x).ev = s.ev := rfl
@[simp] theorem State.setCore_agenda (s : State) (c : Nat) (x : Core) : (s.setCore c x).agenda = s.agenda := rfl
@[simp] theorem State.setCore_fetched (s : State) (c : Nat) (x : Core) : (s.setCore c x).fetched = s.fetched := rfl
@[simp] theorem State.setCore_fresh (s : State) (c : Nat) (x : Core) : (s.setCore c x).fresh = s.fresh := rfl
@[simp] theorem State.setCore_order (s : State) (c : Nat) (x : Core) : (s.setCore c x).order = s.order := rfl
@[simp] theorem State.setCore_uids (s : State) (c : Nat) (x : Core) : (s.setCore c x).uids = s.uids := rfl
@[simp] theorem State.setCore_mem (s : State) (c : Nat) (x : Core) : (s.setCore c x).mem = s.mem := rfl
@[simp] theorem State.setCore_poison (s : State) (c : Nat) (x : Core) : (s.setCore c x).poison = s.poison := rfl
@[simp] theorem State.setCore_ueMem (s : State) (c : Nat) (x : Core) : (s.setCore c x).ueMem = s.ueMem := rfl
@[simp] theorem State.setCore_clusters (s : State) (c : Nat) (x : Core) : (s.setCore c x).clusters = s.clusters := rfl
@[simp] theorem State.setCore_dies (s : State) (c : Nat) (x : Core) : (s.setCore c x).dies = s.dies := rfl
@[simp] theorem State.setCore_ctxs (s : State) (c : Nat) (x : Core) : (s.setCore c x).ctxs = s.ctxs := rfl
@[simp] theorem State.setCore_worlds (s : State) (c : Nat) (x : Core) : (s.setCore c x).worlds = s.worlds := rfl
@[simp] theorem State.setCore_peers (s : State) (c : Nat) (x : Core) : (s.setCore c x).peers = s.peers := rfl
@[simp] theorem State.setCore_leagues (s : State) (c : Nat) (x : Core) : (s.setCore c x).leagues = s.leagues := rfl
@[simp] theorem State.setCore_pkg (s : State) (c : Nat) (x : Core) : (s.setCore c x).pkg = s.pkg := rfl

/-! ### `setBank` -/

@[simp] theorem State.setBank_clk (s : State) (c p : Nat) (b : Bank) : (s.setBank c p b).clk = s.clk := rfl
@[simp] theorem State.setBank_age (s : State) (c p : Nat) (b : Bank) : (s.setBank c p b).age = s.age := rfl
@[simp] theorem State.setBank_cur (s : State) (c p : Nat) (b : Bank) : (s.setBank c p b).cur = s.cur := rfl
@[simp] theorem State.setBank_mark (s : State) (c p : Nat) (b : Bank) : (s.setBank c p b).mark = s.mark := rfl
@[simp] theorem State.setBank_ev (s : State) (c p : Nat) (b : Bank) : (s.setBank c p b).ev = s.ev := rfl
@[simp] theorem State.setBank_agenda (s : State) (c p : Nat) (b : Bank) : (s.setBank c p b).agenda = s.agenda := rfl
@[simp] theorem State.setBank_fetched (s : State) (c p : Nat) (b : Bank) : (s.setBank c p b).fetched = s.fetched := rfl
@[simp] theorem State.setBank_fresh (s : State) (c p : Nat) (b : Bank) : (s.setBank c p b).fresh = s.fresh := rfl
@[simp] theorem State.setBank_order (s : State) (c p : Nat) (b : Bank) : (s.setBank c p b).order = s.order := rfl
@[simp] theorem State.setBank_uids (s : State) (c p : Nat) (b : Bank) : (s.setBank c p b).uids = s.uids := rfl
@[simp] theorem State.setBank_mem (s : State) (c p : Nat) (b : Bank) : (s.setBank c p b).mem = s.mem := rfl
@[simp] theorem State.setBank_poison (s : State) (c p : Nat) (b : Bank) : (s.setBank c p b).poison = s.poison := rfl
@[simp] theorem State.setBank_ueMem (s : State) (c p : Nat) (b : Bank) : (s.setBank c p b).ueMem = s.ueMem := rfl
@[simp] theorem State.setBank_clusters (s : State) (c p : Nat) (b : Bank) : (s.setBank c p b).clusters = s.clusters := rfl
@[simp] theorem State.setBank_dies (s : State) (c p : Nat) (b : Bank) : (s.setBank c p b).dies = s.dies := rfl
@[simp] theorem State.setBank_ctxs (s : State) (c p : Nat) (b : Bank) : (s.setBank c p b).ctxs = s.ctxs := rfl
@[simp] theorem State.setBank_worlds (s : State) (c p : Nat) (b : Bank) : (s.setBank c p b).worlds = s.worlds := rfl
@[simp] theorem State.setBank_peers (s : State) (c p : Nat) (b : Bank) : (s.setBank c p b).peers = s.peers := rfl
@[simp] theorem State.setBank_leagues (s : State) (c p : Nat) (b : Bank) : (s.setBank c p b).leagues = s.leagues := rfl
@[simp] theorem State.setBank_pkg (s : State) (c p : Nat) (b : Bank) : (s.setBank c p b).pkg = s.pkg := rfl

/-! ### `setCluster` -/

@[simp] theorem State.setCluster_clk (s : State) (k : Nat) (x : Cluster) : (s.setCluster k x).clk = s.clk := rfl
@[simp] theorem State.setCluster_age (s : State) (k : Nat) (x : Cluster) : (s.setCluster k x).age = s.age := rfl
@[simp] theorem State.setCluster_cur (s : State) (k : Nat) (x : Cluster) : (s.setCluster k x).cur = s.cur := rfl
@[simp] theorem State.setCluster_mark (s : State) (k : Nat) (x : Cluster) : (s.setCluster k x).mark = s.mark := rfl
@[simp] theorem State.setCluster_ev (s : State) (k : Nat) (x : Cluster) : (s.setCluster k x).ev = s.ev := rfl
@[simp] theorem State.setCluster_agenda (s : State) (k : Nat) (x : Cluster) : (s.setCluster k x).agenda = s.agenda := rfl
@[simp] theorem State.setCluster_fetched (s : State) (k : Nat) (x : Cluster) : (s.setCluster k x).fetched = s.fetched := rfl
@[simp] theorem State.setCluster_fresh (s : State) (k : Nat) (x : Cluster) : (s.setCluster k x).fresh = s.fresh := rfl
@[simp] theorem State.setCluster_order (s : State) (k : Nat) (x : Cluster) : (s.setCluster k x).order = s.order := rfl
@[simp] theorem State.setCluster_uids (s : State) (k : Nat) (x : Cluster) : (s.setCluster k x).uids = s.uids := rfl
@[simp] theorem State.setCluster_mem (s : State) (k : Nat) (x : Cluster) : (s.setCluster k x).mem = s.mem := rfl
@[simp] theorem State.setCluster_poison (s : State) (k : Nat) (x : Cluster) : (s.setCluster k x).poison = s.poison := rfl
@[simp] theorem State.setCluster_ueMem (s : State) (k : Nat) (x : Cluster) : (s.setCluster k x).ueMem = s.ueMem := rfl
@[simp] theorem State.setCluster_cores (s : State) (k : Nat) (x : Cluster) : (s.setCluster k x).cores = s.cores := rfl
@[simp] theorem State.setCluster_dies (s : State) (k : Nat) (x : Cluster) : (s.setCluster k x).dies = s.dies := rfl
@[simp] theorem State.setCluster_ctxs (s : State) (k : Nat) (x : Cluster) : (s.setCluster k x).ctxs = s.ctxs := rfl
@[simp] theorem State.setCluster_worlds (s : State) (k : Nat) (x : Cluster) : (s.setCluster k x).worlds = s.worlds := rfl
@[simp] theorem State.setCluster_peers (s : State) (k : Nat) (x : Cluster) : (s.setCluster k x).peers = s.peers := rfl
@[simp] theorem State.setCluster_leagues (s : State) (k : Nat) (x : Cluster) : (s.setCluster k x).leagues = s.leagues := rfl
@[simp] theorem State.setCluster_pkg (s : State) (k : Nat) (x : Cluster) : (s.setCluster k x).pkg = s.pkg := rfl

/-! ### `setDie` -/

@[simp] theorem State.setDie_clk (s : State) (d : Nat) (x : Die) : (s.setDie d x).clk = s.clk := rfl
@[simp] theorem State.setDie_age (s : State) (d : Nat) (x : Die) : (s.setDie d x).age = s.age := rfl
@[simp] theorem State.setDie_cur (s : State) (d : Nat) (x : Die) : (s.setDie d x).cur = s.cur := rfl
@[simp] theorem State.setDie_mark (s : State) (d : Nat) (x : Die) : (s.setDie d x).mark = s.mark := rfl
@[simp] theorem State.setDie_ev (s : State) (d : Nat) (x : Die) : (s.setDie d x).ev = s.ev := rfl
@[simp] theorem State.setDie_agenda (s : State) (d : Nat) (x : Die) : (s.setDie d x).agenda = s.agenda := rfl
@[simp] theorem State.setDie_fetched (s : State) (d : Nat) (x : Die) : (s.setDie d x).fetched = s.fetched := rfl
@[simp] theorem State.setDie_fresh (s : State) (d : Nat) (x : Die) : (s.setDie d x).fresh = s.fresh := rfl
@[simp] theorem State.setDie_order (s : State) (d : Nat) (x : Die) : (s.setDie d x).order = s.order := rfl
@[simp] theorem State.setDie_uids (s : State) (d : Nat) (x : Die) : (s.setDie d x).uids = s.uids := rfl
@[simp] theorem State.setDie_mem (s : State) (d : Nat) (x : Die) : (s.setDie d x).mem = s.mem := rfl
@[simp] theorem State.setDie_poison (s : State) (d : Nat) (x : Die) : (s.setDie d x).poison = s.poison := rfl
@[simp] theorem State.setDie_ueMem (s : State) (d : Nat) (x : Die) : (s.setDie d x).ueMem = s.ueMem := rfl
@[simp] theorem State.setDie_cores (s : State) (d : Nat) (x : Die) : (s.setDie d x).cores = s.cores := rfl
@[simp] theorem State.setDie_clusters (s : State) (d : Nat) (x : Die) : (s.setDie d x).clusters = s.clusters := rfl
@[simp] theorem State.setDie_ctxs (s : State) (d : Nat) (x : Die) : (s.setDie d x).ctxs = s.ctxs := rfl
@[simp] theorem State.setDie_worlds (s : State) (d : Nat) (x : Die) : (s.setDie d x).worlds = s.worlds := rfl
@[simp] theorem State.setDie_peers (s : State) (d : Nat) (x : Die) : (s.setDie d x).peers = s.peers := rfl
@[simp] theorem State.setDie_leagues (s : State) (d : Nat) (x : Die) : (s.setDie d x).leagues = s.leagues := rfl
@[simp] theorem State.setDie_pkg (s : State) (d : Nat) (x : Die) : (s.setDie d x).pkg = s.pkg := rfl

/-! ### `setCtx` -/

@[simp] theorem State.setCtx_clk (s : State) (c : Nat) (x : Ctx) : (s.setCtx c x).clk = s.clk := rfl
@[simp] theorem State.setCtx_age (s : State) (c : Nat) (x : Ctx) : (s.setCtx c x).age = s.age := rfl
@[simp] theorem State.setCtx_cur (s : State) (c : Nat) (x : Ctx) : (s.setCtx c x).cur = s.cur := rfl
@[simp] theorem State.setCtx_mark (s : State) (c : Nat) (x : Ctx) : (s.setCtx c x).mark = s.mark := rfl
@[simp] theorem State.setCtx_ev (s : State) (c : Nat) (x : Ctx) : (s.setCtx c x).ev = s.ev := rfl
@[simp] theorem State.setCtx_agenda (s : State) (c : Nat) (x : Ctx) : (s.setCtx c x).agenda = s.agenda := rfl
@[simp] theorem State.setCtx_fetched (s : State) (c : Nat) (x : Ctx) : (s.setCtx c x).fetched = s.fetched := rfl
@[simp] theorem State.setCtx_fresh (s : State) (c : Nat) (x : Ctx) : (s.setCtx c x).fresh = s.fresh := rfl
@[simp] theorem State.setCtx_order (s : State) (c : Nat) (x : Ctx) : (s.setCtx c x).order = s.order := rfl
@[simp] theorem State.setCtx_uids (s : State) (c : Nat) (x : Ctx) : (s.setCtx c x).uids = s.uids := rfl
@[simp] theorem State.setCtx_mem (s : State) (c : Nat) (x : Ctx) : (s.setCtx c x).mem = s.mem := rfl
@[simp] theorem State.setCtx_poison (s : State) (c : Nat) (x : Ctx) : (s.setCtx c x).poison = s.poison := rfl
@[simp] theorem State.setCtx_ueMem (s : State) (c : Nat) (x : Ctx) : (s.setCtx c x).ueMem = s.ueMem := rfl
@[simp] theorem State.setCtx_cores (s : State) (c : Nat) (x : Ctx) : (s.setCtx c x).cores = s.cores := rfl
@[simp] theorem State.setCtx_clusters (s : State) (c : Nat) (x : Ctx) : (s.setCtx c x).clusters = s.clusters := rfl
@[simp] theorem State.setCtx_dies (s : State) (c : Nat) (x : Ctx) : (s.setCtx c x).dies = s.dies := rfl
@[simp] theorem State.setCtx_worlds (s : State) (c : Nat) (x : Ctx) : (s.setCtx c x).worlds = s.worlds := rfl
@[simp] theorem State.setCtx_peers (s : State) (c : Nat) (x : Ctx) : (s.setCtx c x).peers = s.peers := rfl
@[simp] theorem State.setCtx_leagues (s : State) (c : Nat) (x : Ctx) : (s.setCtx c x).leagues = s.leagues := rfl
@[simp] theorem State.setCtx_pkg (s : State) (c : Nat) (x : Ctx) : (s.setCtx c x).pkg = s.pkg := rfl

/-! ### `setWorld` -/

@[simp] theorem State.setWorld_clk (s : State) (w : Nat) (x : World) : (s.setWorld w x).clk = s.clk := rfl
@[simp] theorem State.setWorld_age (s : State) (w : Nat) (x : World) : (s.setWorld w x).age = s.age := rfl
@[simp] theorem State.setWorld_cur (s : State) (w : Nat) (x : World) : (s.setWorld w x).cur = s.cur := rfl
@[simp] theorem State.setWorld_mark (s : State) (w : Nat) (x : World) : (s.setWorld w x).mark = s.mark := rfl
@[simp] theorem State.setWorld_ev (s : State) (w : Nat) (x : World) : (s.setWorld w x).ev = s.ev := rfl
@[simp] theorem State.setWorld_agenda (s : State) (w : Nat) (x : World) : (s.setWorld w x).agenda = s.agenda := rfl
@[simp] theorem State.setWorld_fetched (s : State) (w : Nat) (x : World) : (s.setWorld w x).fetched = s.fetched := rfl
@[simp] theorem State.setWorld_fresh (s : State) (w : Nat) (x : World) : (s.setWorld w x).fresh = s.fresh := rfl
@[simp] theorem State.setWorld_order (s : State) (w : Nat) (x : World) : (s.setWorld w x).order = s.order := rfl
@[simp] theorem State.setWorld_uids (s : State) (w : Nat) (x : World) : (s.setWorld w x).uids = s.uids := rfl
@[simp] theorem State.setWorld_mem (s : State) (w : Nat) (x : World) : (s.setWorld w x).mem = s.mem := rfl
@[simp] theorem State.setWorld_poison (s : State) (w : Nat) (x : World) : (s.setWorld w x).poison = s.poison := rfl
@[simp] theorem State.setWorld_ueMem (s : State) (w : Nat) (x : World) : (s.setWorld w x).ueMem = s.ueMem := rfl
@[simp] theorem State.setWorld_cores (s : State) (w : Nat) (x : World) : (s.setWorld w x).cores = s.cores := rfl
@[simp] theorem State.setWorld_clusters (s : State) (w : Nat) (x : World) : (s.setWorld w x).clusters = s.clusters := rfl
@[simp] theorem State.setWorld_dies (s : State) (w : Nat) (x : World) : (s.setWorld w x).dies = s.dies := rfl
@[simp] theorem State.setWorld_ctxs (s : State) (w : Nat) (x : World) : (s.setWorld w x).ctxs = s.ctxs := rfl
@[simp] theorem State.setWorld_peers (s : State) (w : Nat) (x : World) : (s.setWorld w x).peers = s.peers := rfl
@[simp] theorem State.setWorld_leagues (s : State) (w : Nat) (x : World) : (s.setWorld w x).leagues = s.leagues := rfl
@[simp] theorem State.setWorld_pkg (s : State) (w : Nat) (x : World) : (s.setWorld w x).pkg = s.pkg := rfl

/-! ### `setPeer` -/

@[simp] theorem State.setPeer_clk (s : State) (p : Nat) (x : Peer) : (s.setPeer p x).clk = s.clk := rfl
@[simp] theorem State.setPeer_age (s : State) (p : Nat) (x : Peer) : (s.setPeer p x).age = s.age := rfl
@[simp] theorem State.setPeer_cur (s : State) (p : Nat) (x : Peer) : (s.setPeer p x).cur = s.cur := rfl
@[simp] theorem State.setPeer_mark (s : State) (p : Nat) (x : Peer) : (s.setPeer p x).mark = s.mark := rfl
@[simp] theorem State.setPeer_ev (s : State) (p : Nat) (x : Peer) : (s.setPeer p x).ev = s.ev := rfl
@[simp] theorem State.setPeer_agenda (s : State) (p : Nat) (x : Peer) : (s.setPeer p x).agenda = s.agenda := rfl
@[simp] theorem State.setPeer_fetched (s : State) (p : Nat) (x : Peer) : (s.setPeer p x).fetched = s.fetched := rfl
@[simp] theorem State.setPeer_fresh (s : State) (p : Nat) (x : Peer) : (s.setPeer p x).fresh = s.fresh := rfl
@[simp] theorem State.setPeer_order (s : State) (p : Nat) (x : Peer) : (s.setPeer p x).order = s.order := rfl
@[simp] theorem State.setPeer_uids (s : State) (p : Nat) (x : Peer) : (s.setPeer p x).uids = s.uids := rfl
@[simp] theorem State.setPeer_mem (s : State) (p : Nat) (x : Peer) : (s.setPeer p x).mem = s.mem := rfl
@[simp] theorem State.setPeer_poison (s : State) (p : Nat) (x : Peer) : (s.setPeer p x).poison = s.poison := rfl
@[simp] theorem State.setPeer_ueMem (s : State) (p : Nat) (x : Peer) : (s.setPeer p x).ueMem = s.ueMem := rfl
@[simp] theorem State.setPeer_cores (s : State) (p : Nat) (x : Peer) : (s.setPeer p x).cores = s.cores := rfl
@[simp] theorem State.setPeer_clusters (s : State) (p : Nat) (x : Peer) : (s.setPeer p x).clusters = s.clusters := rfl
@[simp] theorem State.setPeer_dies (s : State) (p : Nat) (x : Peer) : (s.setPeer p x).dies = s.dies := rfl
@[simp] theorem State.setPeer_ctxs (s : State) (p : Nat) (x : Peer) : (s.setPeer p x).ctxs = s.ctxs := rfl
@[simp] theorem State.setPeer_worlds (s : State) (p : Nat) (x : Peer) : (s.setPeer p x).worlds = s.worlds := rfl
@[simp] theorem State.setPeer_leagues (s : State) (p : Nat) (x : Peer) : (s.setPeer p x).leagues = s.leagues := rfl
@[simp] theorem State.setPeer_pkg (s : State) (p : Nat) (x : Peer) : (s.setPeer p x).pkg = s.pkg := rfl

/-! ### `setLeague` -/

@[simp] theorem State.setLeague_clk (s : State) (n : Nat) (x : League) : (s.setLeague n x).clk = s.clk := rfl
@[simp] theorem State.setLeague_age (s : State) (n : Nat) (x : League) : (s.setLeague n x).age = s.age := rfl
@[simp] theorem State.setLeague_cur (s : State) (n : Nat) (x : League) : (s.setLeague n x).cur = s.cur := rfl
@[simp] theorem State.setLeague_mark (s : State) (n : Nat) (x : League) : (s.setLeague n x).mark = s.mark := rfl
@[simp] theorem State.setLeague_ev (s : State) (n : Nat) (x : League) : (s.setLeague n x).ev = s.ev := rfl
@[simp] theorem State.setLeague_agenda (s : State) (n : Nat) (x : League) : (s.setLeague n x).agenda = s.agenda := rfl
@[simp] theorem State.setLeague_fetched (s : State) (n : Nat) (x : League) : (s.setLeague n x).fetched = s.fetched := rfl
@[simp] theorem State.setLeague_fresh (s : State) (n : Nat) (x : League) : (s.setLeague n x).fresh = s.fresh := rfl
@[simp] theorem State.setLeague_order (s : State) (n : Nat) (x : League) : (s.setLeague n x).order = s.order := rfl
@[simp] theorem State.setLeague_uids (s : State) (n : Nat) (x : League) : (s.setLeague n x).uids = s.uids := rfl
@[simp] theorem State.setLeague_mem (s : State) (n : Nat) (x : League) : (s.setLeague n x).mem = s.mem := rfl
@[simp] theorem State.setLeague_poison (s : State) (n : Nat) (x : League) : (s.setLeague n x).poison = s.poison := rfl
@[simp] theorem State.setLeague_ueMem (s : State) (n : Nat) (x : League) : (s.setLeague n x).ueMem = s.ueMem := rfl
@[simp] theorem State.setLeague_cores (s : State) (n : Nat) (x : League) : (s.setLeague n x).cores = s.cores := rfl
@[simp] theorem State.setLeague_clusters (s : State) (n : Nat) (x : League) : (s.setLeague n x).clusters = s.clusters := rfl
@[simp] theorem State.setLeague_dies (s : State) (n : Nat) (x : League) : (s.setLeague n x).dies = s.dies := rfl
@[simp] theorem State.setLeague_ctxs (s : State) (n : Nat) (x : League) : (s.setLeague n x).ctxs = s.ctxs := rfl
@[simp] theorem State.setLeague_worlds (s : State) (n : Nat) (x : League) : (s.setLeague n x).worlds = s.worlds := rfl
@[simp] theorem State.setLeague_peers (s : State) (n : Nat) (x : League) : (s.setLeague n x).peers = s.peers := rfl
@[simp] theorem State.setLeague_pkg (s : State) (n : Nat) (x : League) : (s.setLeague n x).pkg = s.pkg := rfl

/-! ### `putMem` -/

@[simp] theorem State.putMem_clk (s : State) (pa : Nat) (v : List Byte) : (s.putMem pa v).clk = s.clk := rfl
@[simp] theorem State.putMem_age (s : State) (pa : Nat) (v : List Byte) : (s.putMem pa v).age = s.age := rfl
@[simp] theorem State.putMem_cur (s : State) (pa : Nat) (v : List Byte) : (s.putMem pa v).cur = s.cur := rfl
@[simp] theorem State.putMem_mark (s : State) (pa : Nat) (v : List Byte) : (s.putMem pa v).mark = s.mark := rfl
@[simp] theorem State.putMem_ev (s : State) (pa : Nat) (v : List Byte) : (s.putMem pa v).ev = s.ev := rfl
@[simp] theorem State.putMem_agenda (s : State) (pa : Nat) (v : List Byte) : (s.putMem pa v).agenda = s.agenda := rfl
@[simp] theorem State.putMem_fetched (s : State) (pa : Nat) (v : List Byte) : (s.putMem pa v).fetched = s.fetched := rfl
@[simp] theorem State.putMem_fresh (s : State) (pa : Nat) (v : List Byte) : (s.putMem pa v).fresh = s.fresh := rfl
@[simp] theorem State.putMem_order (s : State) (pa : Nat) (v : List Byte) : (s.putMem pa v).order = s.order := rfl
@[simp] theorem State.putMem_uids (s : State) (pa : Nat) (v : List Byte) : (s.putMem pa v).uids = s.uids := rfl
@[simp] theorem State.putMem_poison (s : State) (pa : Nat) (v : List Byte) : (s.putMem pa v).poison = s.poison := rfl
@[simp] theorem State.putMem_ueMem (s : State) (pa : Nat) (v : List Byte) : (s.putMem pa v).ueMem = s.ueMem := rfl
@[simp] theorem State.putMem_cores (s : State) (pa : Nat) (v : List Byte) : (s.putMem pa v).cores = s.cores := rfl
@[simp] theorem State.putMem_clusters (s : State) (pa : Nat) (v : List Byte) : (s.putMem pa v).clusters = s.clusters := rfl
@[simp] theorem State.putMem_dies (s : State) (pa : Nat) (v : List Byte) : (s.putMem pa v).dies = s.dies := rfl
@[simp] theorem State.putMem_ctxs (s : State) (pa : Nat) (v : List Byte) : (s.putMem pa v).ctxs = s.ctxs := rfl
@[simp] theorem State.putMem_worlds (s : State) (pa : Nat) (v : List Byte) : (s.putMem pa v).worlds = s.worlds := rfl
@[simp] theorem State.putMem_peers (s : State) (pa : Nat) (v : List Byte) : (s.putMem pa v).peers = s.peers := rfl
@[simp] theorem State.putMem_leagues (s : State) (pa : Nat) (v : List Byte) : (s.putMem pa v).leagues = s.leagues := rfl
@[simp] theorem State.putMem_pkg (s : State) (pa : Nat) (v : List Byte) : (s.putMem pa v).pkg = s.pkg := rfl

/-! ### `drawn` -/

@[simp] theorem State.drawn_clk (s : State) : (s.drawn).clk = s.clk := rfl
@[simp] theorem State.drawn_age (s : State) : (s.drawn).age = s.age := rfl
@[simp] theorem State.drawn_cur (s : State) : (s.drawn).cur = s.cur := rfl
@[simp] theorem State.drawn_mark (s : State) : (s.drawn).mark = s.mark := rfl
@[simp] theorem State.drawn_ev (s : State) : (s.drawn).ev = s.ev := rfl
@[simp] theorem State.drawn_agenda (s : State) : (s.drawn).agenda = s.agenda := rfl
@[simp] theorem State.drawn_fetched (s : State) : (s.drawn).fetched = s.fetched := rfl
@[simp] theorem State.drawn_order (s : State) : (s.drawn).order = s.order := rfl
@[simp] theorem State.drawn_uids (s : State) : (s.drawn).uids = s.uids := rfl
@[simp] theorem State.drawn_mem (s : State) : (s.drawn).mem = s.mem := rfl
@[simp] theorem State.drawn_poison (s : State) : (s.drawn).poison = s.poison := rfl
@[simp] theorem State.drawn_ueMem (s : State) : (s.drawn).ueMem = s.ueMem := rfl
@[simp] theorem State.drawn_cores (s : State) : (s.drawn).cores = s.cores := rfl
@[simp] theorem State.drawn_clusters (s : State) : (s.drawn).clusters = s.clusters := rfl
@[simp] theorem State.drawn_dies (s : State) : (s.drawn).dies = s.dies := rfl
@[simp] theorem State.drawn_ctxs (s : State) : (s.drawn).ctxs = s.ctxs := rfl
@[simp] theorem State.drawn_worlds (s : State) : (s.drawn).worlds = s.worlds := rfl
@[simp] theorem State.drawn_peers (s : State) : (s.drawn).peers = s.peers := rfl
@[simp] theorem State.drawn_leagues (s : State) : (s.drawn).leagues = s.leagues := rfl
@[simp] theorem State.drawn_pkg (s : State) : (s.drawn).pkg = s.pkg := rfl

/-! ### `modCore` -/

@[simp] theorem State.modCore_clk (s : State) (c : Nat) (f : Core → Core) : (s.modCore c f).clk = s.clk := rfl
@[simp] theorem State.modCore_age (s : State) (c : Nat) (f : Core → Core) : (s.modCore c f).age = s.age := rfl
@[simp] theorem State.modCore_cur (s : State) (c : Nat) (f : Core → Core) : (s.modCore c f).cur = s.cur := rfl
@[simp] theorem State.modCore_mark (s : State) (c : Nat) (f : Core → Core) : (s.modCore c f).mark = s.mark := rfl
@[simp] theorem State.modCore_ev (s : State) (c : Nat) (f : Core → Core) : (s.modCore c f).ev = s.ev := rfl
@[simp] theorem State.modCore_agenda (s : State) (c : Nat) (f : Core → Core) : (s.modCore c f).agenda = s.agenda := rfl
@[simp] theorem State.modCore_fetched (s : State) (c : Nat) (f : Core → Core) : (s.modCore c f).fetched = s.fetched := rfl
@[simp] theorem State.modCore_fresh (s : State) (c : Nat) (f : Core → Core) : (s.modCore c f).fresh = s.fresh := rfl
@[simp] theorem State.modCore_order (s : State) (c : Nat) (f : Core → Core) : (s.modCore c f).order = s.order := rfl
@[simp] theorem State.modCore_uids (s : State) (c : Nat) (f : Core → Core) : (s.modCore c f).uids = s.uids := rfl
@[simp] theorem State.modCore_mem (s : State) (c : Nat) (f : Core → Core) : (s.modCore c f).mem = s.mem := rfl
@[simp] theorem State.modCore_poison (s : State) (c : Nat) (f : Core → Core) : (s.modCore c f).poison = s.poison := rfl
@[simp] theorem State.modCore_ueMem (s : State) (c : Nat) (f : Core → Core) : (s.modCore c f).ueMem = s.ueMem := rfl
@[simp] theorem State.modCore_clusters (s : State) (c : Nat) (f : Core → Core) : (s.modCore c f).clusters = s.clusters := rfl
@[simp] theorem State.modCore_dies (s : State) (c : Nat) (f : Core → Core) : (s.modCore c f).dies = s.dies := rfl
@[simp] theorem State.modCore_ctxs (s : State) (c : Nat) (f : Core → Core) : (s.modCore c f).ctxs = s.ctxs := rfl
@[simp] theorem State.modCore_worlds (s : State) (c : Nat) (f : Core → Core) : (s.modCore c f).worlds = s.worlds := rfl
@[simp] theorem State.modCore_peers (s : State) (c : Nat) (f : Core → Core) : (s.modCore c f).peers = s.peers := rfl
@[simp] theorem State.modCore_leagues (s : State) (c : Nat) (f : Core → Core) : (s.modCore c f).leagues = s.leagues := rfl
@[simp] theorem State.modCore_pkg (s : State) (c : Nat) (f : Core → Core) : (s.modCore c f).pkg = s.pkg := rfl

/-! ### `modBank` -/

@[simp] theorem State.modBank_clk (s : State) (c p : Nat) (f : Bank → Bank) : (s.modBank c p f).clk = s.clk := rfl
@[simp] theorem State.modBank_age (s : State) (c p : Nat) (f : Bank → Bank) : (s.modBank c p f).age = s.age := rfl
@[simp] theorem State.modBank_cur (s : State) (c p : Nat) (f : Bank → Bank) : (s.modBank c p f).cur = s.cur := rfl
@[simp] theorem State.modBank_mark (s : State) (c p : Nat) (f : Bank → Bank) : (s.modBank c p f).mark = s.mark := rfl
@[simp] theorem State.modBank_ev (s : State) (c p : Nat) (f : Bank → Bank) : (s.modBank c p f).ev = s.ev := rfl
@[simp] theorem State.modBank_agenda (s : State) (c p : Nat) (f : Bank → Bank) : (s.modBank c p f).agenda = s.agenda := rfl
@[simp] theorem State.modBank_fetched (s : State) (c p : Nat) (f : Bank → Bank) : (s.modBank c p f).fetched = s.fetched := rfl
@[simp] theorem State.modBank_fresh (s : State) (c p : Nat) (f : Bank → Bank) : (s.modBank c p f).fresh = s.fresh := rfl
@[simp] theorem State.modBank_order (s : State) (c p : Nat) (f : Bank → Bank) : (s.modBank c p f).order = s.order := rfl
@[simp] theorem State.modBank_uids (s : State) (c p : Nat) (f : Bank → Bank) : (s.modBank c p f).uids = s.uids := rfl
@[simp] theorem State.modBank_mem (s : State) (c p : Nat) (f : Bank → Bank) : (s.modBank c p f).mem = s.mem := rfl
@[simp] theorem State.modBank_poison (s : State) (c p : Nat) (f : Bank → Bank) : (s.modBank c p f).poison = s.poison := rfl
@[simp] theorem State.modBank_ueMem (s : State) (c p : Nat) (f : Bank → Bank) : (s.modBank c p f).ueMem = s.ueMem := rfl
@[simp] theorem State.modBank_clusters (s : State) (c p : Nat) (f : Bank → Bank) : (s.modBank c p f).clusters = s.clusters := rfl
@[simp] theorem State.modBank_dies (s : State) (c p : Nat) (f : Bank → Bank) : (s.modBank c p f).dies = s.dies := rfl
@[simp] theorem State.modBank_ctxs (s : State) (c p : Nat) (f : Bank → Bank) : (s.modBank c p f).ctxs = s.ctxs := rfl
@[simp] theorem State.modBank_worlds (s : State) (c p : Nat) (f : Bank → Bank) : (s.modBank c p f).worlds = s.worlds := rfl
@[simp] theorem State.modBank_peers (s : State) (c p : Nat) (f : Bank → Bank) : (s.modBank c p f).peers = s.peers := rfl
@[simp] theorem State.modBank_leagues (s : State) (c p : Nat) (f : Bank → Bank) : (s.modBank c p f).leagues = s.leagues := rfl
@[simp] theorem State.modBank_pkg (s : State) (c p : Nat) (f : Bank → Bank) : (s.modBank c p f).pkg = s.pkg := rfl

/-! ### `modBk` -/

@[simp] theorem State.modBk_clk (s : State) (f : Bank → Bank) : (s.modBk f).clk = s.clk := rfl
@[simp] theorem State.modBk_age (s : State) (f : Bank → Bank) : (s.modBk f).age = s.age := rfl
@[simp] theorem State.modBk_cur (s : State) (f : Bank → Bank) : (s.modBk f).cur = s.cur := rfl
@[simp] theorem State.modBk_mark (s : State) (f : Bank → Bank) : (s.modBk f).mark = s.mark := rfl
@[simp] theorem State.modBk_ev (s : State) (f : Bank → Bank) : (s.modBk f).ev = s.ev := rfl
@[simp] theorem State.modBk_agenda (s : State) (f : Bank → Bank) : (s.modBk f).agenda = s.agenda := rfl
@[simp] theorem State.modBk_fetched (s : State) (f : Bank → Bank) : (s.modBk f).fetched = s.fetched := rfl
@[simp] theorem State.modBk_fresh (s : State) (f : Bank → Bank) : (s.modBk f).fresh = s.fresh := rfl
@[simp] theorem State.modBk_order (s : State) (f : Bank → Bank) : (s.modBk f).order = s.order := rfl
@[simp] theorem State.modBk_uids (s : State) (f : Bank → Bank) : (s.modBk f).uids = s.uids := rfl
@[simp] theorem State.modBk_mem (s : State) (f : Bank → Bank) : (s.modBk f).mem = s.mem := rfl
@[simp] theorem State.modBk_poison (s : State) (f : Bank → Bank) : (s.modBk f).poison = s.poison := rfl
@[simp] theorem State.modBk_ueMem (s : State) (f : Bank → Bank) : (s.modBk f).ueMem = s.ueMem := rfl
@[simp] theorem State.modBk_clusters (s : State) (f : Bank → Bank) : (s.modBk f).clusters = s.clusters := rfl
@[simp] theorem State.modBk_dies (s : State) (f : Bank → Bank) : (s.modBk f).dies = s.dies := rfl
@[simp] theorem State.modBk_ctxs (s : State) (f : Bank → Bank) : (s.modBk f).ctxs = s.ctxs := rfl
@[simp] theorem State.modBk_worlds (s : State) (f : Bank → Bank) : (s.modBk f).worlds = s.worlds := rfl
@[simp] theorem State.modBk_peers (s : State) (f : Bank → Bank) : (s.modBk f).peers = s.peers := rfl
@[simp] theorem State.modBk_leagues (s : State) (f : Bank → Bank) : (s.modBk f).leagues = s.leagues := rfl
@[simp] theorem State.modBk_pkg (s : State) (f : Bank → Bank) : (s.modBk f).pkg = s.pkg := rfl

/-! ### `setBk` -/

@[simp] theorem State.setBk_clk (s : State) (b : Bank) : (s.setBk b).clk = s.clk := rfl
@[simp] theorem State.setBk_age (s : State) (b : Bank) : (s.setBk b).age = s.age := rfl
@[simp] theorem State.setBk_cur (s : State) (b : Bank) : (s.setBk b).cur = s.cur := rfl
@[simp] theorem State.setBk_mark (s : State) (b : Bank) : (s.setBk b).mark = s.mark := rfl
@[simp] theorem State.setBk_ev (s : State) (b : Bank) : (s.setBk b).ev = s.ev := rfl
@[simp] theorem State.setBk_agenda (s : State) (b : Bank) : (s.setBk b).agenda = s.agenda := rfl
@[simp] theorem State.setBk_fetched (s : State) (b : Bank) : (s.setBk b).fetched = s.fetched := rfl
@[simp] theorem State.setBk_fresh (s : State) (b : Bank) : (s.setBk b).fresh = s.fresh := rfl
@[simp] theorem State.setBk_order (s : State) (b : Bank) : (s.setBk b).order = s.order := rfl
@[simp] theorem State.setBk_uids (s : State) (b : Bank) : (s.setBk b).uids = s.uids := rfl
@[simp] theorem State.setBk_mem (s : State) (b : Bank) : (s.setBk b).mem = s.mem := rfl
@[simp] theorem State.setBk_poison (s : State) (b : Bank) : (s.setBk b).poison = s.poison := rfl
@[simp] theorem State.setBk_ueMem (s : State) (b : Bank) : (s.setBk b).ueMem = s.ueMem := rfl
@[simp] theorem State.setBk_clusters (s : State) (b : Bank) : (s.setBk b).clusters = s.clusters := rfl
@[simp] theorem State.setBk_dies (s : State) (b : Bank) : (s.setBk b).dies = s.dies := rfl
@[simp] theorem State.setBk_ctxs (s : State) (b : Bank) : (s.setBk b).ctxs = s.ctxs := rfl
@[simp] theorem State.setBk_worlds (s : State) (b : Bank) : (s.setBk b).worlds = s.worlds := rfl
@[simp] theorem State.setBk_peers (s : State) (b : Bank) : (s.setBk b).peers = s.peers := rfl
@[simp] theorem State.setBk_leagues (s : State) (b : Bank) : (s.setBk b).leagues = s.leagues := rfl
@[simp] theorem State.setBk_pkg (s : State) (b : Bank) : (s.setBk b).pkg = s.pkg := rfl

/-! ### `modCr` -/

@[simp] theorem State.modCr_clk (s : State) (f : Core → Core) : (s.modCr f).clk = s.clk := rfl
@[simp] theorem State.modCr_age (s : State) (f : Core → Core) : (s.modCr f).age = s.age := rfl
@[simp] theorem State.modCr_cur (s : State) (f : Core → Core) : (s.modCr f).cur = s.cur := rfl
@[simp] theorem State.modCr_mark (s : State) (f : Core → Core) : (s.modCr f).mark = s.mark := rfl
@[simp] theorem State.modCr_ev (s : State) (f : Core → Core) : (s.modCr f).ev = s.ev := rfl
@[simp] theorem State.modCr_agenda (s : State) (f : Core → Core) : (s.modCr f).agenda = s.agenda := rfl
@[simp] theorem State.modCr_fetched (s : State) (f : Core → Core) : (s.modCr f).fetched = s.fetched := rfl
@[simp] theorem State.modCr_fresh (s : State) (f : Core → Core) : (s.modCr f).fresh = s.fresh := rfl
@[simp] theorem State.modCr_order (s : State) (f : Core → Core) : (s.modCr f).order = s.order := rfl
@[simp] theorem State.modCr_uids (s : State) (f : Core → Core) : (s.modCr f).uids = s.uids := rfl
@[simp] theorem State.modCr_mem (s : State) (f : Core → Core) : (s.modCr f).mem = s.mem := rfl
@[simp] theorem State.modCr_poison (s : State) (f : Core → Core) : (s.modCr f).poison = s.poison := rfl
@[simp] theorem State.modCr_ueMem (s : State) (f : Core → Core) : (s.modCr f).ueMem = s.ueMem := rfl
@[simp] theorem State.modCr_clusters (s : State) (f : Core → Core) : (s.modCr f).clusters = s.clusters := rfl
@[simp] theorem State.modCr_dies (s : State) (f : Core → Core) : (s.modCr f).dies = s.dies := rfl
@[simp] theorem State.modCr_ctxs (s : State) (f : Core → Core) : (s.modCr f).ctxs = s.ctxs := rfl
@[simp] theorem State.modCr_worlds (s : State) (f : Core → Core) : (s.modCr f).worlds = s.worlds := rfl
@[simp] theorem State.modCr_peers (s : State) (f : Core → Core) : (s.modCr f).peers = s.peers := rfl
@[simp] theorem State.modCr_leagues (s : State) (f : Core → Core) : (s.modCr f).leagues = s.leagues := rfl
@[simp] theorem State.modCr_pkg (s : State) (f : Core → Core) : (s.modCr f).pkg = s.pkg := rfl

/-! ### `setCr` -/

@[simp] theorem State.setCr_clk (s : State) (x : Core) : (s.setCr x).clk = s.clk := rfl
@[simp] theorem State.setCr_age (s : State) (x : Core) : (s.setCr x).age = s.age := rfl
@[simp] theorem State.setCr_cur (s : State) (x : Core) : (s.setCr x).cur = s.cur := rfl
@[simp] theorem State.setCr_mark (s : State) (x : Core) : (s.setCr x).mark = s.mark := rfl
@[simp] theorem State.setCr_ev (s : State) (x : Core) : (s.setCr x).ev = s.ev := rfl
@[simp] theorem State.setCr_agenda (s : State) (x : Core) : (s.setCr x).agenda = s.agenda := rfl
@[simp] theorem State.setCr_fetched (s : State) (x : Core) : (s.setCr x).fetched = s.fetched := rfl
@[simp] theorem State.setCr_fresh (s : State) (x : Core) : (s.setCr x).fresh = s.fresh := rfl
@[simp] theorem State.setCr_order (s : State) (x : Core) : (s.setCr x).order = s.order := rfl
@[simp] theorem State.setCr_uids (s : State) (x : Core) : (s.setCr x).uids = s.uids := rfl
@[simp] theorem State.setCr_mem (s : State) (x : Core) : (s.setCr x).mem = s.mem := rfl
@[simp] theorem State.setCr_poison (s : State) (x : Core) : (s.setCr x).poison = s.poison := rfl
@[simp] theorem State.setCr_ueMem (s : State) (x : Core) : (s.setCr x).ueMem = s.ueMem := rfl
@[simp] theorem State.setCr_clusters (s : State) (x : Core) : (s.setCr x).clusters = s.clusters := rfl
@[simp] theorem State.setCr_dies (s : State) (x : Core) : (s.setCr x).dies = s.dies := rfl
@[simp] theorem State.setCr_ctxs (s : State) (x : Core) : (s.setCr x).ctxs = s.ctxs := rfl
@[simp] theorem State.setCr_worlds (s : State) (x : Core) : (s.setCr x).worlds = s.worlds := rfl
@[simp] theorem State.setCr_peers (s : State) (x : Core) : (s.setCr x).peers = s.peers := rfl
@[simp] theorem State.setCr_leagues (s : State) (x : Core) : (s.setCr x).leagues = s.leagues := rfl
@[simp] theorem State.setCr_pkg (s : State) (x : Core) : (s.setCr x).pkg = s.pkg := rfl

/-! ### `modCluster` -/

@[simp] theorem State.modCluster_clk (s : State) (k : Nat) (f : Cluster → Cluster) : (s.modCluster k f).clk = s.clk := rfl
@[simp] theorem State.modCluster_age (s : State) (k : Nat) (f : Cluster → Cluster) : (s.modCluster k f).age = s.age := rfl
@[simp] theorem State.modCluster_cur (s : State) (k : Nat) (f : Cluster → Cluster) : (s.modCluster k f).cur = s.cur := rfl
@[simp] theorem State.modCluster_mark (s : State) (k : Nat) (f : Cluster → Cluster) : (s.modCluster k f).mark = s.mark := rfl
@[simp] theorem State.modCluster_ev (s : State) (k : Nat) (f : Cluster → Cluster) : (s.modCluster k f).ev = s.ev := rfl
@[simp] theorem State.modCluster_agenda (s : State) (k : Nat) (f : Cluster → Cluster) : (s.modCluster k f).agenda = s.agenda := rfl
@[simp] theorem State.modCluster_fetched (s : State) (k : Nat) (f : Cluster → Cluster) : (s.modCluster k f).fetched = s.fetched := rfl
@[simp] theorem State.modCluster_fresh (s : State) (k : Nat) (f : Cluster → Cluster) : (s.modCluster k f).fresh = s.fresh := rfl
@[simp] theorem State.modCluster_order (s : State) (k : Nat) (f : Cluster → Cluster) : (s.modCluster k f).order = s.order := rfl
@[simp] theorem State.modCluster_uids (s : State) (k : Nat) (f : Cluster → Cluster) : (s.modCluster k f).uids = s.uids := rfl
@[simp] theorem State.modCluster_mem (s : State) (k : Nat) (f : Cluster → Cluster) : (s.modCluster k f).mem = s.mem := rfl
@[simp] theorem State.modCluster_poison (s : State) (k : Nat) (f : Cluster → Cluster) : (s.modCluster k f).poison = s.poison := rfl
@[simp] theorem State.modCluster_ueMem (s : State) (k : Nat) (f : Cluster → Cluster) : (s.modCluster k f).ueMem = s.ueMem := rfl
@[simp] theorem State.modCluster_cores (s : State) (k : Nat) (f : Cluster → Cluster) : (s.modCluster k f).cores = s.cores := rfl
@[simp] theorem State.modCluster_dies (s : State) (k : Nat) (f : Cluster → Cluster) : (s.modCluster k f).dies = s.dies := rfl
@[simp] theorem State.modCluster_ctxs (s : State) (k : Nat) (f : Cluster → Cluster) : (s.modCluster k f).ctxs = s.ctxs := rfl
@[simp] theorem State.modCluster_worlds (s : State) (k : Nat) (f : Cluster → Cluster) : (s.modCluster k f).worlds = s.worlds := rfl
@[simp] theorem State.modCluster_peers (s : State) (k : Nat) (f : Cluster → Cluster) : (s.modCluster k f).peers = s.peers := rfl
@[simp] theorem State.modCluster_leagues (s : State) (k : Nat) (f : Cluster → Cluster) : (s.modCluster k f).leagues = s.leagues := rfl
@[simp] theorem State.modCluster_pkg (s : State) (k : Nat) (f : Cluster → Cluster) : (s.modCluster k f).pkg = s.pkg := rfl

/-! ### `modDie` -/

@[simp] theorem State.modDie_clk (s : State) (d : Nat) (f : Die → Die) : (s.modDie d f).clk = s.clk := rfl
@[simp] theorem State.modDie_age (s : State) (d : Nat) (f : Die → Die) : (s.modDie d f).age = s.age := rfl
@[simp] theorem State.modDie_cur (s : State) (d : Nat) (f : Die → Die) : (s.modDie d f).cur = s.cur := rfl
@[simp] theorem State.modDie_mark (s : State) (d : Nat) (f : Die → Die) : (s.modDie d f).mark = s.mark := rfl
@[simp] theorem State.modDie_ev (s : State) (d : Nat) (f : Die → Die) : (s.modDie d f).ev = s.ev := rfl
@[simp] theorem State.modDie_agenda (s : State) (d : Nat) (f : Die → Die) : (s.modDie d f).agenda = s.agenda := rfl
@[simp] theorem State.modDie_fetched (s : State) (d : Nat) (f : Die → Die) : (s.modDie d f).fetched = s.fetched := rfl
@[simp] theorem State.modDie_fresh (s : State) (d : Nat) (f : Die → Die) : (s.modDie d f).fresh = s.fresh := rfl
@[simp] theorem State.modDie_order (s : State) (d : Nat) (f : Die → Die) : (s.modDie d f).order = s.order := rfl
@[simp] theorem State.modDie_uids (s : State) (d : Nat) (f : Die → Die) : (s.modDie d f).uids = s.uids := rfl
@[simp] theorem State.modDie_mem (s : State) (d : Nat) (f : Die → Die) : (s.modDie d f).mem = s.mem := rfl
@[simp] theorem State.modDie_poison (s : State) (d : Nat) (f : Die → Die) : (s.modDie d f).poison = s.poison := rfl
@[simp] theorem State.modDie_ueMem (s : State) (d : Nat) (f : Die → Die) : (s.modDie d f).ueMem = s.ueMem := rfl
@[simp] theorem State.modDie_cores (s : State) (d : Nat) (f : Die → Die) : (s.modDie d f).cores = s.cores := rfl
@[simp] theorem State.modDie_clusters (s : State) (d : Nat) (f : Die → Die) : (s.modDie d f).clusters = s.clusters := rfl
@[simp] theorem State.modDie_ctxs (s : State) (d : Nat) (f : Die → Die) : (s.modDie d f).ctxs = s.ctxs := rfl
@[simp] theorem State.modDie_worlds (s : State) (d : Nat) (f : Die → Die) : (s.modDie d f).worlds = s.worlds := rfl
@[simp] theorem State.modDie_peers (s : State) (d : Nat) (f : Die → Die) : (s.modDie d f).peers = s.peers := rfl
@[simp] theorem State.modDie_leagues (s : State) (d : Nat) (f : Die → Die) : (s.modDie d f).leagues = s.leagues := rfl
@[simp] theorem State.modDie_pkg (s : State) (d : Nat) (f : Die → Die) : (s.modDie d f).pkg = s.pkg := rfl

/-! ### `modCtx` -/

@[simp] theorem State.modCtx_clk (s : State) (c : Nat) (f : Ctx → Ctx) : (s.modCtx c f).clk = s.clk := rfl
@[simp] theorem State.modCtx_age (s : State) (c : Nat) (f : Ctx → Ctx) : (s.modCtx c f).age = s.age := rfl
@[simp] theorem State.modCtx_cur (s : State) (c : Nat) (f : Ctx → Ctx) : (s.modCtx c f).cur = s.cur := rfl
@[simp] theorem State.modCtx_mark (s : State) (c : Nat) (f : Ctx → Ctx) : (s.modCtx c f).mark = s.mark := rfl
@[simp] theorem State.modCtx_ev (s : State) (c : Nat) (f : Ctx → Ctx) : (s.modCtx c f).ev = s.ev := rfl
@[simp] theorem State.modCtx_agenda (s : State) (c : Nat) (f : Ctx → Ctx) : (s.modCtx c f).agenda = s.agenda := rfl
@[simp] theorem State.modCtx_fetched (s : State) (c : Nat) (f : Ctx → Ctx) : (s.modCtx c f).fetched = s.fetched := rfl
@[simp] theorem State.modCtx_fresh (s : State) (c : Nat) (f : Ctx → Ctx) : (s.modCtx c f).fresh = s.fresh := rfl
@[simp] theorem State.modCtx_order (s : State) (c : Nat) (f : Ctx → Ctx) : (s.modCtx c f).order = s.order := rfl
@[simp] theorem State.modCtx_uids (s : State) (c : Nat) (f : Ctx → Ctx) : (s.modCtx c f).uids = s.uids := rfl
@[simp] theorem State.modCtx_mem (s : State) (c : Nat) (f : Ctx → Ctx) : (s.modCtx c f).mem = s.mem := rfl
@[simp] theorem State.modCtx_poison (s : State) (c : Nat) (f : Ctx → Ctx) : (s.modCtx c f).poison = s.poison := rfl
@[simp] theorem State.modCtx_ueMem (s : State) (c : Nat) (f : Ctx → Ctx) : (s.modCtx c f).ueMem = s.ueMem := rfl
@[simp] theorem State.modCtx_cores (s : State) (c : Nat) (f : Ctx → Ctx) : (s.modCtx c f).cores = s.cores := rfl
@[simp] theorem State.modCtx_clusters (s : State) (c : Nat) (f : Ctx → Ctx) : (s.modCtx c f).clusters = s.clusters := rfl
@[simp] theorem State.modCtx_dies (s : State) (c : Nat) (f : Ctx → Ctx) : (s.modCtx c f).dies = s.dies := rfl
@[simp] theorem State.modCtx_worlds (s : State) (c : Nat) (f : Ctx → Ctx) : (s.modCtx c f).worlds = s.worlds := rfl
@[simp] theorem State.modCtx_peers (s : State) (c : Nat) (f : Ctx → Ctx) : (s.modCtx c f).peers = s.peers := rfl
@[simp] theorem State.modCtx_leagues (s : State) (c : Nat) (f : Ctx → Ctx) : (s.modCtx c f).leagues = s.leagues := rfl
@[simp] theorem State.modCtx_pkg (s : State) (c : Nat) (f : Ctx → Ctx) : (s.modCtx c f).pkg = s.pkg := rfl

/-! ### `modWorld` -/

@[simp] theorem State.modWorld_clk (s : State) (w : Nat) (f : World → World) : (s.modWorld w f).clk = s.clk := rfl
@[simp] theorem State.modWorld_age (s : State) (w : Nat) (f : World → World) : (s.modWorld w f).age = s.age := rfl
@[simp] theorem State.modWorld_cur (s : State) (w : Nat) (f : World → World) : (s.modWorld w f).cur = s.cur := rfl
@[simp] theorem State.modWorld_mark (s : State) (w : Nat) (f : World → World) : (s.modWorld w f).mark = s.mark := rfl
@[simp] theorem State.modWorld_ev (s : State) (w : Nat) (f : World → World) : (s.modWorld w f).ev = s.ev := rfl
@[simp] theorem State.modWorld_agenda (s : State) (w : Nat) (f : World → World) : (s.modWorld w f).agenda = s.agenda := rfl
@[simp] theorem State.modWorld_fetched (s : State) (w : Nat) (f : World → World) : (s.modWorld w f).fetched = s.fetched := rfl
@[simp] theorem State.modWorld_fresh (s : State) (w : Nat) (f : World → World) : (s.modWorld w f).fresh = s.fresh := rfl
@[simp] theorem State.modWorld_order (s : State) (w : Nat) (f : World → World) : (s.modWorld w f).order = s.order := rfl
@[simp] theorem State.modWorld_uids (s : State) (w : Nat) (f : World → World) : (s.modWorld w f).uids = s.uids := rfl
@[simp] theorem State.modWorld_mem (s : State) (w : Nat) (f : World → World) : (s.modWorld w f).mem = s.mem := rfl
@[simp] theorem State.modWorld_poison (s : State) (w : Nat) (f : World → World) : (s.modWorld w f).poison = s.poison := rfl
@[simp] theorem State.modWorld_ueMem (s : State) (w : Nat) (f : World → World) : (s.modWorld w f).ueMem = s.ueMem := rfl
@[simp] theorem State.modWorld_cores (s : State) (w : Nat) (f : World → World) : (s.modWorld w f).cores = s.cores := rfl
@[simp] theorem State.modWorld_clusters (s : State) (w : Nat) (f : World → World) : (s.modWorld w f).clusters = s.clusters := rfl
@[simp] theorem State.modWorld_dies (s : State) (w : Nat) (f : World → World) : (s.modWorld w f).dies = s.dies := rfl
@[simp] theorem State.modWorld_ctxs (s : State) (w : Nat) (f : World → World) : (s.modWorld w f).ctxs = s.ctxs := rfl
@[simp] theorem State.modWorld_peers (s : State) (w : Nat) (f : World → World) : (s.modWorld w f).peers = s.peers := rfl
@[simp] theorem State.modWorld_leagues (s : State) (w : Nat) (f : World → World) : (s.modWorld w f).leagues = s.leagues := rfl
@[simp] theorem State.modWorld_pkg (s : State) (w : Nat) (f : World → World) : (s.modWorld w f).pkg = s.pkg := rfl

/-! ### `modPeer` -/

@[simp] theorem State.modPeer_clk (s : State) (p : Nat) (f : Peer → Peer) : (s.modPeer p f).clk = s.clk := rfl
@[simp] theorem State.modPeer_age (s : State) (p : Nat) (f : Peer → Peer) : (s.modPeer p f).age = s.age := rfl
@[simp] theorem State.modPeer_cur (s : State) (p : Nat) (f : Peer → Peer) : (s.modPeer p f).cur = s.cur := rfl
@[simp] theorem State.modPeer_mark (s : State) (p : Nat) (f : Peer → Peer) : (s.modPeer p f).mark = s.mark := rfl
@[simp] theorem State.modPeer_ev (s : State) (p : Nat) (f : Peer → Peer) : (s.modPeer p f).ev = s.ev := rfl
@[simp] theorem State.modPeer_agenda (s : State) (p : Nat) (f : Peer → Peer) : (s.modPeer p f).agenda = s.agenda := rfl
@[simp] theorem State.modPeer_fetched (s : State) (p : Nat) (f : Peer → Peer) : (s.modPeer p f).fetched = s.fetched := rfl
@[simp] theorem State.modPeer_fresh (s : State) (p : Nat) (f : Peer → Peer) : (s.modPeer p f).fresh = s.fresh := rfl
@[simp] theorem State.modPeer_order (s : State) (p : Nat) (f : Peer → Peer) : (s.modPeer p f).order = s.order := rfl
@[simp] theorem State.modPeer_uids (s : State) (p : Nat) (f : Peer → Peer) : (s.modPeer p f).uids = s.uids := rfl
@[simp] theorem State.modPeer_mem (s : State) (p : Nat) (f : Peer → Peer) : (s.modPeer p f).mem = s.mem := rfl
@[simp] theorem State.modPeer_poison (s : State) (p : Nat) (f : Peer → Peer) : (s.modPeer p f).poison = s.poison := rfl
@[simp] theorem State.modPeer_ueMem (s : State) (p : Nat) (f : Peer → Peer) : (s.modPeer p f).ueMem = s.ueMem := rfl
@[simp] theorem State.modPeer_cores (s : State) (p : Nat) (f : Peer → Peer) : (s.modPeer p f).cores = s.cores := rfl
@[simp] theorem State.modPeer_clusters (s : State) (p : Nat) (f : Peer → Peer) : (s.modPeer p f).clusters = s.clusters := rfl
@[simp] theorem State.modPeer_dies (s : State) (p : Nat) (f : Peer → Peer) : (s.modPeer p f).dies = s.dies := rfl
@[simp] theorem State.modPeer_ctxs (s : State) (p : Nat) (f : Peer → Peer) : (s.modPeer p f).ctxs = s.ctxs := rfl
@[simp] theorem State.modPeer_worlds (s : State) (p : Nat) (f : Peer → Peer) : (s.modPeer p f).worlds = s.worlds := rfl
@[simp] theorem State.modPeer_leagues (s : State) (p : Nat) (f : Peer → Peer) : (s.modPeer p f).leagues = s.leagues := rfl
@[simp] theorem State.modPeer_pkg (s : State) (p : Nat) (f : Peer → Peer) : (s.modPeer p f).pkg = s.pkg := rfl

/-! ### `modLeague` -/

@[simp] theorem State.modLeague_clk (s : State) (n : Nat) (f : League → League) : (s.modLeague n f).clk = s.clk := rfl
@[simp] theorem State.modLeague_age (s : State) (n : Nat) (f : League → League) : (s.modLeague n f).age = s.age := rfl
@[simp] theorem State.modLeague_cur (s : State) (n : Nat) (f : League → League) : (s.modLeague n f).cur = s.cur := rfl
@[simp] theorem State.modLeague_mark (s : State) (n : Nat) (f : League → League) : (s.modLeague n f).mark = s.mark := rfl
@[simp] theorem State.modLeague_ev (s : State) (n : Nat) (f : League → League) : (s.modLeague n f).ev = s.ev := rfl
@[simp] theorem State.modLeague_agenda (s : State) (n : Nat) (f : League → League) : (s.modLeague n f).agenda = s.agenda := rfl
@[simp] theorem State.modLeague_fetched (s : State) (n : Nat) (f : League → League) : (s.modLeague n f).fetched = s.fetched := rfl
@[simp] theorem State.modLeague_fresh (s : State) (n : Nat) (f : League → League) : (s.modLeague n f).fresh = s.fresh := rfl
@[simp] theorem State.modLeague_order (s : State) (n : Nat) (f : League → League) : (s.modLeague n f).order = s.order := rfl
@[simp] theorem State.modLeague_uids (s : State) (n : Nat) (f : League → League) : (s.modLeague n f).uids = s.uids := rfl
@[simp] theorem State.modLeague_mem (s : State) (n : Nat) (f : League → League) : (s.modLeague n f).mem = s.mem := rfl
@[simp] theorem State.modLeague_poison (s : State) (n : Nat) (f : League → League) : (s.modLeague n f).poison = s.poison := rfl
@[simp] theorem State.modLeague_ueMem (s : State) (n : Nat) (f : League → League) : (s.modLeague n f).ueMem = s.ueMem := rfl
@[simp] theorem State.modLeague_cores (s : State) (n : Nat) (f : League → League) : (s.modLeague n f).cores = s.cores := rfl
@[simp] theorem State.modLeague_clusters (s : State) (n : Nat) (f : League → League) : (s.modLeague n f).clusters = s.clusters := rfl
@[simp] theorem State.modLeague_dies (s : State) (n : Nat) (f : League → League) : (s.modLeague n f).dies = s.dies := rfl
@[simp] theorem State.modLeague_ctxs (s : State) (n : Nat) (f : League → League) : (s.modLeague n f).ctxs = s.ctxs := rfl
@[simp] theorem State.modLeague_worlds (s : State) (n : Nat) (f : League → League) : (s.modLeague n f).worlds = s.worlds := rfl
@[simp] theorem State.modLeague_peers (s : State) (n : Nat) (f : League → League) : (s.modLeague n f).peers = s.peers := rfl
@[simp] theorem State.modLeague_pkg (s : State) (n : Nat) (f : League → League) : (s.modLeague n f).pkg = s.pkg := rfl

/-! ### `land` -/

@[simp] theorem State.land_clk (s : State) (w : RegWrite) (n : Nat) (fl : BitVec 8) (z : Bool) : (s.land w n fl z).clk = s.clk := rfl
@[simp] theorem State.land_age (s : State) (w : RegWrite) (n : Nat) (fl : BitVec 8) (z : Bool) : (s.land w n fl z).age = s.age := rfl
@[simp] theorem State.land_cur (s : State) (w : RegWrite) (n : Nat) (fl : BitVec 8) (z : Bool) : (s.land w n fl z).cur = s.cur := rfl
@[simp] theorem State.land_mark (s : State) (w : RegWrite) (n : Nat) (fl : BitVec 8) (z : Bool) : (s.land w n fl z).mark = s.mark := rfl
@[simp] theorem State.land_ev (s : State) (w : RegWrite) (n : Nat) (fl : BitVec 8) (z : Bool) : (s.land w n fl z).ev = s.ev := rfl
@[simp] theorem State.land_agenda (s : State) (w : RegWrite) (n : Nat) (fl : BitVec 8) (z : Bool) : (s.land w n fl z).agenda = s.agenda := rfl
@[simp] theorem State.land_fetched (s : State) (w : RegWrite) (n : Nat) (fl : BitVec 8) (z : Bool) : (s.land w n fl z).fetched = s.fetched := rfl
@[simp] theorem State.land_fresh (s : State) (w : RegWrite) (n : Nat) (fl : BitVec 8) (z : Bool) : (s.land w n fl z).fresh = s.fresh := rfl
@[simp] theorem State.land_order (s : State) (w : RegWrite) (n : Nat) (fl : BitVec 8) (z : Bool) : (s.land w n fl z).order = s.order := rfl
@[simp] theorem State.land_uids (s : State) (w : RegWrite) (n : Nat) (fl : BitVec 8) (z : Bool) : (s.land w n fl z).uids = s.uids := rfl
@[simp] theorem State.land_mem (s : State) (w : RegWrite) (n : Nat) (fl : BitVec 8) (z : Bool) : (s.land w n fl z).mem = s.mem := rfl
@[simp] theorem State.land_poison (s : State) (w : RegWrite) (n : Nat) (fl : BitVec 8) (z : Bool) : (s.land w n fl z).poison = s.poison := rfl
@[simp] theorem State.land_ueMem (s : State) (w : RegWrite) (n : Nat) (fl : BitVec 8) (z : Bool) : (s.land w n fl z).ueMem = s.ueMem := rfl
@[simp] theorem State.land_clusters (s : State) (w : RegWrite) (n : Nat) (fl : BitVec 8) (z : Bool) : (s.land w n fl z).clusters = s.clusters := rfl
@[simp] theorem State.land_dies (s : State) (w : RegWrite) (n : Nat) (fl : BitVec 8) (z : Bool) : (s.land w n fl z).dies = s.dies := rfl
@[simp] theorem State.land_ctxs (s : State) (w : RegWrite) (n : Nat) (fl : BitVec 8) (z : Bool) : (s.land w n fl z).ctxs = s.ctxs := rfl
@[simp] theorem State.land_worlds (s : State) (w : RegWrite) (n : Nat) (fl : BitVec 8) (z : Bool) : (s.land w n fl z).worlds = s.worlds := rfl
@[simp] theorem State.land_peers (s : State) (w : RegWrite) (n : Nat) (fl : BitVec 8) (z : Bool) : (s.land w n fl z).peers = s.peers := rfl
@[simp] theorem State.land_leagues (s : State) (w : RegWrite) (n : Nat) (fl : BitVec 8) (z : Bool) : (s.land w n fl z).leagues = s.leagues := rfl
@[simp] theorem State.land_pkg (s : State) (w : RegWrite) (n : Nat) (fl : BitVec 8) (z : Bool) : (s.land w n fl z).pkg = s.pkg := rfl

/-! ### Reads after writes of the parts -/

@[simp] theorem State.setCore_core_same (s : State) (c : Nat) (x : Core) : (s.setCore c x).core c = x := by simp [State.setCore, State.core]
theorem State.setCore_core_other (s : State) {c j : Nat} (x : Core) (h : j ≠ c) : (s.setCore c x).core j = s.core j := by
  simp [State.setCore, State.core, mapGet_mapSet_other _ _ h]
@[simp] theorem State.modCore_core_same (s : State) (c : Nat) (g : Core → Core) : (s.modCore c g).core c = g (s.core c) := by
  simp [State.modCore]
theorem State.modCore_core_other (s : State) {c j : Nat} (g : Core → Core) (h : j ≠ c) : (s.modCore c g).core j = s.core j := by
  simp [State.modCore, State.setCore_core_other _ _ h]
@[simp] theorem State.setCluster_cluster_same (s : State) (k : Nat) (x : Cluster) : (s.setCluster k x).cluster k = x := by simp [State.setCluster, State.cluster]
theorem State.setCluster_cluster_other (s : State) {k j : Nat} (x : Cluster) (h : j ≠ k) : (s.setCluster k x).cluster j = s.cluster j := by
  simp [State.setCluster, State.cluster, mapGet_mapSet_other _ _ h]
@[simp] theorem State.modCluster_cluster_same (s : State) (k : Nat) (g : Cluster → Cluster) : (s.modCluster k g).cluster k = g (s.cluster k) := by
  simp [State.modCluster]
theorem State.modCluster_cluster_other (s : State) {k j : Nat} (g : Cluster → Cluster) (h : j ≠ k) : (s.modCluster k g).cluster j = s.cluster j := by
  simp [State.modCluster, State.setCluster_cluster_other _ _ h]
@[simp] theorem State.setDie_die_same (s : State) (d : Nat) (x : Die) : (s.setDie d x).die d = x := by simp [State.setDie, State.die]
theorem State.setDie_die_other (s : State) {d j : Nat} (x : Die) (h : j ≠ d) : (s.setDie d x).die j = s.die j := by
  simp [State.setDie, State.die, mapGet_mapSet_other _ _ h]
@[simp] theorem State.modDie_die_same (s : State) (d : Nat) (g : Die → Die) : (s.modDie d g).die d = g (s.die d) := by
  simp [State.modDie]
theorem State.modDie_die_other (s : State) {d j : Nat} (g : Die → Die) (h : j ≠ d) : (s.modDie d g).die j = s.die j := by
  simp [State.modDie, State.setDie_die_other _ _ h]
@[simp] theorem State.setCtx_ctx_same (s : State) (c : Nat) (x : Ctx) : (s.setCtx c x).ctx c = x := by simp [State.setCtx, State.ctx]
theorem State.setCtx_ctx_other (s : State) {c j : Nat} (x : Ctx) (h : j ≠ c) : (s.setCtx c x).ctx j = s.ctx j := by
  simp [State.setCtx, State.ctx, mapGet_mapSet_other _ _ h]
@[simp] theorem State.modCtx_ctx_same (s : State) (c : Nat) (g : Ctx → Ctx) : (s.modCtx c g).ctx c = g (s.ctx c) := by
  simp [State.modCtx]
theorem State.modCtx_ctx_other (s : State) {c j : Nat} (g : Ctx → Ctx) (h : j ≠ c) : (s.modCtx c g).ctx j = s.ctx j := by
  simp [State.modCtx, State.setCtx_ctx_other _ _ h]
@[simp] theorem State.setWorld_world_same (s : State) (w : Nat) (x : World) : (s.setWorld w x).world w = x := by simp [State.setWorld, State.world]
theorem State.setWorld_world_other (s : State) {w j : Nat} (x : World) (h : j ≠ w) : (s.setWorld w x).world j = s.world j := by
  simp [State.setWorld, State.world, mapGet_mapSet_other _ _ h]
@[simp] theorem State.modWorld_world_same (s : State) (w : Nat) (g : World → World) : (s.modWorld w g).world w = g (s.world w) := by
  simp [State.modWorld]
theorem State.modWorld_world_other (s : State) {w j : Nat} (g : World → World) (h : j ≠ w) : (s.modWorld w g).world j = s.world j := by
  simp [State.modWorld, State.setWorld_world_other _ _ h]
@[simp] theorem State.setPeer_peer_same (s : State) (p : Nat) (x : Peer) : (s.setPeer p x).peer p = x := by simp [State.setPeer, State.peer]
theorem State.setPeer_peer_other (s : State) {p j : Nat} (x : Peer) (h : j ≠ p) : (s.setPeer p x).peer j = s.peer j := by
  simp [State.setPeer, State.peer, mapGet_mapSet_other _ _ h]
@[simp] theorem State.modPeer_peer_same (s : State) (p : Nat) (g : Peer → Peer) : (s.modPeer p g).peer p = g (s.peer p) := by
  simp [State.modPeer]
theorem State.modPeer_peer_other (s : State) {p j : Nat} (g : Peer → Peer) (h : j ≠ p) : (s.modPeer p g).peer j = s.peer j := by
  simp [State.modPeer, State.setPeer_peer_other _ _ h]
@[simp] theorem State.setLeague_league_same (s : State) (n : Nat) (x : League) : (s.setLeague n x).league n = x := by simp [State.setLeague, State.league]
theorem State.setLeague_league_other (s : State) {n j : Nat} (x : League) (h : j ≠ n) : (s.setLeague n x).league j = s.league j := by
  simp [State.setLeague, State.league, mapGet_mapSet_other _ _ h]
@[simp] theorem State.modLeague_league_same (s : State) (n : Nat) (g : League → League) : (s.modLeague n g).league n = g (s.league n) := by
  simp [State.modLeague]
theorem State.modLeague_league_other (s : State) {n j : Nat} (g : League → League) (h : j ≠ n) : (s.modLeague n g).league j = s.league j := by
  simp [State.modLeague, State.setLeague_league_other _ _ h]

/-! ### Reads of the parts that an update does not concern -/

@[simp] theorem State.setCore_cluster (s : State) (c : Nat) (x : Core) (k' : Nat) : (s.setCore c x).cluster k' = s.cluster k' := rfl
@[simp] theorem State.setCore_die (s : State) (c : Nat) (x : Core) (d' : Nat) : (s.setCore c x).die d' = s.die d' := rfl
@[simp] theorem State.setCore_ctx (s : State) (c : Nat) (x : Core) (c' : Nat) : (s.setCore c x).ctx c' = s.ctx c' := rfl
@[simp] theorem State.setCore_world (s : State) (c : Nat) (x : Core) (w' : Nat) : (s.setCore c x).world w' = s.world w' := rfl
@[simp] theorem State.setCore_peer (s : State) (c : Nat) (x : Core) (p' : Nat) : (s.setCore c x).peer p' = s.peer p' := rfl
@[simp] theorem State.setCore_league (s : State) (c : Nat) (x : Core) (n' : Nat) : (s.setCore c x).league n' = s.league n' := rfl
@[simp] theorem State.setBank_cluster (s : State) (c p : Nat) (b : Bank) (k' : Nat) : (s.setBank c p b).cluster k' = s.cluster k' := rfl
@[simp] theorem State.setBank_die (s : State) (c p : Nat) (b : Bank) (d' : Nat) : (s.setBank c p b).die d' = s.die d' := rfl
@[simp] theorem State.setBank_ctx (s : State) (c p : Nat) (b : Bank) (c' : Nat) : (s.setBank c p b).ctx c' = s.ctx c' := rfl
@[simp] theorem State.setBank_world (s : State) (c p : Nat) (b : Bank) (w' : Nat) : (s.setBank c p b).world w' = s.world w' := rfl
@[simp] theorem State.setBank_peer (s : State) (c p : Nat) (b : Bank) (p' : Nat) : (s.setBank c p b).peer p' = s.peer p' := rfl
@[simp] theorem State.setBank_league (s : State) (c p : Nat) (b : Bank) (n' : Nat) : (s.setBank c p b).league n' = s.league n' := rfl
@[simp] theorem State.setCluster_core (s : State) (k : Nat) (x : Cluster) (c' : Nat) : (s.setCluster k x).core c' = s.core c' := rfl
@[simp] theorem State.setCluster_die (s : State) (k : Nat) (x : Cluster) (d' : Nat) : (s.setCluster k x).die d' = s.die d' := rfl
@[simp] theorem State.setCluster_ctx (s : State) (k : Nat) (x : Cluster) (c' : Nat) : (s.setCluster k x).ctx c' = s.ctx c' := rfl
@[simp] theorem State.setCluster_world (s : State) (k : Nat) (x : Cluster) (w' : Nat) : (s.setCluster k x).world w' = s.world w' := rfl
@[simp] theorem State.setCluster_peer (s : State) (k : Nat) (x : Cluster) (p' : Nat) : (s.setCluster k x).peer p' = s.peer p' := rfl
@[simp] theorem State.setCluster_league (s : State) (k : Nat) (x : Cluster) (n' : Nat) : (s.setCluster k x).league n' = s.league n' := rfl
@[simp] theorem State.setCluster_bank (s : State) (k : Nat) (x : Cluster) (c' p' : Nat) : (s.setCluster k x).bank c' p' = s.bank c' p' := rfl
@[simp] theorem State.setCluster_bk (s : State) (k : Nat) (x : Cluster) : (s.setCluster k x).bk = s.bk := rfl
@[simp] theorem State.setCluster_cr (s : State) (k : Nat) (x : Cluster) : (s.setCluster k x).cr = s.cr := rfl
@[simp] theorem State.setDie_core (s : State) (d : Nat) (x : Die) (c' : Nat) : (s.setDie d x).core c' = s.core c' := rfl
@[simp] theorem State.setDie_cluster (s : State) (d : Nat) (x : Die) (k' : Nat) : (s.setDie d x).cluster k' = s.cluster k' := rfl
@[simp] theorem State.setDie_ctx (s : State) (d : Nat) (x : Die) (c' : Nat) : (s.setDie d x).ctx c' = s.ctx c' := rfl
@[simp] theorem State.setDie_world (s : State) (d : Nat) (x : Die) (w' : Nat) : (s.setDie d x).world w' = s.world w' := rfl
@[simp] theorem State.setDie_peer (s : State) (d : Nat) (x : Die) (p' : Nat) : (s.setDie d x).peer p' = s.peer p' := rfl
@[simp] theorem State.setDie_league (s : State) (d : Nat) (x : Die) (n' : Nat) : (s.setDie d x).league n' = s.league n' := rfl
@[simp] theorem State.setDie_bank (s : State) (d : Nat) (x : Die) (c' p' : Nat) : (s.setDie d x).bank c' p' = s.bank c' p' := rfl
@[simp] theorem State.setDie_bk (s : State) (d : Nat) (x : Die) : (s.setDie d x).bk = s.bk := rfl
@[simp] theorem State.setDie_cr (s : State) (d : Nat) (x : Die) : (s.setDie d x).cr = s.cr := rfl
@[simp] theorem State.setCtx_core (s : State) (c : Nat) (x : Ctx) (c' : Nat) : (s.setCtx c x).core c' = s.core c' := rfl
@[simp] theorem State.setCtx_cluster (s : State) (c : Nat) (x : Ctx) (k' : Nat) : (s.setCtx c x).cluster k' = s.cluster k' := rfl
@[simp] theorem State.setCtx_die (s : State) (c : Nat) (x : Ctx) (d' : Nat) : (s.setCtx c x).die d' = s.die d' := rfl
@[simp] theorem State.setCtx_world (s : State) (c : Nat) (x : Ctx) (w' : Nat) : (s.setCtx c x).world w' = s.world w' := rfl
@[simp] theorem State.setCtx_peer (s : State) (c : Nat) (x : Ctx) (p' : Nat) : (s.setCtx c x).peer p' = s.peer p' := rfl
@[simp] theorem State.setCtx_league (s : State) (c : Nat) (x : Ctx) (n' : Nat) : (s.setCtx c x).league n' = s.league n' := rfl
@[simp] theorem State.setCtx_bank (s : State) (c : Nat) (x : Ctx) (c' p' : Nat) : (s.setCtx c x).bank c' p' = s.bank c' p' := rfl
@[simp] theorem State.setCtx_bk (s : State) (c : Nat) (x : Ctx) : (s.setCtx c x).bk = s.bk := rfl
@[simp] theorem State.setCtx_cr (s : State) (c : Nat) (x : Ctx) : (s.setCtx c x).cr = s.cr := rfl
@[simp] theorem State.setWorld_core (s : State) (w : Nat) (x : World) (c' : Nat) : (s.setWorld w x).core c' = s.core c' := rfl
@[simp] theorem State.setWorld_cluster (s : State) (w : Nat) (x : World) (k' : Nat) : (s.setWorld w x).cluster k' = s.cluster k' := rfl
@[simp] theorem State.setWorld_die (s : State) (w : Nat) (x : World) (d' : Nat) : (s.setWorld w x).die d' = s.die d' := rfl
@[simp] theorem State.setWorld_ctx (s : State) (w : Nat) (x : World) (c' : Nat) : (s.setWorld w x).ctx c' = s.ctx c' := rfl
@[simp] theorem State.setWorld_peer (s : State) (w : Nat) (x : World) (p' : Nat) : (s.setWorld w x).peer p' = s.peer p' := rfl
@[simp] theorem State.setWorld_league (s : State) (w : Nat) (x : World) (n' : Nat) : (s.setWorld w x).league n' = s.league n' := rfl
@[simp] theorem State.setWorld_bank (s : State) (w : Nat) (x : World) (c' p' : Nat) : (s.setWorld w x).bank c' p' = s.bank c' p' := rfl
@[simp] theorem State.setWorld_bk (s : State) (w : Nat) (x : World) : (s.setWorld w x).bk = s.bk := rfl
@[simp] theorem State.setWorld_cr (s : State) (w : Nat) (x : World) : (s.setWorld w x).cr = s.cr := rfl
@[simp] theorem State.setPeer_core (s : State) (p : Nat) (x : Peer) (c' : Nat) : (s.setPeer p x).core c' = s.core c' := rfl
@[simp] theorem State.setPeer_cluster (s : State) (p : Nat) (x : Peer) (k' : Nat) : (s.setPeer p x).cluster k' = s.cluster k' := rfl
@[simp] theorem State.setPeer_die (s : State) (p : Nat) (x : Peer) (d' : Nat) : (s.setPeer p x).die d' = s.die d' := rfl
@[simp] theorem State.setPeer_ctx (s : State) (p : Nat) (x : Peer) (c' : Nat) : (s.setPeer p x).ctx c' = s.ctx c' := rfl
@[simp] theorem State.setPeer_world (s : State) (p : Nat) (x : Peer) (w' : Nat) : (s.setPeer p x).world w' = s.world w' := rfl
@[simp] theorem State.setPeer_league (s : State) (p : Nat) (x : Peer) (n' : Nat) : (s.setPeer p x).league n' = s.league n' := rfl
@[simp] theorem State.setPeer_bank (s : State) (p : Nat) (x : Peer) (c' p' : Nat) : (s.setPeer p x).bank c' p' = s.bank c' p' := rfl
@[simp] theorem State.setPeer_bk (s : State) (p : Nat) (x : Peer) : (s.setPeer p x).bk = s.bk := rfl
@[simp] theorem State.setPeer_cr (s : State) (p : Nat) (x : Peer) : (s.setPeer p x).cr = s.cr := rfl
@[simp] theorem State.setLeague_core (s : State) (n : Nat) (x : League) (c' : Nat) : (s.setLeague n x).core c' = s.core c' := rfl
@[simp] theorem State.setLeague_cluster (s : State) (n : Nat) (x : League) (k' : Nat) : (s.setLeague n x).cluster k' = s.cluster k' := rfl
@[simp] theorem State.setLeague_die (s : State) (n : Nat) (x : League) (d' : Nat) : (s.setLeague n x).die d' = s.die d' := rfl
@[simp] theorem State.setLeague_ctx (s : State) (n : Nat) (x : League) (c' : Nat) : (s.setLeague n x).ctx c' = s.ctx c' := rfl
@[simp] theorem State.setLeague_world (s : State) (n : Nat) (x : League) (w' : Nat) : (s.setLeague n x).world w' = s.world w' := rfl
@[simp] theorem State.setLeague_peer (s : State) (n : Nat) (x : League) (p' : Nat) : (s.setLeague n x).peer p' = s.peer p' := rfl
@[simp] theorem State.setLeague_bank (s : State) (n : Nat) (x : League) (c' p' : Nat) : (s.setLeague n x).bank c' p' = s.bank c' p' := rfl
@[simp] theorem State.setLeague_bk (s : State) (n : Nat) (x : League) : (s.setLeague n x).bk = s.bk := rfl
@[simp] theorem State.setLeague_cr (s : State) (n : Nat) (x : League) : (s.setLeague n x).cr = s.cr := rfl
@[simp] theorem State.putMem_core (s : State) (pa : Nat) (v : List Byte) (c' : Nat) : (s.putMem pa v).core c' = s.core c' := rfl
@[simp] theorem State.putMem_cluster (s : State) (pa : Nat) (v : List Byte) (k' : Nat) : (s.putMem pa v).cluster k' = s.cluster k' := rfl
@[simp] theorem State.putMem_die (s : State) (pa : Nat) (v : List Byte) (d' : Nat) : (s.putMem pa v).die d' = s.die d' := rfl
@[simp] theorem State.putMem_ctx (s : State) (pa : Nat) (v : List Byte) (c' : Nat) : (s.putMem pa v).ctx c' = s.ctx c' := rfl
@[simp] theorem State.putMem_world (s : State) (pa : Nat) (v : List Byte) (w' : Nat) : (s.putMem pa v).world w' = s.world w' := rfl
@[simp] theorem State.putMem_peer (s : State) (pa : Nat) (v : List Byte) (p' : Nat) : (s.putMem pa v).peer p' = s.peer p' := rfl
@[simp] theorem State.putMem_league (s : State) (pa : Nat) (v : List Byte) (n' : Nat) : (s.putMem pa v).league n' = s.league n' := rfl
@[simp] theorem State.putMem_bank (s : State) (pa : Nat) (v : List Byte) (c' p' : Nat) : (s.putMem pa v).bank c' p' = s.bank c' p' := rfl
@[simp] theorem State.putMem_bk (s : State) (pa : Nat) (v : List Byte) : (s.putMem pa v).bk = s.bk := rfl
@[simp] theorem State.putMem_cr (s : State) (pa : Nat) (v : List Byte) : (s.putMem pa v).cr = s.cr := rfl
@[simp] theorem State.drawn_core (s : State) (c' : Nat) : (s.drawn).core c' = s.core c' := rfl
@[simp] theorem State.drawn_cluster (s : State) (k' : Nat) : (s.drawn).cluster k' = s.cluster k' := rfl
@[simp] theorem State.drawn_die (s : State) (d' : Nat) : (s.drawn).die d' = s.die d' := rfl
@[simp] theorem State.drawn_ctx (s : State) (c' : Nat) : (s.drawn).ctx c' = s.ctx c' := rfl
@[simp] theorem State.drawn_world (s : State) (w' : Nat) : (s.drawn).world w' = s.world w' := rfl
@[simp] theorem State.drawn_peer (s : State) (p' : Nat) : (s.drawn).peer p' = s.peer p' := rfl
@[simp] theorem State.drawn_league (s : State) (n' : Nat) : (s.drawn).league n' = s.league n' := rfl
@[simp] theorem State.drawn_bank (s : State) (c' p' : Nat) : (s.drawn).bank c' p' = s.bank c' p' := rfl
@[simp] theorem State.drawn_bk (s : State) : (s.drawn).bk = s.bk := rfl
@[simp] theorem State.drawn_cr (s : State) : (s.drawn).cr = s.cr := rfl
@[simp] theorem State.modCore_cluster (s : State) (c : Nat) (f : Core → Core) (k' : Nat) : (s.modCore c f).cluster k' = s.cluster k' := rfl
@[simp] theorem State.modCore_die (s : State) (c : Nat) (f : Core → Core) (d' : Nat) : (s.modCore c f).die d' = s.die d' := rfl
@[simp] theorem State.modCore_ctx (s : State) (c : Nat) (f : Core → Core) (c' : Nat) : (s.modCore c f).ctx c' = s.ctx c' := rfl
@[simp] theorem State.modCore_world (s : State) (c : Nat) (f : Core → Core) (w' : Nat) : (s.modCore c f).world w' = s.world w' := rfl
@[simp] theorem State.modCore_peer (s : State) (c : Nat) (f : Core → Core) (p' : Nat) : (s.modCore c f).peer p' = s.peer p' := rfl
@[simp] theorem State.modCore_league (s : State) (c : Nat) (f : Core → Core) (n' : Nat) : (s.modCore c f).league n' = s.league n' := rfl
@[simp] theorem State.modBank_cluster (s : State) (c p : Nat) (f : Bank → Bank) (k' : Nat) : (s.modBank c p f).cluster k' = s.cluster k' := rfl
@[simp] theorem State.modBank_die (s : State) (c p : Nat) (f : Bank → Bank) (d' : Nat) : (s.modBank c p f).die d' = s.die d' := rfl
@[simp] theorem State.modBank_ctx (s : State) (c p : Nat) (f : Bank → Bank) (c' : Nat) : (s.modBank c p f).ctx c' = s.ctx c' := rfl
@[simp] theorem State.modBank_world (s : State) (c p : Nat) (f : Bank → Bank) (w' : Nat) : (s.modBank c p f).world w' = s.world w' := rfl
@[simp] theorem State.modBank_peer (s : State) (c p : Nat) (f : Bank → Bank) (p' : Nat) : (s.modBank c p f).peer p' = s.peer p' := rfl
@[simp] theorem State.modBank_league (s : State) (c p : Nat) (f : Bank → Bank) (n' : Nat) : (s.modBank c p f).league n' = s.league n' := rfl
@[simp] theorem State.modBk_cluster (s : State) (f : Bank → Bank) (k' : Nat) : (s.modBk f).cluster k' = s.cluster k' := rfl
@[simp] theorem State.modBk_die (s : State) (f : Bank → Bank) (d' : Nat) : (s.modBk f).die d' = s.die d' := rfl
@[simp] theorem State.modBk_ctx (s : State) (f : Bank → Bank) (c' : Nat) : (s.modBk f).ctx c' = s.ctx c' := rfl
@[simp] theorem State.modBk_world (s : State) (f : Bank → Bank) (w' : Nat) : (s.modBk f).world w' = s.world w' := rfl
@[simp] theorem State.modBk_peer (s : State) (f : Bank → Bank) (p' : Nat) : (s.modBk f).peer p' = s.peer p' := rfl
@[simp] theorem State.modBk_league (s : State) (f : Bank → Bank) (n' : Nat) : (s.modBk f).league n' = s.league n' := rfl
@[simp] theorem State.setBk_cluster (s : State) (b : Bank) (k' : Nat) : (s.setBk b).cluster k' = s.cluster k' := rfl
@[simp] theorem State.setBk_die (s : State) (b : Bank) (d' : Nat) : (s.setBk b).die d' = s.die d' := rfl
@[simp] theorem State.setBk_ctx (s : State) (b : Bank) (c' : Nat) : (s.setBk b).ctx c' = s.ctx c' := rfl
@[simp] theorem State.setBk_world (s : State) (b : Bank) (w' : Nat) : (s.setBk b).world w' = s.world w' := rfl
@[simp] theorem State.setBk_peer (s : State) (b : Bank) (p' : Nat) : (s.setBk b).peer p' = s.peer p' := rfl
@[simp] theorem State.setBk_league (s : State) (b : Bank) (n' : Nat) : (s.setBk b).league n' = s.league n' := rfl
@[simp] theorem State.modCr_cluster (s : State) (f : Core → Core) (k' : Nat) : (s.modCr f).cluster k' = s.cluster k' := rfl
@[simp] theorem State.modCr_die (s : State) (f : Core → Core) (d' : Nat) : (s.modCr f).die d' = s.die d' := rfl
@[simp] theorem State.modCr_ctx (s : State) (f : Core → Core) (c' : Nat) : (s.modCr f).ctx c' = s.ctx c' := rfl
@[simp] theorem State.modCr_world (s : State) (f : Core → Core) (w' : Nat) : (s.modCr f).world w' = s.world w' := rfl
@[simp] theorem State.modCr_peer (s : State) (f : Core → Core) (p' : Nat) : (s.modCr f).peer p' = s.peer p' := rfl
@[simp] theorem State.modCr_league (s : State) (f : Core → Core) (n' : Nat) : (s.modCr f).league n' = s.league n' := rfl
@[simp] theorem State.setCr_cluster (s : State) (x : Core) (k' : Nat) : (s.setCr x).cluster k' = s.cluster k' := rfl
@[simp] theorem State.setCr_die (s : State) (x : Core) (d' : Nat) : (s.setCr x).die d' = s.die d' := rfl
@[simp] theorem State.setCr_ctx (s : State) (x : Core) (c' : Nat) : (s.setCr x).ctx c' = s.ctx c' := rfl
@[simp] theorem State.setCr_world (s : State) (x : Core) (w' : Nat) : (s.setCr x).world w' = s.world w' := rfl
@[simp] theorem State.setCr_peer (s : State) (x : Core) (p' : Nat) : (s.setCr x).peer p' = s.peer p' := rfl
@[simp] theorem State.setCr_league (s : State) (x : Core) (n' : Nat) : (s.setCr x).league n' = s.league n' := rfl
@[simp] theorem State.modCluster_core (s : State) (k : Nat) (f : Cluster → Cluster) (c' : Nat) : (s.modCluster k f).core c' = s.core c' := rfl
@[simp] theorem State.modCluster_die (s : State) (k : Nat) (f : Cluster → Cluster) (d' : Nat) : (s.modCluster k f).die d' = s.die d' := rfl
@[simp] theorem State.modCluster_ctx (s : State) (k : Nat) (f : Cluster → Cluster) (c' : Nat) : (s.modCluster k f).ctx c' = s.ctx c' := rfl
@[simp] theorem State.modCluster_world (s : State) (k : Nat) (f : Cluster → Cluster) (w' : Nat) : (s.modCluster k f).world w' = s.world w' := rfl
@[simp] theorem State.modCluster_peer (s : State) (k : Nat) (f : Cluster → Cluster) (p' : Nat) : (s.modCluster k f).peer p' = s.peer p' := rfl
@[simp] theorem State.modCluster_league (s : State) (k : Nat) (f : Cluster → Cluster) (n' : Nat) : (s.modCluster k f).league n' = s.league n' := rfl
@[simp] theorem State.modCluster_bank (s : State) (k : Nat) (f : Cluster → Cluster) (c' p' : Nat) : (s.modCluster k f).bank c' p' = s.bank c' p' := rfl
@[simp] theorem State.modCluster_bk (s : State) (k : Nat) (f : Cluster → Cluster) : (s.modCluster k f).bk = s.bk := rfl
@[simp] theorem State.modCluster_cr (s : State) (k : Nat) (f : Cluster → Cluster) : (s.modCluster k f).cr = s.cr := rfl
@[simp] theorem State.modDie_core (s : State) (d : Nat) (f : Die → Die) (c' : Nat) : (s.modDie d f).core c' = s.core c' := rfl
@[simp] theorem State.modDie_cluster (s : State) (d : Nat) (f : Die → Die) (k' : Nat) : (s.modDie d f).cluster k' = s.cluster k' := rfl
@[simp] theorem State.modDie_ctx (s : State) (d : Nat) (f : Die → Die) (c' : Nat) : (s.modDie d f).ctx c' = s.ctx c' := rfl
@[simp] theorem State.modDie_world (s : State) (d : Nat) (f : Die → Die) (w' : Nat) : (s.modDie d f).world w' = s.world w' := rfl
@[simp] theorem State.modDie_peer (s : State) (d : Nat) (f : Die → Die) (p' : Nat) : (s.modDie d f).peer p' = s.peer p' := rfl
@[simp] theorem State.modDie_league (s : State) (d : Nat) (f : Die → Die) (n' : Nat) : (s.modDie d f).league n' = s.league n' := rfl
@[simp] theorem State.modDie_bank (s : State) (d : Nat) (f : Die → Die) (c' p' : Nat) : (s.modDie d f).bank c' p' = s.bank c' p' := rfl
@[simp] theorem State.modDie_bk (s : State) (d : Nat) (f : Die → Die) : (s.modDie d f).bk = s.bk := rfl
@[simp] theorem State.modDie_cr (s : State) (d : Nat) (f : Die → Die) : (s.modDie d f).cr = s.cr := rfl
@[simp] theorem State.modCtx_core (s : State) (c : Nat) (f : Ctx → Ctx) (c' : Nat) : (s.modCtx c f).core c' = s.core c' := rfl
@[simp] theorem State.modCtx_cluster (s : State) (c : Nat) (f : Ctx → Ctx) (k' : Nat) : (s.modCtx c f).cluster k' = s.cluster k' := rfl
@[simp] theorem State.modCtx_die (s : State) (c : Nat) (f : Ctx → Ctx) (d' : Nat) : (s.modCtx c f).die d' = s.die d' := rfl
@[simp] theorem State.modCtx_world (s : State) (c : Nat) (f : Ctx → Ctx) (w' : Nat) : (s.modCtx c f).world w' = s.world w' := rfl
@[simp] theorem State.modCtx_peer (s : State) (c : Nat) (f : Ctx → Ctx) (p' : Nat) : (s.modCtx c f).peer p' = s.peer p' := rfl
@[simp] theorem State.modCtx_league (s : State) (c : Nat) (f : Ctx → Ctx) (n' : Nat) : (s.modCtx c f).league n' = s.league n' := rfl
@[simp] theorem State.modCtx_bank (s : State) (c : Nat) (f : Ctx → Ctx) (c' p' : Nat) : (s.modCtx c f).bank c' p' = s.bank c' p' := rfl
@[simp] theorem State.modCtx_bk (s : State) (c : Nat) (f : Ctx → Ctx) : (s.modCtx c f).bk = s.bk := rfl
@[simp] theorem State.modCtx_cr (s : State) (c : Nat) (f : Ctx → Ctx) : (s.modCtx c f).cr = s.cr := rfl
@[simp] theorem State.modWorld_core (s : State) (w : Nat) (f : World → World) (c' : Nat) : (s.modWorld w f).core c' = s.core c' := rfl
@[simp] theorem State.modWorld_cluster (s : State) (w : Nat) (f : World → World) (k' : Nat) : (s.modWorld w f).cluster k' = s.cluster k' := rfl
@[simp] theorem State.modWorld_die (s : State) (w : Nat) (f : World → World) (d' : Nat) : (s.modWorld w f).die d' = s.die d' := rfl
@[simp] theorem State.modWorld_ctx (s : State) (w : Nat) (f : World → World) (c' : Nat) : (s.modWorld w f).ctx c' = s.ctx c' := rfl
@[simp] theorem State.modWorld_peer (s : State) (w : Nat) (f : World → World) (p' : Nat) : (s.modWorld w f).peer p' = s.peer p' := rfl
@[simp] theorem State.modWorld_league (s : State) (w : Nat) (f : World → World) (n' : Nat) : (s.modWorld w f).league n' = s.league n' := rfl
@[simp] theorem State.modWorld_bank (s : State) (w : Nat) (f : World → World) (c' p' : Nat) : (s.modWorld w f).bank c' p' = s.bank c' p' := rfl
@[simp] theorem State.modWorld_bk (s : State) (w : Nat) (f : World → World) : (s.modWorld w f).bk = s.bk := rfl
@[simp] theorem State.modWorld_cr (s : State) (w : Nat) (f : World → World) : (s.modWorld w f).cr = s.cr := rfl
@[simp] theorem State.modPeer_core (s : State) (p : Nat) (f : Peer → Peer) (c' : Nat) : (s.modPeer p f).core c' = s.core c' := rfl
@[simp] theorem State.modPeer_cluster (s : State) (p : Nat) (f : Peer → Peer) (k' : Nat) : (s.modPeer p f).cluster k' = s.cluster k' := rfl
@[simp] theorem State.modPeer_die (s : State) (p : Nat) (f : Peer → Peer) (d' : Nat) : (s.modPeer p f).die d' = s.die d' := rfl
@[simp] theorem State.modPeer_ctx (s : State) (p : Nat) (f : Peer → Peer) (c' : Nat) : (s.modPeer p f).ctx c' = s.ctx c' := rfl
@[simp] theorem State.modPeer_world (s : State) (p : Nat) (f : Peer → Peer) (w' : Nat) : (s.modPeer p f).world w' = s.world w' := rfl
@[simp] theorem State.modPeer_league (s : State) (p : Nat) (f : Peer → Peer) (n' : Nat) : (s.modPeer p f).league n' = s.league n' := rfl
@[simp] theorem State.modPeer_bank (s : State) (p : Nat) (f : Peer → Peer) (c' p' : Nat) : (s.modPeer p f).bank c' p' = s.bank c' p' := rfl
@[simp] theorem State.modPeer_bk (s : State) (p : Nat) (f : Peer → Peer) : (s.modPeer p f).bk = s.bk := rfl
@[simp] theorem State.modPeer_cr (s : State) (p : Nat) (f : Peer → Peer) : (s.modPeer p f).cr = s.cr := rfl
@[simp] theorem State.modLeague_core (s : State) (n : Nat) (f : League → League) (c' : Nat) : (s.modLeague n f).core c' = s.core c' := rfl
@[simp] theorem State.modLeague_cluster (s : State) (n : Nat) (f : League → League) (k' : Nat) : (s.modLeague n f).cluster k' = s.cluster k' := rfl
@[simp] theorem State.modLeague_die (s : State) (n : Nat) (f : League → League) (d' : Nat) : (s.modLeague n f).die d' = s.die d' := rfl
@[simp] theorem State.modLeague_ctx (s : State) (n : Nat) (f : League → League) (c' : Nat) : (s.modLeague n f).ctx c' = s.ctx c' := rfl
@[simp] theorem State.modLeague_world (s : State) (n : Nat) (f : League → League) (w' : Nat) : (s.modLeague n f).world w' = s.world w' := rfl
@[simp] theorem State.modLeague_peer (s : State) (n : Nat) (f : League → League) (p' : Nat) : (s.modLeague n f).peer p' = s.peer p' := rfl
@[simp] theorem State.modLeague_bank (s : State) (n : Nat) (f : League → League) (c' p' : Nat) : (s.modLeague n f).bank c' p' = s.bank c' p' := rfl
@[simp] theorem State.modLeague_bk (s : State) (n : Nat) (f : League → League) : (s.modLeague n f).bk = s.bk := rfl
@[simp] theorem State.modLeague_cr (s : State) (n : Nat) (f : League → League) : (s.modLeague n f).cr = s.cr := rfl
@[simp] theorem State.land_cluster (s : State) (w : RegWrite) (n : Nat) (fl : BitVec 8) (z : Bool) (k' : Nat) : (s.land w n fl z).cluster k' = s.cluster k' := rfl
@[simp] theorem State.land_die (s : State) (w : RegWrite) (n : Nat) (fl : BitVec 8) (z : Bool) (d' : Nat) : (s.land w n fl z).die d' = s.die d' := rfl
@[simp] theorem State.land_ctx (s : State) (w : RegWrite) (n : Nat) (fl : BitVec 8) (z : Bool) (c' : Nat) : (s.land w n fl z).ctx c' = s.ctx c' := rfl
@[simp] theorem State.land_world (s : State) (w : RegWrite) (n : Nat) (fl : BitVec 8) (z : Bool) (w' : Nat) : (s.land w n fl z).world w' = s.world w' := rfl
@[simp] theorem State.land_peer (s : State) (w : RegWrite) (n : Nat) (fl : BitVec 8) (z : Bool) (p' : Nat) : (s.land w n fl z).peer p' = s.peer p' := rfl
@[simp] theorem State.land_league (s : State) (w : RegWrite) (n : Nat) (fl : BitVec 8) (z : Bool) (n' : Nat) : (s.land w n fl z).league n' = s.league n' := rfl

/-! ### Banks -/

@[simp] theorem Core.setBank_bank_same (x : Core) (p : Nat) (b : Bank) : (x.setBank p b).bank p = b := by
  simp [Core.setBank, Core.bank]
theorem Core.setBank_bank_other (x : Core) {p j : Nat} (b : Bank) (h : j ≠ p) : (x.setBank p b).bank j = x.bank j := by
  simp [Core.setBank, Core.bank, mapGet_mapSet_other _ _ h]
@[simp] theorem State.setBank_bank_same (s : State) (c p : Nat) (b : Bank) : (s.setBank c p b).bank c p = b := by
  simp [State.setBank, State.bank]
theorem State.setBank_bank_other (s : State) {c p c' p' : Nat} (b : Bank) (h : c' ≠ c ∨ p' ≠ p) :
    (s.setBank c p b).bank c' p' = s.bank c' p' := by
  by_cases hc : c' = c
  · subst hc
    have hp : p' ≠ p := by simpa using h
    simp [State.setBank, State.bank, Core.setBank_bank_other _ _ hp]
  · simp [State.setBank, State.bank, State.setCore_core_other _ _ hc]
@[simp] theorem State.modBank_bank_same (s : State) (c p : Nat) (f : Bank → Bank) : (s.modBank c p f).bank c p = f (s.bank c p) := by
  simp [State.modBank]
theorem State.modBank_bank_other (s : State) {c p c' p' : Nat} (f : Bank → Bank) (h : c' ≠ c ∨ p' ≠ p) :
    (s.modBank c p f).bank c' p' = s.bank c' p' := State.setBank_bank_other s _ h
@[simp] theorem State.setBk_bk (s : State) (b : Bank) : (s.setBk b).bk = b := by simp [State.setBk, State.bk]
@[simp] theorem State.modBk_bk (s : State) (f : Bank → Bank) : (s.modBk f).bk = f s.bk := by simp [State.modBk]
@[simp] theorem State.setCr_cr (s : State) (x : Core) : (s.setCr x).cr = x := by simp [State.setCr, State.cr]
@[simp] theorem State.modCr_cr (s : State) (f : Core → Core) : (s.modCr f).cr = f s.cr := by simp [State.modCr]

/-! ### Registers of a bank -/

@[simp] theorem Bank.putCsr_csrAt_same (b : Bank) (i : Nat) (v : Word) : (b.putCsr i v).csrAt i = v := by simp [Bank.putCsr, Bank.csrAt]
theorem Bank.putCsr_csrAt_other (b : Bank) {i j : Nat} (v : Word) (h : j ≠ i) : (b.putCsr i v).csrAt j = b.csrAt j := by
  simp [Bank.putCsr, Bank.csrAt, mapGet_mapSet_other _ _ h]
@[simp] theorem Bank.putCsr_sget (b : Bank) (i : Nat) (v : Word) (n : Nat) : (b.putCsr i v).sget n = b.sget n := rfl
@[simp] theorem Bank.putCsr_aget (b : Bank) (i : Nat) (v : Word) (n : Nat) : (b.putCsr i v).aget n = b.aget n := rfl
@[simp] theorem Bank.putCsr_pget (b : Bank) (i : Nat) (v : Word) (n : Nat) : (b.putCsr i v).pget n = b.pget n := rfl
/-- s0 reads zero (R11). -/
@[simp] theorem Bank.sget_zero (b : Bank) : b.sget 0 = 0 := rfl
/-- p0 reads all ones (R11). -/
@[simp] theorem Bank.pget_zero (b : Bank) : b.pget 0 = BitVec.allOnes 256 := rfl

/-! ### Memory -/

/-- A byte read after a write of consecutive bytes. -/
theorem State.putMem_read (s : State) (pa : Nat) (v : List Byte) (a : Nat) :
    mapGet (fun _ => (0 : Byte)) (s.putMem pa v).mem a =
      if pa ≤ a ∧ a < pa + v.length then v.getD (a - pa) 0 else mapGet (fun _ => (0 : Byte)) s.mem a :=
  mapGet_mapSetList v s.mem pa a

/-- A write of memory keeps its canonical form. -/
theorem State.putMem_wf {s : State} (pa : Nat) (v : List Byte) (h : Memory.wf s.mem = true) : Memory.wf (s.putMem pa v).mem = true :=
  mapWf_mapSetList v pa h

end Sys2Proof.Machine
end

