-- ==== Sys2Proof/Laws/Issue.lean ====
section
/-!
SUPPORT. What the issue of a bundle comes to: the fetch by a strand that nothing keeps from issuing, and the run of a bundle that holds one
instruction.
-/

namespace Sys2Proof.Machine

/-- Updates of the dies one after another change the dies alone. -/
theorem State.foldl_dies {α : Type} (f : State → α → State) (h : ∀ s a, ∃ d, f s a = { s with dies := d }) (l : List α) :
    ∀ s : State, ∃ d, l.foldl f s = { s with dies := d } := by
  induction l with
  | nil => exact fun s => ⟨s.dies, rfl⟩
  | cons a l ih =>
    intro s
    obtain ⟨d, hd⟩ := h s a
    obtain ⟨d', hd'⟩ := ih { s with dies := d }
    exact ⟨d', by rw [List.foldl_cons, hd, hd']⟩

/-- A read through the shared cache changes the dies alone: lines and retired pages (R223, R304). -/
theorem State.readHome_dies (s : State) (ctx pa n : Nat) : ∃ d, (s.readHome ctx pa n).1 = { s with dies := d } := by
  have hu : ∃ d, s.useLines pa n ctx false = { s with dies := d } := by
    unfold State.useLines
    split
    · exact ⟨s.dies, rfl⟩
    · refine State.foldl_dies _ ?_ _ s
      intro s a
      split
      · exact ⟨_, rfl⟩
      · exact ⟨s.dies, rfl⟩
  obtain ⟨d, hd⟩ := hu
  have hr : ∀ t : State, ∃ d, t.retireShown pa n = { t with dies := d } := by
    intro t
    unfold State.retireShown
    refine State.foldl_dies _ ?_ _ t
    intro s a
    unfold State.retirePage
    split
    · exact ⟨s.dies, rfl⟩
    · exact ⟨_, rfl⟩
  obtain ⟨d', hd'⟩ := hr { s with dies := d }
  exact ⟨d', by unfold State.readHome; simp only [hd, hd']⟩

/-- A fetch of code changes the dies alone. -/
theorem State.codeAt_dies (s : State) (pc : Word) (n : Nat) : ∃ d, (s.codeAt pc n).1 = { s with dies := d } := by
  unfold State.codeAt
  simp only
  split
  · exact ⟨s.dies, rfl⟩
  · exact ⟨s.dies, rfl⟩
  · split
    · exact ⟨s.dies, rfl⟩
    · exact State.readHome_dies s _ _ _
  · exact ⟨s.dies, rfl⟩

theorem State.codeUnits_dies (n : Nat) : ∀ (s : State) (pc : Word), ∃ d, (s.codeUnits n pc).1 = { s with dies := d } := by
  induction n with
  | zero => exact fun s _ => ⟨s.dies, rfl⟩
  | succ n ih =>
    intro s pc
    obtain ⟨d, hd⟩ := State.codeAt_dies s pc 2
    have he : s.codeAt pc 2 = ({ s with dies := d }, (s.codeAt pc 2).2) := by rw [← hd]
    obtain ⟨d', hd'⟩ := ih { s with dies := d } (pc + 2)
    unfold State.codeUnits
    rw [he]
    split
    · next t v h =>
      obtain ⟨rfl, -⟩ := Prod.mk.inj h
      split
      · next t' w h' => exact ⟨d', by rw [← hd', h']⟩
      · exact ⟨d', hd'⟩
    · exact ⟨d, rfl⟩

/-- What reading a bundle at the pc changes: the dies alone. -/
theorem State.BundleAt.dies {s : State} {v : Bundle} {next : Word} {s' : State} (h : s.BundleAt v next s') : ∃ d, s' = { s with dies := d } := by
  obtain ⟨u, s1, hu, h⟩ := h
  obtain ⟨d, hd⟩ := State.codeAt_dies s s.cur.pc 2
  rw [hu] at hd
  rcases h with ⟨-, -, -, rfl⟩ | ⟨-, -, -, -, w, hw, -⟩
  · exact ⟨d, hd⟩
  · obtain ⟨d', hd'⟩ := State.codeUnits_dies 24 s1 (s.cur.pc + 2)
    rw [hw] at hd'
    have hs1 : s1 = { s with dies := d } := hd
    subst hs1
    exact ⟨d', hd'⟩

theorem State.countStalls_eq (s : State) (c : Nat) (x : Option Nat) (h : ∀ p, (s.bank c p).status 7 = false) : s.countStalls c x = s := by
  simp [State.countStalls, h]

theorem State.replayHold_eq (s : State) (c p : Nat) (h : ∀ t, (s.bank c p).task = some t → t.replay = false) :
    s.replayHold c p = (s, none) := by
  unfold State.replayHold
  split
  · rfl
  · next t ht => simp [h t ht]

theorem State.dueReplay_eq (s : State) (c : Nat) (h : ∀ p t, (s.bank c p).task = some t → t.replay = false) : s.dueReplay c = none := by
  refine List.find?_eq_none.2 (fun p _ => ?_)
  split
  · next t ht => simp [h p t ht]
  · simp

theorem State.recordStall_eq (s : State) (c p : Nat) (h : (s.bank c p).status 7 = false) : s.recordStall c p = s := by
  simp [State.recordStall, h]

theorem State.admit_eq (s : State) (f : Fetch) (hz : s.hazard f.slots f.pop = .none) : s.letIn f = { s with fetched := some f } := by
  unfold State.letIn
  simp only [hz]

/-- The bundle at the pc, fetched and admitted. -/
theorem State.fetchBundle_eq (s : State) (v : Bundle) (next : Word) (s' : State) (f : Fetch) (hb : s.BundleAt v next s')
    (hd : (s'.withNext next).decodeBundle v = .ok f) (hz : (s'.withNext next).hazard f.slots f.pop = .none) :
    s.fetchBundle = { s'.withNext next with fetched := some f } := by
  have hadmit := State.admit_eq (s'.withNext next) f hz
  obtain ⟨u, s1, hu, h⟩ := hb
  unfold State.fetchBundle
  unfold State.withNext at hd hadmit
  rcases h with ⟨h1, h2, rfl, rfl⟩ | ⟨h1, h2, h3, rfl, w, hw2, rfl⟩
  · simp only [hu, h1, if_true, h2, hd]
    exact hadmit
  · simp only [hu, hw2, h3, h2, hd]
    rw [if_neg (by omega)]
    simp only [if_true]
    exact hadmit

/-- The strand that holds the issue unit fetches its bundle. -/
theorem State.fetchStrand_eq (s : State) (c : Nat) (hc : s.CanIssue c) (v : Bundle) (next : Word) (s' : State) (f : Fetch)
    (hev : s.ev = EvArgs.mk c 0 0 0 0 0 0 0 0 0 0 0 false [] ⟨0, 0, false, 0, none, 0⟩ (.phys 0) .readOnly .requeue 0 0 [])
    (hf : s.fetched = none) (hb : (s.atStrand c).BundleAt v next s')
    (hd : (s'.withNext next).decodeBundle v = .ok f) (hz : (s'.withNext next).hazard f.slots f.pop = .none) :
    s.fetchStrand c (s.core c).issue.pos = { s'.withNext next with fetched := some f } := by
  have hat : s.atStrand c =
      { s with cur := { core := c, pos := (s.core c).issue.pos, slot := 7, pc := (s.bank c (s.core c).issue.pos).pc,
                        next := (s.bank c (s.core c).issue.pos).pc } } := by
    rw [State.atStrand, ← hev, ← hf]
  have hfb := State.fetchBundle_eq (s.atStrand c) v next s' f hb hd hz
  have hst : (s.atStrand c).stopped c (s.core c).issue.pos = false := hc.running
  have hrep : (s.atStrand c).replayHold c (s.core c).issue.pos = (s.atStrand c, none) :=
    State.replayHold_eq _ _ _ (hc.replay _)
  have hrec : (s.atStrand c).recordStall c (s.core c).issue.pos = s.atStrand c :=
    State.recordStall_eq _ _ _ (hc.record _)
  unfold State.fetchStrand
  simp only [← hat]
  simp only [hc.failed, hst, hc.entry, hc.async, hc.interrupt, hc.reported, hc.wait, hc.dict, hrep, hrec, hfb]
  simp

/-- A strand that nothing keeps from its next bundle fetches it (BUNDLE_FETCH). -/
theorem execBundleFetch_eq (s : State) (c : Nat) (hc : s.CanIssue c) (v : Bundle) (next : Word) (s' : State) (f : Fetch)
    (hev : s.ev = EvArgs.mk c 0 0 0 0 0 0 0 0 0 0 0 false [] ⟨0, 0, false, 0, none, 0⟩ (.phys 0) .readOnly .requeue 0 0 [])
    (hb : (s.atStrand c).BundleAt v next s')
    (hd : (s'.withNext next).decodeBundle v = .ok f) (hz : (s'.withNext next).hazard f.slots f.pop = .none) :
    execBundleFetch s = .next { s'.withNext next with fetched := some f } := by
  have hec : s.ev.core = c := by rw [hev]
  have h0 : State.CanIssue { s with fetched := none } c := ⟨hc.core, hc.power, hc.hold, hc.yielded, hc.record, hc.replay, hc.failed,
    hc.running, hc.entry, hc.async, hc.interrupt, hc.reported, hc.wait, hc.dict⟩
  have hdue : State.dueReplay { s with fetched := none } c = none := State.dueReplay_eq _ c hc.replay
  have hfs := State.fetchStrand_eq { s with fetched := none } c h0 v next s' f hev rfl hb hd hz
  have h1 : State.cluster { s with fetched := none } (clusterOf c) = s.cluster (clusterOf c) := rfl
  unfold execBundleFetch
  simp only [hec, h1, hdue, Option.filter_none, ite_self]
  rw [if_neg (by simp [hc.power]), if_neg (by simp), if_neg (by simp [hc.yielded]), if_neg (by have := hc.hold; omega),
    State.countStalls_eq { s with fetched := none } c _ hc.record]
  exact congrArg _ hfs

/-- One slot by itself: it runs on the state that the bundle finds, and what it comes to is what the bundle comes to. -/
theorem State.runSlots_one (s : State) (k : Nat) (i : Instr) (t : State) (hm0 : s.mark = .done) (hs : s.slotOn exec k i = .next t) :
    State.runSlots exec s [(k, i)] s = .next t := by
  have honly : State.onlySlot exec s k i t.mark = .next t := by
    unfold State.onlySlot
    simp only [hs]
    cases hm : t.mark <;> simp
  have hdone : ({ s with mark := .done } : State) = s := by rw [← hm0]
  unfold State.runSlots
  simp only [hs, honly]
  cases hm : t.mark with
  | done => cases ha : actsLast i <;> simp [State.runSlots, hm0, hs, hm]
  | trapped d => simp
  | blocked w => cases w <;> simp [State.runSlots, hdone, hm0]

/-- A bundle that holds one instruction and nothing in its header: what the instruction answers, and what the issue leaves behind. -/
theorem State.runBundle_one (s : State) (k : Nat) (i : Instr) (t : State) (hf : s.fetched = none)
    (hz : s.hazard [(k, i)] 0 = .none) (ht : bankTurns (s.chunksOf i) ≤ 1)
    (hx : exec i ((s.begun { pop := 0, crit := 0, gap := 0, slots := [(k, i)] }).inSlot k) = .next t) :
    ({ s with fetched := some { pop := 0, crit := 0, gap := 0, slots := [(k, i)] } } : State).runBundle exec
        { pop := 0, crit := 0, gap := 0, slots := [(k, i)] } =
      match t.mark with
      | .done => .next ((t.commit s.bk.owed (match s.bk.wait with | some (.sem _ _) => true | _ => false)).remember s |>.countIssue s).nextDue
      | .trapped _ => .next (t.afterTrap s)
      | .blocked w =>
        if w = .drain then .next (t.modBk fun b => { b with uiReady := s.bk.uiReady })
        else .next ((t.modBk fun b => { b with uiReady := s.bk.uiReady }).pushFront .strandSwitch { core := s.cur.core }) := by
  have h0 : ({ ({ s with fetched := some { pop := 0, crit := 0, gap := 0, slots := [(k, i)] } } : State) with fetched := none } : State) = s := by
    rw [← hf]
  have hm0 : (s.begun { pop := 0, crit := 0, gap := 0, slots := [(k, i)] }).mark = .done := rfl
  have hslots := State.runSlots_one _ k i t hm0 hx
  have hturns : s.turnsDue { pop := 0, crit := 0, gap := 0, slots := [(k, i)] } = 0 := by
    unfold State.turnsDue
    simp only [List.flatMap_cons, List.flatMap_nil, List.append_nil]
    split <;> omega
  have hb0 : ({ s with fetched := some { pop := 0, crit := 0, gap := 0, slots := [(k, i)] } } : State).bk = s.bk := rfl
  unfold State.runBundle
  simp only [h0, hb0, hturns, hz, if_true, List.nil_append, hslots]
  have hhold : ∀ x : State, x.holdTurns 0 = x := fun _ => rfl
  cases hm : t.mark with
  | done => simp [State.runSlots] <;> rfl
  | trapped d => rfl
  | blocked w =>
    simp only [hhold, ite_self]
    by_cases h : w = .drain <;> simp only [h, if_true, if_false]

end Sys2Proof.Machine
end

