-- ==== Sys2Proof/Laws/PerInstr.lean ====
section
/-!
SUPPORT. Decoding undoes encoding, constructor by constructor: the lemma of an instruction says that the word of a well-formed instruction
decodes to it, with every operand at every value that the encoding admits (R30-R53). An event has no word.
-/

namespace Sys2Proof

/-! ### The fields of a packed word -/

theorem unpackS_packS (f : SFields) : unpackS (packS f) = f := by
  obtain ⟨op, pg, pn, d, a, b, imm⟩ := f
  simp (disch := omega) only [unpackS, packS, SFields.mk.injEq, BitVec.extractLsb'_append_eq_of_add_le,
    BitVec.extractLsb'_append_eq_of_le, BitVec.getLsbD_append]
  simp

theorem unpackV_packV (f : VFields) : unpackV (packV f) = f := by
  obtain ⟨op, ty, vd, va, vb, vc, pg, pn, m⟩ := f
  simp (disch := omega) only [unpackV, packV, VFields.mk.injEq, BitVec.extractLsb'_append_eq_of_add_le,
    BitVec.extractLsb'_append_eq_of_le, BitVec.getLsbD_append]
  simp

theorem unpackM_packM (f : MFields) : unpackM (packM f) = f := by
  obtain ⟨op, td, oa, ob, fmt, acc, ws, wt, ss⟩ := f
  simp (disch := omega) only [unpackM, packM, MFields.mk.injEq, BitVec.extractLsb'_append_eq_of_add_le,
    BitVec.extractLsb'_append_eq_of_le]
  simp

theorem unpackX_packX (f : XFields) : unpackX (packX f) = f := by
  obtain ⟨op, vd, va, m⟩ := f
  simp (disch := omega) only [unpackX, packX, XFields.mk.injEq, BitVec.extractLsb'_append_eq_of_add_le,
    BitVec.extractLsb'_append_eq_of_le]
  simp

theorem unpackC_packC (f : CFields) : unpackC (packC f) = f := by
  obtain ⟨op, cd, ws, wt, ss, si, cm, z⟩ := f
  simp (disch := omega) only [unpackC, packC, CFields.mk.injEq, BitVec.extractLsb'_append_eq_of_add_le,
    BitVec.extractLsb'_append_eq_of_le]
  simp

/-! ### Register numbers in wider fields -/

theorem lo4_wide (x : BitVec 4) : lo4 (x.setWidth 6) = true := by simp [lo4]; omega
theorem lo4v_wide (x : BitVec 4) : lo4v (x.setWidth 11) = true := by simp [lo4v]; omega
theorem lo6v_wide (x : BitVec 6) : lo6v (x.setWidth 11) = true := by simp [lo6v]; omega

/-! ### Fields put side by side -/

theorem toNat_cat {m n : Nat} (x : BitVec m) (y : BitVec n) : (x ++ y).toNat = x.toNat * 2 ^ n + y.toNat := by
  rw [BitVec.toNat_append, Nat.shiftLeft_eq, Nat.mul_comm, ← Nat.two_pow_add_eq_or_of_lt y.isLt]

theorem cat_5_6_6 (a : BitVec 5) (b : BitVec 6) (c : BitVec 6) : BitVec.toNat (((a ++ b) ++ c) : BitVec 17) =
    a.toNat * 4096 + b.toNat * 64 + c.toNat := by
  refine (toNat_cat (a ++ b) c).trans ?_
  simp only [toNat_cat]
  omega

theorem cat_5_6_6_f2 (a : BitVec 5) (b : BitVec 6) (c : BitVec 6) : BitVec.extractLsb' 0 6 (((a ++ b) ++ c) : BitVec 17) = c := by
  refine (BitVec.extractLsb'_append_eq_of_add_le (by decide)).trans ?_
  exact BitVec.extractLsb'_eq_self

theorem cat_5_6_6_f1 (a : BitVec 5) (b : BitVec 6) (c : BitVec 6) : BitVec.extractLsb' 6 6 (((a ++ b) ++ c) : BitVec 17) = b := by
  refine (BitVec.extractLsb'_append_eq_of_le (by decide)).trans ?_
  refine (BitVec.extractLsb'_append_eq_of_add_le (by decide)).trans ?_
  exact BitVec.extractLsb'_eq_self

theorem cat_1_8_8 (a : BitVec 1) (b : BitVec 8) (c : BitVec 8) : BitVec.toNat (((a ++ b) ++ c) : BitVec 17) =
    a.toNat * 65536 + b.toNat * 256 + c.toNat := by
  refine (toNat_cat (a ++ b) c).trans ?_
  simp only [toNat_cat]
  omega

theorem cat_1_8_8_f2 (a : BitVec 1) (b : BitVec 8) (c : BitVec 8) : BitVec.extractLsb' 0 8 (((a ++ b) ++ c) : BitVec 17) = c := by
  refine (BitVec.extractLsb'_append_eq_of_add_le (by decide)).trans ?_
  exact BitVec.extractLsb'_eq_self

theorem cat_1_8_8_f1 (a : BitVec 1) (b : BitVec 8) (c : BitVec 8) : BitVec.extractLsb' 8 8 (((a ++ b) ++ c) : BitVec 17) = b := by
  refine (BitVec.extractLsb'_append_eq_of_le (by decide)).trans ?_
  refine (BitVec.extractLsb'_append_eq_of_add_le (by decide)).trans ?_
  exact BitVec.extractLsb'_eq_self

theorem cat_9_8 (a : BitVec 9) (b : BitVec 8) : BitVec.toNat ((a ++ b) : BitVec 17) =
    a.toNat * 256 + b.toNat := by
  refine (toNat_cat a b).trans ?_
  omega

theorem cat_9_8_f1 (a : BitVec 9) (b : BitVec 8) : BitVec.extractLsb' 0 8 ((a ++ b) : BitVec 17) = b := by
  refine (BitVec.extractLsb'_append_eq_of_add_le (by decide)).trans ?_
  exact BitVec.extractLsb'_eq_self

theorem cat_3_3_11_f2 (a : BitVec 3) (b : BitVec 3) (c : BitVec 11) : BitVec.extractLsb' 0 11 (((a ++ b) ++ c) : BitVec 17) = c := by
  refine (BitVec.extractLsb'_append_eq_of_add_le (by decide)).trans ?_
  exact BitVec.extractLsb'_eq_self

theorem cat_3_3_11_f1 (a : BitVec 3) (b : BitVec 3) (c : BitVec 11) : BitVec.extractLsb' 11 3 (((a ++ b) ++ c) : BitVec 17) = b := by
  refine (BitVec.extractLsb'_append_eq_of_le (by decide)).trans ?_
  refine (BitVec.extractLsb'_append_eq_of_add_le (by decide)).trans ?_
  exact BitVec.extractLsb'_eq_self

theorem cat_3_3_11_f0 (a : BitVec 3) (b : BitVec 3) (c : BitVec 11) : BitVec.extractLsb' 14 3 (((a ++ b) ++ c) : BitVec 17) = a := by
  refine (BitVec.extractLsb'_append_eq_of_le (by decide)).trans ?_
  refine (BitVec.extractLsb'_append_eq_of_le (by decide)).trans ?_
  exact BitVec.extractLsb'_eq_self

theorem cat_5_1_6_5 (a : BitVec 5) (b : BitVec 1) (c : BitVec 6) (d : BitVec 5) : BitVec.toNat ((((a ++ b) ++ c) ++ d) : BitVec 17) =
    a.toNat * 4096 + b.toNat * 2048 + c.toNat * 32 + d.toNat := by
  refine (toNat_cat ((a ++ b) ++ c) d).trans ?_
  simp only [toNat_cat]
  omega

theorem cat_5_1_6_5_f3 (a : BitVec 5) (b : BitVec 1) (c : BitVec 6) (d : BitVec 5) : BitVec.extractLsb' 0 5 ((((a ++ b) ++ c) ++ d) : BitVec 17) = d := by
  refine (BitVec.extractLsb'_append_eq_of_add_le (by decide)).trans ?_
  exact BitVec.extractLsb'_eq_self

theorem cat_5_1_6_5_f2 (a : BitVec 5) (b : BitVec 1) (c : BitVec 6) (d : BitVec 5) : BitVec.extractLsb' 5 6 ((((a ++ b) ++ c) ++ d) : BitVec 17) = c := by
  refine (BitVec.extractLsb'_append_eq_of_le (by decide)).trans ?_
  refine (BitVec.extractLsb'_append_eq_of_add_le (by decide)).trans ?_
  exact BitVec.extractLsb'_eq_self

theorem cat_5_1_6_5_f1 (a : BitVec 5) (b : BitVec 1) (c : BitVec 6) (d : BitVec 5) : BitVec.extractLsb' 11 1 ((((a ++ b) ++ c) ++ d) : BitVec 17) = b := by
  refine (BitVec.extractLsb'_append_eq_of_le (by decide)).trans ?_
  refine (BitVec.extractLsb'_append_eq_of_le (by decide)).trans ?_
  refine (BitVec.extractLsb'_append_eq_of_add_le (by decide)).trans ?_
  exact BitVec.extractLsb'_eq_self

theorem cat_8_2_7 (a : BitVec 8) (b : BitVec 2) (c : BitVec 7) : BitVec.toNat (((a ++ b) ++ c) : BitVec 17) =
    a.toNat * 512 + b.toNat * 128 + c.toNat := by
  refine (toNat_cat (a ++ b) c).trans ?_
  simp only [toNat_cat]
  omega

theorem cat_8_2_7_f2 (a : BitVec 8) (b : BitVec 2) (c : BitVec 7) : BitVec.extractLsb' 0 7 (((a ++ b) ++ c) : BitVec 17) = c := by
  refine (BitVec.extractLsb'_append_eq_of_add_le (by decide)).trans ?_
  exact BitVec.extractLsb'_eq_self

theorem cat_8_2_7_f1 (a : BitVec 8) (b : BitVec 2) (c : BitVec 7) : BitVec.extractLsb' 7 2 (((a ++ b) ++ c) : BitVec 17) = b := by
  refine (BitVec.extractLsb'_append_eq_of_le (by decide)).trans ?_
  refine (BitVec.extractLsb'_append_eq_of_add_le (by decide)).trans ?_
  exact BitVec.extractLsb'_eq_self

theorem cat_14_1_2 (a : BitVec 14) (b : BitVec 1) (c : BitVec 2) : BitVec.toNat (((a ++ b) ++ c) : BitVec 17) =
    a.toNat * 8 + b.toNat * 4 + c.toNat := by
  refine (toNat_cat (a ++ b) c).trans ?_
  simp only [toNat_cat]
  omega

theorem cat_14_1_2_f2 (a : BitVec 14) (b : BitVec 1) (c : BitVec 2) : BitVec.extractLsb' 0 2 (((a ++ b) ++ c) : BitVec 17) = c := by
  refine (BitVec.extractLsb'_append_eq_of_add_le (by decide)).trans ?_
  exact BitVec.extractLsb'_eq_self

theorem cat_14_1_2_f1 (a : BitVec 14) (b : BitVec 1) (c : BitVec 2) : BitVec.extractLsb' 2 1 (((a ++ b) ++ c) : BitVec 17) = b := by
  refine (BitVec.extractLsb'_append_eq_of_le (by decide)).trans ?_
  refine (BitVec.extractLsb'_append_eq_of_add_le (by decide)).trans ?_
  exact BitVec.extractLsb'_eq_self

theorem cat_7_8_2 (a : BitVec 7) (b : BitVec 8) (c : BitVec 2) : BitVec.toNat (((a ++ b) ++ c) : BitVec 17) =
    a.toNat * 1024 + b.toNat * 4 + c.toNat := by
  refine (toNat_cat (a ++ b) c).trans ?_
  simp only [toNat_cat]
  omega

theorem cat_7_8_2_f2 (a : BitVec 7) (b : BitVec 8) (c : BitVec 2) : BitVec.extractLsb' 0 2 (((a ++ b) ++ c) : BitVec 17) = c := by
  refine (BitVec.extractLsb'_append_eq_of_add_le (by decide)).trans ?_
  exact BitVec.extractLsb'_eq_self

theorem cat_7_8_2_f1 (a : BitVec 7) (b : BitVec 8) (c : BitVec 2) : BitVec.extractLsb' 2 8 (((a ++ b) ++ c) : BitVec 17) = b := by
  refine (BitVec.extractLsb'_append_eq_of_le (by decide)).trans ?_
  refine (BitVec.extractLsb'_append_eq_of_add_le (by decide)).trans ?_
  exact BitVec.extractLsb'_eq_self

theorem cat_4_4_3 (a : BitVec 4) (b : BitVec 4) (c : BitVec 3) : BitVec.toNat (((a ++ b) ++ c) : BitVec 11) =
    a.toNat * 128 + b.toNat * 8 + c.toNat := by
  refine (toNat_cat (a ++ b) c).trans ?_
  simp only [toNat_cat]
  omega

theorem cat_4_4_3_f2 (a : BitVec 4) (b : BitVec 4) (c : BitVec 3) : BitVec.extractLsb' 0 3 (((a ++ b) ++ c) : BitVec 11) = c := by
  refine (BitVec.extractLsb'_append_eq_of_add_le (by decide)).trans ?_
  exact BitVec.extractLsb'_eq_self

theorem cat_4_4_3_f1 (a : BitVec 4) (b : BitVec 4) (c : BitVec 3) : BitVec.extractLsb' 3 4 (((a ++ b) ++ c) : BitVec 11) = b := by
  refine (BitVec.extractLsb'_append_eq_of_le (by decide)).trans ?_
  refine (BitVec.extractLsb'_append_eq_of_add_le (by decide)).trans ?_
  exact BitVec.extractLsb'_eq_self

theorem cat_7_4 (a : BitVec 7) (b : BitVec 4) : BitVec.toNat ((a ++ b) : BitVec 11) =
    a.toNat * 16 + b.toNat := by
  refine (toNat_cat a b).trans ?_
  omega

theorem cat_7_4_f0 (a : BitVec 7) (b : BitVec 4) : BitVec.extractLsb' 4 7 ((a ++ b) : BitVec 11) = a := by
  refine (BitVec.extractLsb'_append_eq_of_le (by decide)).trans ?_
  exact BitVec.extractLsb'_eq_self

theorem cat_5_2_4 (a : BitVec 5) (b : BitVec 2) (c : BitVec 4) : BitVec.toNat (((a ++ b) ++ c) : BitVec 11) =
    a.toNat * 64 + b.toNat * 16 + c.toNat := by
  refine (toNat_cat (a ++ b) c).trans ?_
  simp only [toNat_cat]
  omega

theorem cat_5_2_4_f1 (a : BitVec 5) (b : BitVec 2) (c : BitVec 4) : BitVec.extractLsb' 4 2 (((a ++ b) ++ c) : BitVec 11) = b := by
  refine (BitVec.extractLsb'_append_eq_of_le (by decide)).trans ?_
  refine (BitVec.extractLsb'_append_eq_of_add_le (by decide)).trans ?_
  exact BitVec.extractLsb'_eq_self

theorem cat_3_1 (a : BitVec 3) (b : BitVec 1) : BitVec.toNat ((a ++ b) : BitVec 4) =
    a.toNat * 2 + b.toNat := by
  refine (toNat_cat a b).trans ?_
  omega

theorem cat_3_1_f1 (a : BitVec 3) (b : BitVec 1) : BitVec.extractLsb' 0 1 ((a ++ b) : BitVec 4) = b := by
  refine (BitVec.extractLsb'_append_eq_of_add_le (by decide)).trans ?_
  exact BitVec.extractLsb'_eq_self

theorem cat_3_1_f0 (a : BitVec 3) (b : BitVec 1) : BitVec.extractLsb' 1 3 ((a ++ b) : BitVec 4) = a := by
  refine (BitVec.extractLsb'_append_eq_of_le (by decide)).trans ?_
  exact BitVec.extractLsb'_eq_self

theorem cat_1_3_f1 (a : BitVec 1) (b : BitVec 3) : BitVec.extractLsb' 0 3 ((a ++ b) : BitVec 4) = b := by
  refine (BitVec.extractLsb'_append_eq_of_add_le (by decide)).trans ?_
  exact BitVec.extractLsb'_eq_self

theorem cat_1_3_f0 (a : BitVec 1) (b : BitVec 3) : BitVec.extractLsb' 3 1 ((a ++ b) : BitVec 4) = a := by
  refine (BitVec.extractLsb'_append_eq_of_le (by decide)).trans ?_
  exact BitVec.extractLsb'_eq_self

theorem lo4_zero : lo4 0#6 = true := rfl

theorem lo6v_four (x : BitVec 4) : lo6v (x.setWidth 11) = true := by simp [lo6v]; omega

theorem lo6v_apply (k : BitVec 2) (t : BitVec 4) : lo6v (((0#5 ++ k) ++ t) : BitVec 11) = true := by
  rw [lo6v, cat_5_2_4]
  simp; omega

theorem low_5_2_4 (a : BitVec 5) (b : BitVec 2) (c : BitVec 4) : BitVec.setWidth 4 (((a ++ b) ++ c) : BitVec 11) = c := by
  apply BitVec.eq_of_toNat_eq
  rw [BitVec.toNat_setWidth, cat_5_2_4]
  omega

theorem low_7_4 (a : BitVec 7) (b : BitVec 4) : BitVec.setWidth 4 ((a ++ b) : BitVec 11) = b := by
  apply BitVec.eq_of_toNat_eq
  rw [BitVec.toNat_setWidth, cat_7_4]
  omega

theorem bit_5_6_6 (a : BitVec 5) (b c : BitVec 6) : (((a ++ b) ++ c) : BitVec 17)[12] = a[0] := by
  refine (BitVec.getElem_append (x := a ++ b) (y := c) (by decide)).trans ?_
  exact (BitVec.getElem_append (x := a) (y := b) (by decide)).trans (by simp)

theorem cat_6_11_f0 (a : BitVec 6) (b : BitVec 11) : BitVec.extractLsb' 14 3 ((a ++ b) : BitVec 17) = a.extractLsb' 3 3 :=
  BitVec.extractLsb'_append_eq_of_le (by decide)

theorem cat_6_11_f1 (a : BitVec 6) (b : BitVec 11) : BitVec.extractLsb' 11 3 ((a ++ b) : BitVec 17) = a.extractLsb' 0 3 :=
  BitVec.extractLsb'_append_eq_of_le (by decide)

theorem cat_6_11_f2 (a : BitVec 6) (b : BitVec 11) : BitVec.extractLsb' 0 11 ((a ++ b) : BitVec 17) = b :=
  (BitVec.extractLsb'_append_eq_of_add_le (by decide)).trans BitVec.extractLsb'_eq_self

theorem join22 (x : BitVec 22) : (x.extractLsb' 11 11 ++ x.extractLsb' 0 11 : BitVec 22) = x := by
  apply BitVec.eq_of_toNat_eq
  refine (toNat_cat _ _).trans ?_
  simp only [BitVec.extractLsb'_toNat, Nat.shiftRight_eq_div_pow]
  omega

theorem join35 (x : BitVec 35) : (x.extractLsb' 29 6 ++ x.extractLsb' 23 6 ++ x.extractLsb' 17 6 ++ x.extractLsb' 0 17 : BitVec 35) = x := by
  apply BitVec.eq_of_toNat_eq
  refine (toNat_cat _ _).trans ?_
  simp only [toNat_cat, BitVec.extractLsb'_toNat, Nat.shiftRight_eq_div_pow]
  omega

end Sys2Proof

set_option Elab.async false
namespace Sys2Proof.Laws.Encode

open Sys2Proof Sys2Proof.Machine

def Statement (i : Instr) : Prop := i.wf = true → ∀ w, encode i = some w → decode w = .ok i

theorem ofNone {i : Instr} (h : encode i = none) : Statement i := by
  intro _ w hw; rw [h] at hw; cases hw

theorem ofS {i : Instr} {f : SFields} (hs : encodeSFields i = some f)
    (h : i.wf = true → decodeSFields (6 ≤ f.op.toNat / 16 && f.op.toNat / 16 ≤ 9) f = some i) : Statement i := by
  intro wf w hw
  simp only [encode, hs, Option.some.injEq] at hw
  subst hw
  simp only [decode, decodeS, unpackS_packS, h wf]

theorem ofV {i : Instr} {f : VFields} (hs : encodeSFields i = none) (hv : encodeVFields i = some f)
    (h : i.wf = true → decodeVFields f = some i) : Statement i := by
  intro wf w hw
  simp only [encode, hs, hv, Option.some.injEq] at hw
  subst hw
  simp only [decode, decodeV, unpackV_packV, h wf]

theorem ofM {i : Instr} {f : MFields} (hs : encodeSFields i = none) (hv : encodeVFields i = none) (hm : encodeMFields i = some f)
    (h : i.wf = true → decodeMFields f = some i) : Statement i := by
  intro wf w hw
  simp only [encode, hs, hv, hm, Option.some.injEq] at hw
  subst hw
  simp only [decode, decodeM, unpackM_packM, h wf]

theorem ofX {i : Instr} {f : XFields} (hs : encodeSFields i = none) (hv : encodeVFields i = none) (hm : encodeMFields i = none)
    (hx : encodeXFields i = some f) (h : i.wf = true → decodeXFields f = some i) : Statement i := by
  intro wf w hw
  simp only [encode, hs, hv, hm, hx, Option.some.injEq] at hw
  subst hw
  simp only [decode, decodeX, unpackX_packX, h wf]

theorem ofC {i : Instr} {f : CFields} (hs : encodeSFields i = none) (hv : encodeVFields i = none) (hm : encodeMFields i = none)
    (hx : encodeXFields i = none) (hc : encodeCFields i = some f) (h : i.wf = true → decodeCFields f = some i) : Statement i := by
  intro wf w hw
  simp only [encode, hs, hv, hm, hx, hc, Option.some.injEq] at hw
  subst hw
  simp only [decode, decodeC, unpackC_packC, h wf]

theorem pop (mask : BitVec 16) : Statement (.pop mask) := ofNone rfl

theorem gap (n : BitVec 4) : Statement (.gap n) := ofNone rfl

theorem crit (mask : BitVec 4) : Statement (.crit mask) := ofNone rfl

theorem nop : Statement .nop := by
  refine ofS rfl ?_
  intro _
  simp [SFields.of, decodeSFields, decodeSRow0]

theorem add (g : Guard) (d : BitVec 6) (a : BitVec 6) (b : BitVec 6) : Statement (.add g d a b) := by
  refine ofS rfl ?_
  intro _
  simp [SFields.of, decodeSFields, decodeSRow0]

theorem addi (g : Guard) (d : BitVec 6) (a : BitVec 6) (imm : BitVec 17) : Statement (.addi g d a imm) := by
  refine ofS rfl ?_
  intro _
  simp [SFields.of, decodeSFields, decodeSRow0]

theorem sub (g : Guard) (d : BitVec 6) (a : BitVec 6) (b : BitVec 6) : Statement (.sub g d a b) := by
  refine ofS rfl ?_
  intro _
  simp [SFields.of, decodeSFields, decodeSRow0]

theorem mul (g : Guard) (d : BitVec 6) (a : BitVec 6) (b : BitVec 6) : Statement (.mul g d a b) := by
  refine ofS rfl ?_
  intro _
  simp [SFields.of, decodeSFields, decodeSRow0]

theorem mulh (g : Guard) (d : BitVec 6) (a : BitVec 6) (b : BitVec 6) : Statement (.mulh g d a b) := by
  refine ofS rfl ?_
  intro _
  simp [SFields.of, decodeSFields, decodeSRow0]

theorem mulhu (g : Guard) (d : BitVec 6) (a : BitVec 6) (b : BitVec 6) : Statement (.mulhu g d a b) := by
  refine ofS rfl ?_
  intro _
  simp [SFields.of, decodeSFields, decodeSRow0]

theorem div (g : Guard) (d : BitVec 6) (a : BitVec 6) (b : BitVec 6) : Statement (.div g d a b) := by
  refine ofS rfl ?_
  intro _
  simp [SFields.of, decodeSFields, decodeSRow0]

theorem divu (g : Guard) (d : BitVec 6) (a : BitVec 6) (b : BitVec 6) : Statement (.divu g d a b) := by
  refine ofS rfl ?_
  intro _
  simp [SFields.of, decodeSFields, decodeSRow0]

theorem rem (g : Guard) (d : BitVec 6) (a : BitVec 6) (b : BitVec 6) : Statement (.rem g d a b) := by
  refine ofS rfl ?_
  intro _
  simp [SFields.of, decodeSFields, decodeSRow0]

theorem remu (g : Guard) (d : BitVec 6) (a : BitVec 6) (b : BitVec 6) : Statement (.remu g d a b) := by
  refine ofS rfl ?_
  intro _
  simp [SFields.of, decodeSFields, decodeSRow0]

theorem and (g : Guard) (d : BitVec 6) (a : BitVec 6) (b : BitVec 6) : Statement (.and g d a b) := by
  refine ofS rfl ?_
  intro _
  simp [SFields.of, decodeSFields, decodeSRow0]

theorem or (g : Guard) (d : BitVec 6) (a : BitVec 6) (b : BitVec 6) : Statement (.or g d a b) := by
  refine ofS rfl ?_
  intro _
  simp [SFields.of, decodeSFields, decodeSRow0]

theorem xor (g : Guard) (d : BitVec 6) (a : BitVec 6) (b : BitVec 6) : Statement (.xor g d a b) := by
  refine ofS rfl ?_
  intro _
  simp [SFields.of, decodeSFields, decodeSRow0]

theorem andi (g : Guard) (d : BitVec 6) (a : BitVec 6) (imm : BitVec 17) : Statement (.andi g d a imm) := by
  refine ofS rfl ?_
  intro _
  simp [SFields.of, decodeSFields, decodeSRow0]

theorem ori (g : Guard) (d : BitVec 6) (a : BitVec 6) (imm : BitVec 17) : Statement (.ori g d a imm) := by
  refine ofS rfl ?_
  intro _
  simp [SFields.of, decodeSFields, decodeSRow0]

theorem xori (g : Guard) (d : BitVec 6) (a : BitVec 6) (imm : BitVec 17) : Statement (.xori g d a imm) := by
  refine ofS rfl ?_
  intro _
  simp [SFields.of, decodeSFields, decodeSRow1]

theorem shl (g : Guard) (d : BitVec 6) (a : BitVec 6) (b : BitVec 6) : Statement (.shl g d a b) := by
  refine ofS rfl ?_
  intro _
  simp [SFields.of, decodeSFields, decodeSRow1]

theorem shr (g : Guard) (d : BitVec 6) (a : BitVec 6) (b : BitVec 6) : Statement (.shr g d a b) := by
  refine ofS rfl ?_
  intro _
  simp [SFields.of, decodeSFields, decodeSRow1]

theorem sar (g : Guard) (d : BitVec 6) (a : BitVec 6) (b : BitVec 6) : Statement (.sar g d a b) := by
  refine ofS rfl ?_
  intro _
  simp [SFields.of, decodeSFields, decodeSRow1]

theorem shli (g : Guard) (d : BitVec 6) (a : BitVec 6) (cnt : BitVec 6) : Statement (.shli g d a cnt) := by
  refine ofS rfl ?_
  intro _
  simp [SFields.of, decodeSFields, decodeSRow1] <;> omega

theorem shri (g : Guard) (d : BitVec 6) (a : BitVec 6) (cnt : BitVec 6) : Statement (.shri g d a cnt) := by
  refine ofS rfl ?_
  intro _
  simp [SFields.of, decodeSFields, decodeSRow1] <;> omega

theorem sari (g : Guard) (d : BitVec 6) (a : BitVec 6) (cnt : BitVec 6) : Statement (.sari g d a cnt) := by
  refine ofS rfl ?_
  intro _
  simp [SFields.of, decodeSFields, decodeSRow1] <;> omega

theorem min (g : Guard) (d : BitVec 6) (a : BitVec 6) (b : BitVec 6) : Statement (.min g d a b) := by
  refine ofS rfl ?_
  intro _
  simp [SFields.of, decodeSFields, decodeSRow1]

theorem max (g : Guard) (d : BitVec 6) (a : BitVec 6) (b : BitVec 6) : Statement (.max g d a b) := by
  refine ofS rfl ?_
  intro _
  simp [SFields.of, decodeSFields, decodeSRow1]

theorem minu (g : Guard) (d : BitVec 6) (a : BitVec 6) (b : BitVec 6) : Statement (.minu g d a b) := by
  refine ofS rfl ?_
  intro _
  simp [SFields.of, decodeSFields, decodeSRow1]

theorem maxu (g : Guard) (d : BitVec 6) (a : BitVec 6) (b : BitVec 6) : Statement (.maxu g d a b) := by
  refine ofS rfl ?_
  intro _
  simp [SFields.of, decodeSFields, decodeSRow1]

theorem clz (g : Guard) (d : BitVec 6) (a : BitVec 6) : Statement (.clz g d a) := by
  refine ofS rfl ?_
  intro _
  simp [SFields.of, decodeSFields, decodeSRow1]

theorem popc (g : Guard) (d : BitVec 6) (a : BitVec 6) : Statement (.popc g d a) := by
  refine ofS rfl ?_
  intro _
  simp [SFields.of, decodeSFields, decodeSRow1]

theorem movi (g : Guard) (d : BitVec 6) (imm : BitVec 17) : Statement (.movi g d imm) := by
  refine ofS rfl ?_
  intro _
  simp [SFields.of, decodeSFields, decodeSRow1]

theorem movk (g : Guard) (d : BitVec 6) (imm : BitVec 16) (hw : BitVec 2) : Statement (.movk g d imm hw) := by
  refine ofS rfl ?_
  intro _
  simp [SFields.of, decodeSFields, decodeSRow1] <;> omega

theorem sel (g : Guard) (d : BitVec 6) (pc : BitVec 4) (a : BitVec 6) (b : BitVec 6) : Statement (.sel g d pc a b) := by
  refine ofS rfl ?_
  intro _
  simp [SFields.of, decodeSFields, decodeSRow1] <;> omega

theorem ceq (g : Guard) (pd : BitVec 4) (a : BitVec 6) (b : BitVec 6) : Statement (.ceq g pd a b) := by
  refine ofS rfl ?_
  intro _
  simp [SFields.of, decodeSFields, decodeSRow2, lo4_wide]

theorem cne (g : Guard) (pd : BitVec 4) (a : BitVec 6) (b : BitVec 6) : Statement (.cne g pd a b) := by
  refine ofS rfl ?_
  intro _
  simp [SFields.of, decodeSFields, decodeSRow2, lo4_wide]

theorem clt (g : Guard) (pd : BitVec 4) (a : BitVec 6) (b : BitVec 6) : Statement (.clt g pd a b) := by
  refine ofS rfl ?_
  intro _
  simp [SFields.of, decodeSFields, decodeSRow2, lo4_wide]

theorem cle (g : Guard) (pd : BitVec 4) (a : BitVec 6) (b : BitVec 6) : Statement (.cle g pd a b) := by
  refine ofS rfl ?_
  intro _
  simp [SFields.of, decodeSFields, decodeSRow2, lo4_wide]

theorem cltu (g : Guard) (pd : BitVec 4) (a : BitVec 6) (b : BitVec 6) : Statement (.cltu g pd a b) := by
  refine ofS rfl ?_
  intro _
  simp [SFields.of, decodeSFields, decodeSRow2, lo4_wide]

theorem cleu (g : Guard) (pd : BitVec 4) (a : BitVec 6) (b : BitVec 6) : Statement (.cleu g pd a b) := by
  refine ofS rfl ?_
  intro _
  simp [SFields.of, decodeSFields, decodeSRow2, lo4_wide]

theorem ceqi (g : Guard) (pd : BitVec 4) (a : BitVec 6) (imm : BitVec 17) : Statement (.ceqi g pd a imm) := by
  refine ofS rfl ?_
  intro _
  simp [SFields.of, decodeSFields, decodeSRow2, lo4_wide]

theorem clti (g : Guard) (pd : BitVec 4) (a : BitVec 6) (imm : BitVec 17) : Statement (.clti g pd a imm) := by
  refine ofS rfl ?_
  intro _
  simp [SFields.of, decodeSFields, decodeSRow2, lo4_wide]

theorem pand (g : Guard) (pd : BitVec 4) (pa : BitVec 4) (pb : BitVec 4) : Statement (.pand g pd pa pb) := by
  refine ofS rfl ?_
  intro _
  simp [SFields.of, decodeSFields, decodeSRow2, lo4_wide]

theorem por (g : Guard) (pd : BitVec 4) (pa : BitVec 4) (pb : BitVec 4) : Statement (.por g pd pa pb) := by
  refine ofS rfl ?_
  intro _
  simp [SFields.of, decodeSFields, decodeSRow2, lo4_wide]

theorem pxor (g : Guard) (pd : BitVec 4) (pa : BitVec 4) (pb : BitVec 4) : Statement (.pxor g pd pa pb) := by
  refine ofS rfl ?_
  intro _
  simp [SFields.of, decodeSFields, decodeSRow2, lo4_wide]

theorem pnot (g : Guard) (pd : BitVec 4) (pa : BitVec 4) : Statement (.pnot g pd pa) := by
  refine ofS rfl ?_
  intro _
  simp [SFields.of, decodeSFields, decodeSRow2, lo4_wide]

theorem pset (g : Guard) (pd : BitVec 4) (n : BitVec 9) : Statement (.pset g pd n) := by
  refine ofS rfl ?_
  intro h
  simp_all [Instr.wf, SFields.of, decodeSFields, decodeSRow2, lo4_wide] <;> omega

theorem pany (g : Guard) (pd : BitVec 4) (pa : BitVec 4) : Statement (.pany g pd pa) := by
  refine ofS rfl ?_
  intro _
  simp [SFields.of, decodeSFields, decodeSRow2, lo4_wide]

theorem ext (g : Guard) (d : BitVec 6) (a : BitVec 6) (fpos : BitVec 6) (len : BitVec 6) : Statement (.ext g d a fpos len) := by
  refine ofS rfl ?_
  intro h
  simp_all [Instr.wf, SFields.of, decodeSFields, decodeSRow2, cat_5_6_6, cat_5_6_6_f2, cat_5_6_6_f1, bit_5_6_6] <;> omega

theorem extS (g : Guard) (d : BitVec 6) (a : BitVec 6) (fpos : BitVec 6) (len : BitVec 6) : Statement (.extS g d a fpos len) := by
  refine ofS rfl ?_
  intro h
  simp_all [Instr.wf, SFields.of, decodeSFields, decodeSRow2, cat_5_6_6, cat_5_6_6_f2, cat_5_6_6_f1, bit_5_6_6] <;> omega

theorem ins (g : Guard) (d : BitVec 6) (a : BitVec 6) (fpos : BitVec 6) (len : BitVec 6) : Statement (.ins g d a fpos len) := by
  refine ofS rfl ?_
  intro h
  simp_all [Instr.wf, SFields.of, decodeSFields, decodeSRow2, cat_5_6_6, cat_5_6_6_f2, cat_5_6_6_f1] <;> omega

theorem adda (g : Guard) (ad : BitVec 4) (aa : BitVec 4) (b : BitVec 6) : Statement (.adda g ad aa b) := by
  refine ofS rfl ?_
  intro _
  simp [SFields.of, decodeSFields, decodeSRow3, lo4_wide]

theorem addai (g : Guard) (ad : BitVec 4) (aa : BitVec 4) (imm : BitVec 17) : Statement (.addai g ad aa imm) := by
  refine ofS rfl ?_
  intro _
  simp [SFields.of, decodeSFields, decodeSRow3, lo4_wide]

theorem mova (g : Guard) (ad : BitVec 4) (a : BitVec 6) : Statement (.mova g ad a) := by
  refine ofS rfl ?_
  intro _
  simp [SFields.of, decodeSFields, decodeSRow3, lo4_wide]

theorem movah (g : Guard) (ad : BitVec 4) (a : BitVec 6) : Statement (.movah g ad a) := by
  refine ofS rfl ?_
  intro _
  simp [SFields.of, decodeSFields, decodeSRow3, lo4_wide]

theorem rda (g : Guard) (d : BitVec 6) (aa : BitVec 4) : Statement (.rda g d aa) := by
  refine ofS rfl ?_
  intro _
  simp [SFields.of, decodeSFields, decodeSRow3, lo4_wide]

theorem rdah (g : Guard) (d : BitVec 6) (aa : BitVec 4) : Statement (.rdah g d aa) := by
  refine ofS rfl ?_
  intro _
  simp [SFields.of, decodeSFields, decodeSRow3, lo4_wide]

theorem ceqa (g : Guard) (pd : BitVec 4) (aa : BitVec 4) (ab : BitVec 4) : Statement (.ceqa g pd aa ab) := by
  refine ofS rfl ?_
  intro _
  simp [SFields.of, decodeSFields, decodeSRow3, lo4_wide]

theorem suba (g : Guard) (d : BitVec 6) (aa : BitVec 4) (ab : BitVec 4) : Statement (.suba g d aa ab) := by
  refine ofS rfl ?_
  intro _
  simp [SFields.of, decodeSFields, decodeSRow3, lo4_wide]

theorem qrd (g : Guard) (d : BitVec 6) (n : BitVec 4) (w : BitVec 5) : Statement (.qrd g d n w) := by
  refine ofS rfl ?_
  intro _
  simp [SFields.of, decodeSFields, decodeSRow3, lo4_wide] <;> omega

theorem br (g : Guard) (off : BitVec 35) : Statement (.br g off) := by
  refine ofS rfl ?_
  intro _
  simp [SFields.of, decodeSFields, decodeSRow4, join35]

theorem jmp (g : Guard) (a : BitVec 6) : Statement (.jmp g a) := by
  refine ofS rfl ?_
  intro _
  simp [SFields.of, decodeSFields, decodeSRow4]

theorem call (g : Guard) (off : BitVec 35) : Statement (.call g off) := by
  refine ofS rfl ?_
  intro _
  simp [SFields.of, decodeSFields, decodeSRow4, join35]

theorem calli (g : Guard) (a : BitVec 6) : Statement (.calli g a) := by
  refine ofS rfl ?_
  intro _
  simp [SFields.of, decodeSFields, decodeSRow4]

theorem ret (g : Guard) : Statement (.ret g) := by
  refine ofS rfl ?_
  intro _
  simp [SFields.of, decodeSFields, decodeSRow4]

theorem loop (g : Guard) (off : BitVec 35) : Statement (.loop g off) := by
  refine ofS rfl ?_
  intro _
  simp [SFields.of, decodeSFields, decodeSRow4, join35]

theorem spec (g : Guard) (imm : BitVec 17) : Statement (.spec g imm) := by
  refine ofS rfl ?_
  intro _
  simp [SFields.of, decodeSFields, decodeSRow4]

theorem spok (g : Guard) (pa : BitVec 4) : Statement (.spok g pa) := by
  refine ofS rfl ?_
  intro _
  simp [SFields.of, decodeSFields, decodeSRow4, lo4_wide]

theorem waits (g : Guard) (n : BitVec 8) (t : BitVec 8) : Statement (.waits g n t) := by
  refine ofS rfl ?_
  intro _
  simp [SFields.of, decodeSFields, decodeSRow4, cat_1_8_8, cat_1_8_8_f2, cat_1_8_8_f1] <;> omega

theorem sigs (g : Guard) (n : BitVec 8) (i : BitVec 8) : Statement (.sigs g n i) := by
  refine ofS rfl ?_
  intro _
  simp [SFields.of, decodeSFields, decodeSRow4, cat_1_8_8, cat_1_8_8_f2, cat_1_8_8_f1] <;> omega

theorem semset (g : Guard) (a : BitVec 6) (n : BitVec 8) : Statement (.semset g a n) := by
  refine ofS rfl ?_
  intro _
  simp [SFields.of, decodeSFields, decodeSRow4] <;> omega

theorem semrd (g : Guard) (d : BitVec 6) (n : BitVec 8) : Statement (.semrd g d n) := by
  refine ofS rfl ?_
  intro _
  simp [SFields.of, decodeSFields, decodeSRow4] <;> omega

theorem retire (g : Guard) : Statement (.retire g) := by
  refine ofS rfl ?_
  intro _
  simp [SFields.of, decodeSFields, decodeSRow4]

theorem retireFail (g : Guard) (cause : BitVec 8) : Statement (.retireFail g cause) := by
  refine ofS rfl ?_
  intro _
  have h : (256 + cause.toNat) >>> 8 % 4 = 1 := by
    have := cause.isLt
    rw [Nat.shiftRight_eq_div_pow]
    omega
  simp [SFields.of, decodeSFields, decodeSRow4, cat_9_8, cat_9_8_f1, h]
  omega

theorem retireRequeue (g : Guard) : Statement (.retireRequeue g) := by
  refine ofS rfl ?_
  intro _
  simp [SFields.of, decodeSFields, decodeSRow4]

theorem rest (g : Guard) : Statement (.rest g) := by
  refine ofS rfl ?_
  intro _
  simp [SFields.of, decodeSFields, decodeSRow4]

theorem yield (g : Guard) : Statement (.yield g) := by
  refine ofS rfl ?_
  intro _
  simp [SFields.of, decodeSFields, decodeSRow4]

theorem trap (g : Guard) (imm : BitVec 17) : Statement (.trap g imm) := by
  refine ofS rfl ?_
  intro _
  simp [SFields.of, decodeSFields, decodeSRow4]

theorem uiret (g : Guard) : Statement (.uiret g) := by
  refine ofS rfl ?_
  intro _
  simp [SFields.of, decodeSFields, decodeSRow5]

theorem phase (g : Guard) (a : BitVec 6) : Statement (.phase g a) := by
  refine ofS rfl ?_
  intro _
  simp [SFields.of, decodeSFields, decodeSRow5]

theorem ldB (g : Guard) (d : BitVec 6) (aa : BitVec 4) (imm : BitVec 17) : Statement (.ldB g d aa imm) := by
  refine ofS rfl ?_
  intro _
  simp [SFields.of, decodeSFields, decodeSRow6, lo4_wide]

theorem ldBu (g : Guard) (d : BitVec 6) (aa : BitVec 4) (imm : BitVec 17) : Statement (.ldBu g d aa imm) := by
  refine ofS rfl ?_
  intro _
  simp [SFields.of, decodeSFields, decodeSRow6, lo4_wide]

theorem ldH (g : Guard) (d : BitVec 6) (aa : BitVec 4) (imm : BitVec 17) : Statement (.ldH g d aa imm) := by
  refine ofS rfl ?_
  intro _
  simp [SFields.of, decodeSFields, decodeSRow6, lo4_wide]

theorem ldHu (g : Guard) (d : BitVec 6) (aa : BitVec 4) (imm : BitVec 17) : Statement (.ldHu g d aa imm) := by
  refine ofS rfl ?_
  intro _
  simp [SFields.of, decodeSFields, decodeSRow6, lo4_wide]

theorem ldW (g : Guard) (d : BitVec 6) (aa : BitVec 4) (imm : BitVec 17) : Statement (.ldW g d aa imm) := by
  refine ofS rfl ?_
  intro _
  simp [SFields.of, decodeSFields, decodeSRow6, lo4_wide]

theorem ldWu (g : Guard) (d : BitVec 6) (aa : BitVec 4) (imm : BitVec 17) : Statement (.ldWu g d aa imm) := by
  refine ofS rfl ?_
  intro _
  simp [SFields.of, decodeSFields, decodeSRow6, lo4_wide]

theorem ldD (g : Guard) (d : BitVec 6) (aa : BitVec 4) (imm : BitVec 17) : Statement (.ldD g d aa imm) := by
  refine ofS rfl ?_
  intro _
  simp [SFields.of, decodeSFields, decodeSRow6, lo4_wide]

theorem stB (g : Guard) (aa : BitVec 4) (b : BitVec 6) (imm : BitVec 17) : Statement (.stB g aa b imm) := by
  refine ofS rfl ?_
  intro _
  simp [SFields.of, decodeSFields, decodeSRow6, lo4_wide]

theorem stH (g : Guard) (aa : BitVec 4) (b : BitVec 6) (imm : BitVec 17) : Statement (.stH g aa b imm) := by
  refine ofS rfl ?_
  intro _
  simp [SFields.of, decodeSFields, decodeSRow6, lo4_wide]

theorem stW (g : Guard) (aa : BitVec 4) (b : BitVec 6) (imm : BitVec 17) : Statement (.stW g aa b imm) := by
  refine ofS rfl ?_
  intro _
  simp [SFields.of, decodeSFields, decodeSRow6, lo4_wide]

theorem stD (g : Guard) (aa : BitVec 4) (b : BitVec 6) (imm : BitVec 17) : Statement (.stD g aa b imm) := by
  refine ofS rfl ?_
  intro _
  simp [SFields.of, decodeSFields, decodeSRow6, lo4_wide]

theorem ldaD (g : Guard) (d : BitVec 6) (aa : BitVec 4) (scope : BitVec 3) (off : BitVec 11) : Statement (.ldaD g d aa scope off) := by
  refine ofS rfl ?_
  intro h
  simp_all [Instr.wf, SFields.of, decodeSFields, decodeSRow6, lo4_wide, cat_3_3_11_f2, cat_3_3_11_f1, cat_3_3_11_f0] <;> omega

theorem stlD (g : Guard) (aa : BitVec 4) (b : BitVec 6) (scope : BitVec 3) (off : BitVec 11) : Statement (.stlD g aa b scope off) := by
  refine ofS rfl ?_
  intro h
  simp_all [Instr.wf, SFields.of, decodeSFields, decodeSRow6, lo4_wide, cat_3_3_11_f2, cat_3_3_11_f1, cat_3_3_11_f0] <;> omega

theorem ldscD (g : Guard) (d : BitVec 6) (aa : BitVec 4) (off : BitVec 11) : Statement (.ldscD g d aa off) := by
  refine ofS rfl ?_
  intro _
  simp [SFields.of, decodeSFields, decodeSRow6, lo4_wide, cat_6_11_f0, cat_6_11_f1, cat_6_11_f2]

theorem stscD (g : Guard) (aa : BitVec 4) (b : BitVec 6) (off : BitVec 11) : Statement (.stscD g aa b off) := by
  refine ofS rfl ?_
  intro _
  simp [SFields.of, decodeSFields, decodeSRow6, lo4_wide, cat_6_11_f0, cat_6_11_f1, cat_6_11_f2]

theorem pref (g : Guard) (aa : BitVec 4) (imm : BitVec 17) : Statement (.pref g aa imm) := by
  refine ofS rfl ?_
  intro _
  simp [SFields.of, decodeSFields, decodeSRow6, lo4_wide]

theorem ldsW (g : Guard) (d : BitVec 6) (a : BitVec 6) (imm : BitVec 17) : Statement (.ldsW g d a imm) := by
  refine ofS rfl ?_
  intro _
  simp [SFields.of, decodeSFields, decodeSRow7]

theorem ldsD (g : Guard) (d : BitVec 6) (a : BitVec 6) (imm : BitVec 17) : Statement (.ldsD g d a imm) := by
  refine ofS rfl ?_
  intro _
  simp [SFields.of, decodeSFields, decodeSRow7]

theorem stsW (g : Guard) (a : BitVec 6) (b : BitVec 6) (imm : BitVec 17) : Statement (.stsW g a b imm) := by
  refine ofS rfl ?_
  intro _
  simp [SFields.of, decodeSFields, decodeSRow7]

theorem stsD (g : Guard) (a : BitVec 6) (b : BitVec 6) (imm : BitVec 17) : Statement (.stsD g a b imm) := by
  refine ofS rfl ?_
  intro _
  simp [SFields.of, decodeSFields, decodeSRow7]

theorem aadd (g : Guard) (d : BitVec 6) (aa : BitVec 4) (b : BitVec 6) (ord : BitVec 3) (scope : BitVec 3) (off : BitVec 11) : Statement (.aadd g d aa b ord scope off) := by
  refine ofS rfl ?_
  intro h
  simp_all [Instr.wf, SFields.of, decodeSFields, decodeSRow7, lo4_wide, cat_3_3_11_f2, cat_3_3_11_f1, cat_3_3_11_f0]

theorem aand (g : Guard) (d : BitVec 6) (aa : BitVec 4) (b : BitVec 6) (ord : BitVec 3) (scope : BitVec 3) (off : BitVec 11) : Statement (.aand g d aa b ord scope off) := by
  refine ofS rfl ?_
  intro h
  simp_all [Instr.wf, SFields.of, decodeSFields, decodeSRow7, lo4_wide, cat_3_3_11_f2, cat_3_3_11_f1, cat_3_3_11_f0]

theorem aor (g : Guard) (d : BitVec 6) (aa : BitVec 4) (b : BitVec 6) (ord : BitVec 3) (scope : BitVec 3) (off : BitVec 11) : Statement (.aor g d aa b ord scope off) := by
  refine ofS rfl ?_
  intro h
  simp_all [Instr.wf, SFields.of, decodeSFields, decodeSRow7, lo4_wide, cat_3_3_11_f2, cat_3_3_11_f1, cat_3_3_11_f0]

theorem axor (g : Guard) (d : BitVec 6) (aa : BitVec 4) (b : BitVec 6) (ord : BitVec 3) (scope : BitVec 3) (off : BitVec 11) : Statement (.axor g d aa b ord scope off) := by
  refine ofS rfl ?_
  intro h
  simp_all [Instr.wf, SFields.of, decodeSFields, decodeSRow7, lo4_wide, cat_3_3_11_f2, cat_3_3_11_f1, cat_3_3_11_f0]

theorem amin (g : Guard) (d : BitVec 6) (aa : BitVec 4) (b : BitVec 6) (ord : BitVec 3) (scope : BitVec 3) (off : BitVec 11) : Statement (.amin g d aa b ord scope off) := by
  refine ofS rfl ?_
  intro h
  simp_all [Instr.wf, SFields.of, decodeSFields, decodeSRow7, lo4_wide, cat_3_3_11_f2, cat_3_3_11_f1, cat_3_3_11_f0]

theorem amax (g : Guard) (d : BitVec 6) (aa : BitVec 4) (b : BitVec 6) (ord : BitVec 3) (scope : BitVec 3) (off : BitVec 11) : Statement (.amax g d aa b ord scope off) := by
  refine ofS rfl ?_
  intro h
  simp_all [Instr.wf, SFields.of, decodeSFields, decodeSRow7, lo4_wide, cat_3_3_11_f2, cat_3_3_11_f1, cat_3_3_11_f0]

theorem axchg (g : Guard) (d : BitVec 6) (aa : BitVec 4) (b : BitVec 6) (ord : BitVec 3) (scope : BitVec 3) (off : BitVec 11) : Statement (.axchg g d aa b ord scope off) := by
  refine ofS rfl ?_
  intro h
  simp_all [Instr.wf, SFields.of, decodeSFields, decodeSRow7, lo4_wide, cat_3_3_11_f2, cat_3_3_11_f1, cat_3_3_11_f0]

theorem acas (g : Guard) (d : BitVec 6) (aa : BitVec 4) (b : BitVec 6) (ord : BitVec 3) (scope : BitVec 3) (off : BitVec 11) : Statement (.acas g d aa b ord scope off) := by
  refine ofS rfl ?_
  intro h
  simp_all [Instr.wf, SFields.of, decodeSFields, decodeSRow7, lo4_wide, cat_3_3_11_f2, cat_3_3_11_f1, cat_3_3_11_f0]

theorem fence (g : Guard) (ord : BitVec 3) (scope : BitVec 3) : Statement (.fence g ord scope) := by
  refine ofS rfl ?_
  intro h
  simp_all [Instr.wf, SFields.of, decodeSFields, decodeSRow7, cat_3_3_11_f2, cat_3_3_11_f1, cat_3_3_11_f0]

theorem lsmark (g : Guard) : Statement (.lsmark g) := by
  refine ofS rfl ?_
  intro _
  simp [SFields.of, decodeSFields, decodeSRow7]

theorem efence (g : Guard) : Statement (.efence g) := by
  refine ofS rfl ?_
  intro _
  simp [SFields.of, decodeSFields, decodeSRow7]

theorem qbind (g : Guard) (n : BitVec 4) (aa : BitVec 4) : Statement (.qbind g n aa) := by
  refine ofS rfl ?_
  intro _
  simp [SFields.of, decodeSFields, decodeSRow8, lo4_wide]

theorem qunb (g : Guard) (n : BitVec 4) : Statement (.qunb g n) := by
  refine ofS rfl ?_
  intro _
  simp [SFields.of, decodeSFields, decodeSRow8, lo4_wide]

theorem enq (g : Guard) (aa : BitVec 4) (b : BitVec 6) : Statement (.enq g aa b) := by
  refine ofS rfl ?_
  intro _
  simp [SFields.of, decodeSFields, decodeSRow8, lo4_wide]

theorem deq (g : Guard) (d : BitVec 6) (aa : BitVec 4) : Statement (.deq g d aa) := by
  refine ofS rfl ?_
  intro _
  simp [SFields.of, decodeSFields, decodeSRow8, lo4_wide]

theorem enqt (g : Guard) (aa : BitVec 4) (b : BitVec 6) : Statement (.enqt g aa b) := by
  refine ofS rfl ?_
  intro _
  simp [SFields.of, decodeSFields, decodeSRow8, lo4_wide]

theorem deqt (g : Guard) (d : BitVec 6) (aa : BitVec 4) (b : BitVec 6) : Statement (.deqt g d aa b) := by
  refine ofS rfl ?_
  intro _
  simp [SFields.of, decodeSFields, decodeSRow8, lo4_wide]

theorem qinit (g : Guard) (aa : BitVec 4) (ab : BitVec 4) (logCap : BitVec 5) (esz : BitVec 6) (md : BitVec 1) : Statement (.qinit g aa ab logCap esz md) := by
  refine ofS rfl ?_
  intro _
  simp [SFields.of, decodeSFields, decodeSRow8, lo4_wide, cat_5_1_6_5, cat_5_1_6_5_f3, cat_5_1_6_5_f2, cat_5_1_6_5_f1] <;> omega

theorem join (g : Guard) (aa : BitVec 4) : Statement (.join g aa) := by
  refine ofS rfl ?_
  intro _
  simp [SFields.of, decodeSFields, decodeSRow8, lo4_wide]

theorem leave (g : Guard) (aa : BitVec 4) : Statement (.leave g aa) := by
  refine ofS rfl ?_
  intro _
  simp [SFields.of, decodeSFields, decodeSRow8, lo4_wide]

theorem gbar (g : Guard) (aa : BitVec 4) : Statement (.gbar g aa) := by
  refine ofS rfl ?_
  intro _
  simp [SFields.of, decodeSFields, decodeSRow8, lo4_wide]

theorem gcount (g : Guard) (d : BitVec 6) (aa : BitVec 4) : Statement (.gcount g d aa) := by
  refine ofS rfl ?_
  intro _
  simp [SFields.of, decodeSFields, decodeSRow8, lo4_wide]

theorem spawn (g : Guard) (aa : BitVec 4) : Statement (.spawn g aa) := by
  refine ofS rfl ?_
  intro _
  simp [SFields.of, decodeSFields, decodeSRow8, lo4_wide]

theorem jdec (g : Guard) (aa : BitVec 4) : Statement (.jdec g aa) := by
  refine ofS rfl ?_
  intro _
  simp [SFields.of, decodeSFields, decodeSRow8, lo4_wide]

theorem cdset (g : Guard) (n : BitVec 5) (a : BitVec 6) (off : BitVec 7) (sz : BitVec 2) : Statement (.cdset g n a off sz) := by
  refine ofS rfl ?_
  intro h
  simp_all [Instr.wf, SFields.of, decodeSFields, decodeSRow9, cat_8_2_7, cat_8_2_7_f2, cat_8_2_7_f1] <;> omega

theorem cdadr (g : Guard) (n : BitVec 5) (aa : BitVec 4) (off : BitVec 7) : Statement (.cdadr g n aa off) := by
  refine ofS rfl ?_
  intro h
  simp_all [Instr.wf, SFields.of, decodeSFields, decodeSRow9, lo4_wide] <;> omega

theorem cdrd (g : Guard) (d : BitVec 6) (n : BitVec 5) (off : BitVec 7) (sz : BitVec 2) : Statement (.cdrd g d n off sz) := by
  refine ofS rfl ?_
  intro h
  simp_all [Instr.wf, SFields.of, decodeSFields, decodeSRow9, cat_8_2_7, cat_8_2_7_f2, cat_8_2_7_f1] <;> omega

theorem cdld (g : Guard) (n : BitVec 5) (aa : BitVec 4) (imm : BitVec 17) : Statement (.cdld g n aa imm) := by
  refine ofS rfl ?_
  intro _
  simp [SFields.of, decodeSFields, decodeSRow9, lo4_wide] <;> omega

theorem tcfg (g : Guard) (t : BitVec 4) (a : BitVec 6) : Statement (.tcfg g t a) := by
  refine ofS rfl ?_
  intro _
  simp [SFields.of, decodeSFields, decodeSRow9, lo4_wide]

theorem trd (g : Guard) (d : BitVec 6) (t : BitVec 4) : Statement (.trd g d t) := by
  refine ofS rfl ?_
  intro _
  simp [SFields.of, decodeSFields, decodeSRow9, lo4_wide]

theorem csrr (g : Guard) (d : BitVec 6) (idx : BitVec 12) : Statement (.csrr g d idx) := by
  refine ofS rfl ?_
  intro _
  simp [SFields.of, decodeSFields, decodeSRowA] <;> omega

theorem csrw (g : Guard) (a : BitVec 6) (idx : BitVec 12) : Statement (.csrw g a idx) := by
  refine ofS rfl ?_
  intro _
  simp [SFields.of, decodeSFields, decodeSRowA] <;> omega

theorem eret (g : Guard) : Statement (.eret g) := by
  refine ofS rfl ?_
  intro _
  simp [SFields.of, decodeSFields, decodeSRowA]

theorem swap (g : Guard) (n : BitVec 2) : Statement (.swap g n) := by
  refine ofS rfl ?_
  intro _
  simp [SFields.of, decodeSFields, decodeSRowA] <;> omega

theorem tlbinvPage (g : Guard) (aa : BitVec 4) (b : BitVec 6) (pkg : BitVec 1) : Statement (.tlbinvPage g aa b pkg) := by
  refine ofS rfl ?_
  intro _
  simp [SFields.of, decodeSFields, decodeSRowA, lo4_wide, cat_14_1_2, cat_14_1_2_f2, cat_14_1_2_f1] <;> omega

theorem tlbinvCtx (g : Guard) (b : BitVec 6) (pkg : BitVec 1) : Statement (.tlbinvCtx g b pkg) := by
  refine ofS rfl ?_
  intro _
  simp [SFields.of, decodeSFields, decodeSRowA, cat_14_1_2, cat_14_1_2_f2, cat_14_1_2_f1, lo4_zero] <;> omega

theorem tlbinvAll (g : Guard) (pkg : BitVec 1) : Statement (.tlbinvAll g pkg) := by
  refine ofS rfl ?_
  intro _
  simp [SFields.of, decodeSFields, decodeSRowA, cat_14_1_2, cat_14_1_2_f2, cat_14_1_2_f1, lo4_zero] <;> omega

theorem jbegin (g : Guard) (d : BitVec 6) : Statement (.jbegin g d) := by
  refine ofS rfl ?_
  intro _
  simp [SFields.of, decodeSFields, decodeSRowA]

theorem jwrite (g : Guard) (a : BitVec 6) (b : BitVec 6) : Statement (.jwrite g a b) := by
  refine ofS rfl ?_
  intro _
  simp [SFields.of, decodeSFields, decodeSRowA]

theorem jcommit (g : Guard) : Statement (.jcommit g) := by
  refine ofS rfl ?_
  intro _
  simp [SFields.of, decodeSFields, decodeSRowA]

theorem jabort (g : Guard) : Statement (.jabort g) := by
  refine ofS rfl ?_
  intro _
  simp [SFields.of, decodeSFields, decodeSRowA]

theorem jverifyCrc (g : Guard) (d : BitVec 6) (a : BitVec 6) (b : BitVec 6) : Statement (.jverifyCrc g d a b) := by
  refine ofS rfl ?_
  intro _
  simp [SFields.of, decodeSFields, decodeSRowA]

theorem jverifyWear (g : Guard) (d : BitVec 6) (a : BitVec 6) : Statement (.jverifyWear g d a) := by
  refine ofS rfl ?_
  intro _
  simp [SFields.of, decodeSFields, decodeSRowA]

theorem jverifyStatus (g : Guard) (d : BitVec 6) : Statement (.jverifyStatus g d) := by
  refine ofS rfl ?_
  intro _
  simp [SFields.of, decodeSFields, decodeSRowA]

theorem wake (g : Guard) (a : BitVec 6) : Statement (.wake g a) := by
  refine ofS rfl ?_
  intro _
  simp [SFields.of, decodeSFields, decodeSRowA]

theorem scrubrRange (g : Guard) (d : BitVec 6) (aa : BitVec 4) (b : BitVec 6) (n : BitVec 8) : Statement (.scrubrRange g d aa b n) := by
  refine ofS rfl ?_
  intro _
  simp [SFields.of, decodeSFields, decodeSRowA, lo4_wide, cat_7_8_2, cat_7_8_2_f2, cat_7_8_2_f1] <;> omega

theorem scrubrSecded (g : Guard) (d : BitVec 6) (n : BitVec 8) : Statement (.scrubrSecded g d n) := by
  refine ofS rfl ?_
  intro _
  simp [SFields.of, decodeSFields, decodeSRowA, cat_7_8_2, cat_7_8_2_f2, cat_7_8_2_f1] <;> omega

theorem scrubrDected (g : Guard) (d : BitVec 6) (n : BitVec 8) : Statement (.scrubrDected g d n) := by
  refine ofS rfl ?_
  intro _
  simp [SFields.of, decodeSFields, decodeSRowA, cat_7_8_2, cat_7_8_2_f2, cat_7_8_2_f1] <;> omega

theorem lgwait (g : Guard) (d : BitVec 6) : Statement (.lgwait g d) := by
  refine ofS rfl ?_
  intro _
  simp [SFields.of, decodeSFields, decodeSRowA]

theorem vnop : Statement .vnop := by
  refine ofV rfl rfl ?_
  intro _
  simp [VFields.of, decodeVFields, decodeVRow0]

theorem vadd (g : Guard) (ty : BitVec 4) (m : BitVec 3) (vd : BitVec 11) (va : BitVec 11) (vb : BitVec 11) : Statement (.vadd g ty m vd va vb) := by
  refine ofV rfl rfl ?_
  intro h
  simp_all [Instr.wf, VFields.of, decodeVFields, decodeVRow0]

theorem vsub (g : Guard) (ty : BitVec 4) (m : BitVec 3) (vd : BitVec 11) (va : BitVec 11) (vb : BitVec 11) : Statement (.vsub g ty m vd va vb) := by
  refine ofV rfl rfl ?_
  intro h
  simp_all [Instr.wf, VFields.of, decodeVFields, decodeVRow0]

theorem vmul (g : Guard) (ty : BitVec 4) (m : BitVec 3) (vd : BitVec 11) (va : BitVec 11) (vb : BitVec 11) : Statement (.vmul g ty m vd va vb) := by
  refine ofV rfl rfl ?_
  intro h
  simp_all [Instr.wf, VFields.of, decodeVFields, decodeVRow0]

theorem vmulHi (g : Guard) (ty : BitVec 4) (vd : BitVec 11) (va : BitVec 11) (vb : BitVec 11) : Statement (.vmulHi g ty vd va vb) := by
  refine ofV rfl rfl ?_
  intro h
  have hm : modRounds ty 1 = false := by
    simp_all [Instr.wf, modRounds, tyInt, tyFlt]
    try omega
  simp_all [Instr.wf, VFields.of, decodeVFields, decodeVRow0, tyIntFlt]

theorem vfma (g : Guard) (ty : BitVec 4) (m : BitVec 3) (vd : BitVec 11) (va : BitVec 11) (vb : BitVec 11) (vc : BitVec 11) : Statement (.vfma g ty m vd va vb vc) := by
  refine ofV rfl rfl ?_
  intro h
  simp_all [Instr.wf, VFields.of, decodeVFields, decodeVRow0]

theorem vfms (g : Guard) (ty : BitVec 4) (m : BitVec 3) (vd : BitVec 11) (va : BitVec 11) (vb : BitVec 11) (vc : BitVec 11) : Statement (.vfms g ty m vd va vb vc) := by
  refine ofV rfl rfl ?_
  intro h
  simp_all [Instr.wf, VFields.of, decodeVFields, decodeVRow0]

theorem vmin (g : Guard) (ty : BitVec 4) (m : BitVec 3) (vd : BitVec 11) (va : BitVec 11) (vb : BitVec 11) : Statement (.vmin g ty m vd va vb) := by
  refine ofV rfl rfl ?_
  intro h
  simp_all [Instr.wf, VFields.of, decodeVFields, decodeVRow0]

theorem vmax (g : Guard) (ty : BitVec 4) (m : BitVec 3) (vd : BitVec 11) (va : BitVec 11) (vb : BitVec 11) : Statement (.vmax g ty m vd va vb) := by
  refine ofV rfl rfl ?_
  intro h
  simp_all [Instr.wf, VFields.of, decodeVFields, decodeVRow0]

theorem vabs (g : Guard) (ty : BitVec 4) (vd : BitVec 11) (va : BitVec 11) : Statement (.vabs g ty vd va) := by
  refine ofV rfl rfl ?_
  intro h
  simp_all [Instr.wf, VFields.of, decodeVFields, decodeVRow0]

theorem vneg (g : Guard) (ty : BitVec 4) (vd : BitVec 11) (va : BitVec 11) : Statement (.vneg g ty vd va) := by
  refine ofV rfl rfl ?_
  intro h
  simp_all [Instr.wf, VFields.of, decodeVFields, decodeVRow0]

theorem vdiv (g : Guard) (ty : BitVec 4) (m : BitVec 3) (vd : BitVec 11) (va : BitVec 11) (vb : BitVec 11) : Statement (.vdiv g ty m vd va vb) := by
  refine ofV rfl rfl ?_
  intro h
  simp_all [Instr.wf, VFields.of, decodeVFields, decodeVRow0]

theorem vsqrt (g : Guard) (ty : BitVec 4) (m : BitVec 3) (vd : BitVec 11) (va : BitVec 11) : Statement (.vsqrt g ty m vd va) := by
  refine ofV rfl rfl ?_
  intro h
  simp_all [Instr.wf, VFields.of, decodeVFields, decodeVRow0]

theorem vrcp (g : Guard) (ty : BitVec 4) (m : BitVec 3) (vd : BitVec 11) (va : BitVec 11) : Statement (.vrcp g ty m vd va) := by
  refine ofV rfl rfl ?_
  intro h
  simp_all [Instr.wf, VFields.of, decodeVFields, decodeVRow0]

theorem vrsq (g : Guard) (ty : BitVec 4) (m : BitVec 3) (vd : BitVec 11) (va : BitVec 11) : Statement (.vrsq g ty m vd va) := by
  refine ofV rfl rfl ?_
  intro h
  simp_all [Instr.wf, VFields.of, decodeVFields, decodeVRow0]

theorem vexp2 (g : Guard) (ty : BitVec 4) (m : BitVec 3) (vd : BitVec 11) (va : BitVec 11) : Statement (.vexp2 g ty m vd va) := by
  refine ofV rfl rfl ?_
  intro h
  simp_all [Instr.wf, VFields.of, decodeVFields, decodeVRow0]

theorem vlog2 (g : Guard) (ty : BitVec 4) (m : BitVec 3) (vd : BitVec 11) (va : BitVec 11) : Statement (.vlog2 g ty m vd va) := by
  refine ofV rfl rfl ?_
  intro h
  simp_all [Instr.wf, VFields.of, decodeVFields, decodeVRow0]

theorem vadds (g : Guard) (ty : BitVec 4) (vd : BitVec 11) (va : BitVec 11) (vb : BitVec 11) : Statement (.vadds g ty vd va vb) := by
  refine ofV rfl rfl ?_
  intro h
  simp_all [Instr.wf, VFields.of, decodeVFields, decodeVRow1]

theorem vsubs (g : Guard) (ty : BitVec 4) (vd : BitVec 11) (va : BitVec 11) (vb : BitVec 11) : Statement (.vsubs g ty vd va vb) := by
  refine ofV rfl rfl ?_
  intro h
  simp_all [Instr.wf, VFields.of, decodeVFields, decodeVRow1]

theorem vand (g : Guard) (ty : BitVec 4) (vd : BitVec 11) (va : BitVec 11) (vb : BitVec 11) : Statement (.vand g ty vd va vb) := by
  refine ofV rfl rfl ?_
  intro h
  simp_all [Instr.wf, VFields.of, decodeVFields, decodeVRow1]

theorem vor (g : Guard) (ty : BitVec 4) (vd : BitVec 11) (va : BitVec 11) (vb : BitVec 11) : Statement (.vor g ty vd va vb) := by
  refine ofV rfl rfl ?_
  intro h
  simp_all [Instr.wf, VFields.of, decodeVFields, decodeVRow1]

theorem vxor (g : Guard) (ty : BitVec 4) (vd : BitVec 11) (va : BitVec 11) (vb : BitVec 11) : Statement (.vxor g ty vd va vb) := by
  refine ofV rfl rfl ?_
  intro h
  simp_all [Instr.wf, VFields.of, decodeVFields, decodeVRow1]

theorem vnot (g : Guard) (ty : BitVec 4) (vd : BitVec 11) (va : BitVec 11) : Statement (.vnot g ty vd va) := by
  refine ofV rfl rfl ?_
  intro h
  simp_all [Instr.wf, VFields.of, decodeVFields, decodeVRow1]

theorem vshl (g : Guard) (ty : BitVec 4) (vd : BitVec 11) (va : BitVec 11) (cnt : ShiftCount) : Statement (.vshl g ty vd va cnt) := by
  cases cnt <;> refine ofV rfl rfl ?_ <;> intro h <;>
    simp_all [Instr.wf, VFields.of, decodeVFields, decodeVRow1, lo6v_wide]

theorem vshr (g : Guard) (ty : BitVec 4) (vd : BitVec 11) (va : BitVec 11) (cnt : ShiftCount) : Statement (.vshr g ty vd va cnt) := by
  cases cnt <;> refine ofV rfl rfl ?_ <;> intro h <;>
    simp_all [Instr.wf, VFields.of, decodeVFields, decodeVRow1, lo6v_wide]

theorem vsar (g : Guard) (ty : BitVec 4) (vd : BitVec 11) (va : BitVec 11) (cnt : ShiftCount) : Statement (.vsar g ty vd va cnt) := by
  cases cnt <;> refine ofV rfl rfl ?_ <;> intro h <;>
    simp_all [Instr.wf, VFields.of, decodeVFields, decodeVRow1, lo6v_wide]

theorem vceq (g : Guard) (ty : BitVec 4) (pd : BitVec 4) (va : BitVec 11) (vb : BitVec 11) : Statement (.vceq g ty pd va vb) := by
  refine ofV rfl rfl ?_
  intro h
  simp_all [Instr.wf, VFields.of, decodeVFields, decodeVRow1, lo4v_wide]

theorem vclt (g : Guard) (ty : BitVec 4) (pd : BitVec 4) (va : BitVec 11) (vb : BitVec 11) : Statement (.vclt g ty pd va vb) := by
  refine ofV rfl rfl ?_
  intro h
  simp_all [Instr.wf, VFields.of, decodeVFields, decodeVRow1, lo4v_wide]

theorem vcle (g : Guard) (ty : BitVec 4) (pd : BitVec 4) (va : BitVec 11) (vb : BitVec 11) : Statement (.vcle g ty pd va vb) := by
  refine ofV rfl rfl ?_
  intro h
  simp_all [Instr.wf, VFields.of, decodeVFields, decodeVRow1, lo4v_wide]

theorem vcne (g : Guard) (ty : BitVec 4) (pd : BitVec 4) (va : BitVec 11) (vb : BitVec 11) : Statement (.vcne g ty pd va vb) := by
  refine ofV rfl rfl ?_
  intro h
  simp_all [Instr.wf, VFields.of, decodeVFields, decodeVRow1, lo4v_wide]

theorem vsel (g : Guard) (ty : BitVec 4) (vd : BitVec 11) (pc : BitVec 4) (va : BitVec 11) (vb : BitVec 11) : Statement (.vsel g ty vd pc va vb) := by
  refine ofV rfl rfl ?_
  intro h
  simp_all [Instr.wf, VFields.of, decodeVFields, decodeVRow1, lo4v_wide]

theorem vmov (g : Guard) (ty : BitVec 4) (vd : BitVec 11) (va : BitVec 11) : Statement (.vmov g ty vd va) := by
  refine ofV rfl rfl ?_
  intro h
  simp_all [Instr.wf, VFields.of, decodeVFields, decodeVRow1]

theorem vbcast (g : Guard) (ty : BitVec 4) (vd : BitVec 11) (a : BitVec 6) : Statement (.vbcast g ty vd a) := by
  refine ofV rfl rfl ?_
  intro h
  simp_all [Instr.wf, VFields.of, decodeVFields, decodeVRow1, lo6v_wide]

theorem viota (g : Guard) (ty : BitVec 4) (m : BitVec 3) (vd : BitVec 11) (a : BitVec 6) : Statement (.viota g ty m vd a) := by
  refine ofV rfl rfl ?_
  intro h
  simp_all [Instr.wf, VFields.of, decodeVFields, decodeVRow2, lo6v_wide]

theorem vredadd (g : Guard) (ty : BitVec 4) (m : BitVec 3) (vd : BitVec 11) (va : BitVec 11) : Statement (.vredadd g ty m vd va) := by
  refine ofV rfl rfl ?_
  intro h
  simp_all [Instr.wf, VFields.of, decodeVFields, decodeVRow2]

theorem vredmax (g : Guard) (ty : BitVec 4) (vd : BitVec 11) (va : BitVec 11) : Statement (.vredmax g ty vd va) := by
  refine ofV rfl rfl ?_
  intro h
  simp_all [Instr.wf, VFields.of, decodeVFields, decodeVRow2]

theorem vredmin (g : Guard) (ty : BitVec 4) (vd : BitVec 11) (va : BitVec 11) : Statement (.vredmin g ty vd va) := by
  refine ofV rfl rfl ?_
  intro h
  simp_all [Instr.wf, VFields.of, decodeVFields, decodeVRow2]

theorem vperm (g : Guard) (ty : BitVec 4) (vd : BitVec 11) (va : BitVec 11) (vb : BitVec 11) : Statement (.vperm g ty vd va vb) := by
  refine ofV rfl rfl ?_
  intro h
  simp_all [Instr.wf, VFields.of, decodeVFields, decodeVRow2]

theorem vshuf (g : Guard) (ty : BitVec 4) (vd : BitVec 11) (va : BitVec 11) (vb : BitVec 11) (vc : BitVec 11) : Statement (.vshuf g ty vd va vb vc) := by
  refine ofV rfl rfl ?_
  intro h
  simp_all [Instr.wf, VFields.of, decodeVFields, decodeVRow2]

theorem vrot (g : Guard) (ty : BitVec 4) (vd : BitVec 11) (va : BitVec 11) (j : ElemIndex) : Statement (.vrot g ty vd va j) := by
  cases j <;> refine ofV rfl rfl ?_ <;> intro h <;>
    simp_all [Instr.wf, VFields.of, decodeVFields, decodeVRow2, lo6v_wide] <;> omega

theorem vcvt (g : Guard) (ty : BitVec 4) (m : BitVec 3) (vd : BitVec 11) (va : BitVec 11) (src : BitVec 4) (part : BitVec 3) (gapx : BitVec 4) : Statement (.vcvt g ty m vd va src part gapx) := by
  refine ofV rfl rfl ?_
  intro h
  simp_all [Instr.wf, VFields.of, decodeVFields, decodeVRow2, lo4v_wide, cat_4_4_3, cat_4_4_3_f2, cat_4_4_3_f1] <;> omega

theorem vld (g : Guard) (ty : BitVec 4) (vd : BitVec 11) (a : BitVec 6) (off : BitVec 22) : Statement (.vld g ty vd a off) := by
  refine ofV rfl rfl ?_
  intro h
  simp_all [Instr.wf, VFields.of, decodeVFields, decodeVRow2, lo6v_wide, join22]

theorem vst (g : Guard) (ty : BitVec 4) (vd : BitVec 11) (a : BitVec 6) (off : BitVec 22) : Statement (.vst g ty vd a off) := by
  refine ofV rfl rfl ?_
  intro h
  simp_all [Instr.wf, VFields.of, decodeVFields, decodeVRow2, lo6v_wide, join22]

theorem vgath (g : Guard) (ty : BitVec 4) (vd : BitVec 11) (a : BitVec 6) (off : BitVec 22) : Statement (.vgath g ty vd a off) := by
  refine ofV rfl rfl ?_
  intro h
  simp_all [Instr.wf, VFields.of, decodeVFields, decodeVRow2, lo6v_wide, join22]

theorem vscat (g : Guard) (ty : BitVec 4) (vd : BitVec 11) (a : BitVec 6) (off : BitVec 22) : Statement (.vscat g ty vd a off) := by
  refine ofV rfl rfl ?_
  intro h
  simp_all [Instr.wf, VFields.of, decodeVFields, decodeVRow2, lo6v_wide, join22]

theorem vlds (g : Guard) (ty : BitVec 4) (vd : BitVec 11) (a : BitVec 6) (off : BitVec 22) : Statement (.vlds g ty vd a off) := by
  refine ofV rfl rfl ?_
  intro h
  simp_all [Instr.wf, VFields.of, decodeVFields, decodeVRow2, lo6v_wide, join22] <;> omega

theorem vsts (g : Guard) (ty : BitVec 4) (vd : BitVec 11) (a : BitVec 6) (off : BitVec 22) : Statement (.vsts g ty vd a off) := by
  refine ofV rfl rfl ?_
  intro h
  simp_all [Instr.wf, VFields.of, decodeVFields, decodeVRow2, lo6v_wide, join22] <;> omega

theorem vmvs (g : Guard) (ty : BitVec 4) (d : BitVec 6) (va : BitVec 11) (j : ElemIndex) : Statement (.vmvs g ty d va j) := by
  cases j <;> refine ofV rfl rfl ?_ <;> intro h <;>
    simp_all [Instr.wf, VFields.of, decodeVFields, decodeVRow2, lo6v_wide] <;> omega

theorem vins (g : Guard) (ty : BitVec 4) (vd : BitVec 11) (a : BitVec 6) (j : ElemIndex) : Statement (.vins g ty vd a j) := by
  cases j <;> refine ofV rfl rfl ?_ <;> intro h <;>
    simp_all [Instr.wf, VFields.of, decodeVFields, decodeVRow2, lo6v_wide] <;> omega

theorem venq (g : Guard) (aa : BitVec 4) (vb : BitVec 11) : Statement (.venq g aa vb) := by
  refine ofV rfl rfl ?_
  intro _
  simp [VFields.of, decodeVFields, decodeVRow3, lo4v_wide]

theorem vqrd (g : Guard) (vd : BitVec 11) (n : BitVec 4) : Statement (.vqrd g vd n) := by
  refine ofV rfl rfl ?_
  intro _
  simp [VFields.of, decodeVFields, decodeVRow3, lo4v_wide]

theorem trw (g : Guard) (ty : BitVec 4) (t : BitVec 4) (v : BitVec 11) (j : SliceIndex) : Statement (.trw g ty t v j) := by
  cases j <;> refine ofV rfl rfl ?_ <;> intro h <;>
    simp_all [Instr.wf, VFields.of, decodeVFields, decodeVRow3, lo4v_wide, lo6v_wide] <;> omega

theorem trr (g : Guard) (ty : BitVec 4) (t : BitVec 4) (v : BitVec 11) (j : SliceIndex) : Statement (.trr g ty t v j) := by
  cases j <;> refine ofV rfl rfl ?_ <;> intro h <;>
    simp_all [Instr.wf, VFields.of, decodeVFields, decodeVRow3, lo4v_wide, lo6v_wide] <;> omega

theorem tcw (g : Guard) (ty : BitVec 4) (t : BitVec 4) (v : BitVec 11) (j : SliceIndex) : Statement (.tcw g ty t v j) := by
  cases j <;> refine ofV rfl rfl ?_ <;> intro h <;>
    simp_all [Instr.wf, VFields.of, decodeVFields, decodeVRow3, lo4v_wide, lo6v_wide] <;> omega

theorem tcr (g : Guard) (ty : BitVec 4) (t : BitVec 4) (v : BitVec 11) (j : SliceIndex) : Statement (.tcr g ty t v j) := by
  cases j <;> refine ofV rfl rfl ?_ <;> intro h <;>
    simp_all [Instr.wf, VFields.of, decodeVFields, decodeVRow3, lo4v_wide, lo6v_wide] <;> omega

theorem tzero (g : Guard) (t : BitVec 4) : Statement (.tzero g t) := by
  refine ofV rfl rfl ?_
  intro _
  simp [VFields.of, decodeVFields, decodeVRow3, lo4v_wide]

theorem tmov (g : Guard) (t : BitVec 4) (ts : BitVec 4) : Statement (.tmov g t ts) := by
  refine ofV rfl rfl ?_
  intro _
  simp [VFields.of, decodeVFields, decodeVRow3, lo4v_wide]

theorem affset (g : Guard) (t : BitVec 4) (va : BitVec 11) (vb : BitVec 11) (j : SliceIndex) : Statement (.affset g t va vb j) := by
  cases j <;> refine ofV rfl rfl ?_ <;> intro _ <;>
    simp [VFields.of, decodeVFields, decodeVRow3, cat_7_4_f0, lo4v_wide, lo6v_wide, low_7_4]

theorem scan (g : Guard) (t : BitVec 4) (k : BitVec 2) : Statement (.scan g t k) := by
  refine ofV rfl rfl ?_
  intro _
  simp [VFields.of, decodeVFields, decodeVRow3, lo4v_wide] <;> omega

theorem apply (g : Guard) (vd : BitVec 11) (t : BitVec 4) (j : SliceIndex) (src : ApplySrc) : Statement (.apply g vd t j src) := by
  cases j <;> cases src <;> refine ofV rfl rfl ?_ <;> intro _ <;>
    simp [VFields.of, decodeVFields, decodeVRow3, lo4v_wide, lo6v_wide, lo6v_four, lo6v_apply, low_5_2_4, cat_5_2_4_f1] <;> (try omega)

theorem kld (g : Guard) (k : BitVec 2) (va : BitVec 11) : Statement (.kld g k va) := by
  refine ofV rfl rfl ?_
  intro h
  simp_all [Instr.wf, VFields.of, decodeVFields, decodeVRow3] <;> omega

theorem kst (g : Guard) (vd : BitVec 11) (k : BitVec 2) : Statement (.kst g vd k) := by
  refine ofV rfl rfl ?_
  intro h
  simp_all [Instr.wf, VFields.of, decodeVFields, decodeVRow3] <;> omega

theorem mnop : Statement .mnop := by
  refine ofM rfl rfl rfl ?_
  intro _
  simp [decodeMFields]

theorem mma (t : BitVec 4) (oa : BitVec 6) (ob : BitVec 6) (fmt : BitVec 4) (acc : BitVec 2) (ws : BitVec 8) (wt : BitVec 4) (ss : BitVec 8) : Statement (.mma t oa ob fmt acc ws wt ss) := by
  refine ofM rfl rfl rfl ?_
  intro h
  simp_all [Instr.wf, decodeMFields]

theorem mrep (n : BitVec 6) (sa : Bool) (sb : Bool) (st : Bool) : Statement (.mrep n sa sb st) := by
  refine ofM rfl rfl rfl ?_
  intro _
  cases sa <;> cases sb <;> cases st <;> simp [decodeMFields]

theorem lease (ss : BitVec 8) : Statement (.lease ss) := by
  refine ofM rfl rfl rfl ?_
  intro _
  simp [decodeMFields]

theorem unlease : Statement .unlease := by
  refine ofM rfl rfl rfl ?_
  intro _
  simp [decodeMFields]

theorem oclaim (oa : BitVec 6) : Statement (.oclaim oa) := by
  refine ofM rfl rfl rfl ?_
  intro _
  simp [decodeMFields]

theorem orelease (oa : BitVec 6) : Statement (.orelease oa) := by
  refine ofM rfl rfl rfl ?_
  intro _
  simp [decodeMFields]

theorem ofill (ob : BitVec 6) (oa : BitVec 6) (ws : BitVec 8) (wt : BitVec 4) (ss : BitVec 8) : Statement (.ofill ob oa ws wt ss) := by
  refine ofM rfl rfl rfl ?_
  intro _
  simp [decodeMFields]

theorem xnop : Statement .xnop := by
  refine ofX rfl rfl rfl rfl ?_
  intro _
  simp [decodeXFields]

theorem xexp (vd : BitVec 11) (va : BitVec 11) (bf : BitVec 1) : Statement (.xexp vd va bf) := by
  refine ofX rfl rfl rfl rfl ?_
  intro _
  simp [decodeXFields] <;> omega

theorem xtrn (vd : BitVec 11) (va : BitVec 11) (w : BitVec 2) : Statement (.xtrn vd va w) := by
  refine ofX rfl rfl rfl rfl ?_
  intro h
  simp_all [Instr.wf, decodeXFields] <;> omega

theorem xcvt (vd : BitVec 11) (va : BitVec 11) (pair : BitVec 3) (part : BitVec 1) : Statement (.xcvt vd va pair part) := by
  refine ofX rfl rfl rfl rfl ?_
  intro h
  simp_all [Instr.wf, decodeXFields, cat_3_1, cat_3_1_f1, cat_3_1_f0] <;> omega

theorem xhad (vd : BitVec 11) (va : BitVec 11) (h : BitVec 1) : Statement (.xhad vd va h) := by
  refine ofX rfl rfl rfl rfl ?_
  intro _
  simp [decodeXFields] <;> omega

theorem xqnt (vd : BitVec 11) (va : BitVec 11) (f : BitVec 1) (gapx : BitVec 3) : Statement (.xqnt vd va f gapx) := by
  refine ofX rfl rfl rfl rfl ?_
  intro h
  simp_all [Instr.wf, decodeXFields, cat_1_3_f1, cat_1_3_f0]

theorem xdqn (vd : BitVec 11) (va : BitVec 11) (f : BitVec 1) : Statement (.xdqn vd va f) := by
  refine ofX rfl rfl rfl rfl ?_
  intro h
  simp_all [Instr.wf, decodeXFields, cat_1_3_f1, cat_1_3_f0]

theorem cnop : Statement .cnop := by
  refine ofC rfl rfl rfl rfl rfl ?_
  intro _
  simp [decodeCFields]

theorem copy (cd : BitVec 5) (ws : BitVec 8) (wt : BitVec 4) (ss : BitVec 8) (si : BitVec 4) (cm : BitVec 2) : Statement (.copy cd ws wt ss si cm) := by
  refine ofC rfl rfl rfl rfl rfl ?_
  intro _
  simp [decodeCFields] <;> omega

theorem copyn (cd : BitVec 5) (ws : BitVec 8) (wt : BitVec 4) (ss : BitVec 8) (si : BitVec 4) (cm : BitVec 2) : Statement (.copyn cd ws wt ss si cm) := by
  refine ofC rfl rfl rfl rfl rfl ?_
  intro _
  simp [decodeCFields] <;> omega

theorem copyd (cd : BitVec 5) (wt : BitVec 4) (ss : BitVec 8) (si : BitVec 4) (cm : BitVec 2) : Statement (.copyd cd wt ss si cm) := by
  refine ofC rfl rfl rfl rfl rfl ?_
  intro _
  simp [decodeCFields] <;> omega

theorem bundleFetch : Statement .bundleFetch := ofNone rfl

theorem exposedResultLands : Statement .exposedResultLands := ofNone rfl

theorem interlockedDelivery : Statement .interlockedDelivery := ofNone rfl

theorem strandSwitch : Statement .strandSwitch := ofNone rfl

theorem trapEntry : Statement .trapEntry := ofNone rfl

theorem scrupleReplay : Statement .scrupleReplay := ofNone rfl

theorem userInterruptEntry : Statement .userInterruptEntry := ofNone rfl

theorem windowShift : Statement .windowShift := ofNone rfl

theorem windowSpill : Statement .windowSpill := ofNone rfl

theorem windowFill : Statement .windowFill := ofNone rfl

theorem bankExchange : Statement .bankExchange := ofNone rfl

theorem urgentPreemption : Statement .urgentPreemption := ofNone rfl

theorem vectorGroupBackgroundSave : Statement .vectorGroupBackgroundSave := ofNone rfl

theorem vectorGroupExchange : Statement .vectorGroupExchange := ofNone rfl

theorem frameExchange : Statement .frameExchange := ofNone rfl

theorem frameBackgroundSave : Statement .frameBackgroundSave := ofNone rfl

theorem eccRewrite : Statement .eccRewrite := ofNone rfl

theorem accessPerform : Statement .accessPerform := ofNone rfl

theorem scWheelPerform : Statement .scWheelPerform := ofNone rfl

theorem queuePerform : Statement .queuePerform := ofNone rfl

theorem controllerReport : Statement .controllerReport := ofNone rfl

theorem latchRefill : Statement .latchRefill := ofNone rfl

theorem reservationTableWaitEnd : Statement .reservationTableWaitEnd := ofNone rfl

theorem groupPerform : Statement .groupPerform := ofNone rfl

theorem joinDecrement : Statement .joinDecrement := ofNone rfl

theorem dictReload : Statement .dictReload := ofNone rfl

theorem atsInvalidate : Statement .atsInvalidate := ofNone rfl

theorem journalAttempt : Statement .journalAttempt := ofNone rfl

theorem commitPoint : Statement .commitPoint := ofNone rfl

theorem journalApply : Statement .journalApply := ofNone rfl

theorem sweepComplete : Statement .sweepComplete := ofNone rfl

theorem scrubStep : Statement .scrubStep := ofNone rfl

theorem slotZeroingDone : Statement .slotZeroingDone := ofNone rfl

theorem mQueueStart : Statement .mQueueStart := ofNone rfl

theorem oreleaseEffect : Statement .oreleaseEffect := ofNone rfl

theorem unleaseEffect : Statement .unleaseEffect := ofNone rfl

theorem mmaRowStream : Statement .mmaRowStream := ofNone rfl

theorem mmaComplete : Statement .mmaComplete := ofNone rfl

theorem ofillComplete : Statement .ofillComplete := ofNone rfl

theorem leaseGrant : Statement .leaseGrant := ofNone rfl

theorem leasePass : Statement .leasePass := ofNone rfl

theorem quantumExpire : Statement .quantumExpire := ofNone rfl

theorem copyStart : Statement .copyStart := ofNone rfl

theorem copyComplete : Statement .copyComplete := ofNone rfl

theorem copyFault : Statement .copyFault := ofNone rfl

theorem translationWalkEnd : Statement .translationWalkEnd := ofNone rfl

theorem faultEntryWrite : Statement .faultEntryWrite := ofNone rfl

theorem fqresolveRetry : Statement .fqresolveRetry := ofNone rfl

theorem fqresolveFail : Statement .fqresolveFail := ofNone rfl

theorem fqresolveReject : Statement .fqresolveReject := ofNone rfl

theorem faultRelease : Statement .faultRelease := ofNone rfl

theorem cacheLineUe : Statement .cacheLineUe := ofNone rfl

theorem recordInsert : Statement .recordInsert := ofNone rfl

theorem recordPop : Statement .recordPop := ofNone rfl

theorem furlongStart : Statement .furlongStart := ofNone rfl

theorem phaseOverrun : Statement .phaseOverrun := ofNone rfl

theorem heldLogWrite : Statement .heldLogWrite := ofNone rfl

theorem clusterOff : Statement .clusterOff := ofNone rfl

theorem clusterWake : Statement .clusterWake := ofNone rfl

theorem supplyRampDone : Statement .supplyRampDone := ofNone rfl

theorem sramClearDone : Statement .sramClearDone := ofNone rfl

theorem journalRecovery : Statement .journalRecovery := ofNone rfl

theorem nvSnapshot : Statement .nvSnapshot := ofNone rfl

theorem powerLoss : Statement .powerLoss := ofNone rfl

theorem packageReset : Statement .packageReset := ofNone rfl

theorem dieAuthenticate : Statement .dieAuthenticate := ofNone rfl

theorem getVersion : Statement .getVersion := ofNone rfl

theorem getCapabilities : Statement .getCapabilities := ofNone rfl

theorem negotiateAlgorithms : Statement .negotiateAlgorithms := ofNone rfl

theorem getDigests : Statement .getDigests := ofNone rfl

theorem getCertificate : Statement .getCertificate := ofNone rfl

theorem challenge : Statement .challenge := ofNone rfl

theorem getMeasurements : Statement .getMeasurements := ofNone rfl

theorem configLocked : Statement .configLocked := ofNone rfl

theorem run : Statement .run := ofNone rfl

theorem tdispExit : Statement .tdispExit := ofNone rfl

theorem ctxassign : Statement .ctxassign := ofNone rfl

theorem ctxload : Statement .ctxload := ofNone rfl

theorem ctxkill : Statement .ctxkill := ofNone rfl

theorem pageout : Statement .pageout := ofNone rfl

theorem pagein : Statement .pagein := ofNone rfl

theorem worldfree : Statement .worldfree := ofNone rfl

theorem resync : Statement .resync := ofNone rfl

theorem lglaunch : Statement .lglaunch := ofNone rfl

theorem notify : Statement .notify := ofNone rfl

theorem firewallWrite : Statement .firewallWrite := ofNone rfl

theorem pcapWrite : Statement .pcapWrite := ofNone rfl

theorem floorWrite : Statement .floorWrite := ofNone rfl

theorem freqreqWrite : Statement .freqreqWrite := ofNone rfl

theorem energyLoRead : Statement .energyLoRead := ofNone rfl

theorem energyHiRead : Statement .energyHiRead := ofNone rfl

theorem unfence : Statement .unfence := ofNone rfl

theorem registerWrite : Statement .registerWrite := ofNone rfl

theorem dramSensorSample : Statement .dramSensorSample := ofNone rfl

theorem bankRefreshStart : Statement .bankRefreshStart := ofNone rfl

theorem bankRefreshEnd : Statement .bankRefreshEnd := ofNone rfl

theorem thermalStep : Statement .thermalStep := ofNone rfl

theorem powerManagerPeriod : Statement .powerManagerPeriod := ofNone rfl

theorem remoteResponse : Statement .remoteResponse := ofNone rfl

theorem incomingPeerRequest : Statement .incomingPeerRequest := ofNone rfl

theorem unsupportedUalinkMessage : Statement .unsupportedUalinkMessage := ofNone rfl

theorem peerBudgetRelease : Statement .peerBudgetRelease := ofNone rfl

theorem peerTimeout : Statement .peerTimeout := ofNone rfl

theorem leaguePreempt : Statement .leaguePreempt := ofNone rfl

theorem leagueStart : Statement .leagueStart := ofNone rfl

theorem leagueStartMessage : Statement .leagueStartMessage := ofNone rfl

theorem leagueArriveMessage : Statement .leagueArriveMessage := ofNone rfl

theorem leagueAbortMessage : Statement .leagueAbortMessage := ofNone rfl

theorem leagueGraceExpire : Statement .leagueGraceExpire := ofNone rfl

theorem leagueRelaunch : Statement .leagueRelaunch := ofNone rfl

theorem hostRequest : Statement .hostRequest := ofNone rfl

theorem energyCounterWrap : Statement .energyCounterWrap := ofNone rfl

theorem rampAllowanceReached : Statement .rampAllowanceReached := ofNone rfl

end Sys2Proof.Laws.Encode
end

