-- ==== Sys2Proof/Tests/Slice0.lean ====
section
/-!
SUPPORT. Tests: ill-formed terms that `Instr.wf` refuses, words written out from the encodings of the spec, and for each statement a
state and operands that meet its hypotheses.
-/

namespace Sys2Proof.Tests

open Sys2Proof Sys2Proof.Machine

/-! ### Small states -/

/-- A task of context 0 with every vector register. -/
def task : Task := { uid := 1, va := 0, pa := 0, ctx := 0, prio := 0, cost := 0, flags := 0, vregs := 2048 }
/-- A translation of the page at virtual address 0 to DRAM of die 0. -/
def page : TlbEntry :=
  { ctx := 0, page := 0, log := 12, pa := 0x1000000000, r := true, w := true, x := true, u := true, d := true, fwR := true, fwW := true,
    peer := none }
/-- Core 0 of a released die and a cluster that is On, with the bank `b` in position 0, the translation of page 0 and
the first and the last group of vector registers; its strand acts. -/
def withBank (b : Bank) : State :=
  ((({} : State).modDie 0 fun d => { d with state := .released }).modCluster 0 fun k => { k with power := .on }).modCore 0 fun x =>
    { x.setBank 0 b with tlb := [page], vtag := [(0, { uid := some 1 }), (255, { uid := some 1 })] }
/-- A bank that holds the task, with some control registers. -/
def bank (csr : List (Nat × Word) := []) : Bank := csr.foldl (fun b e => b.putCsr e.1 e.2) { task := some task }
/-- A strand that may act where it stands. -/
def s0 : State := withBank (bank [(0x011, 2048)])
/-- The same in supervisor mode. -/
def sup : State := withBank (bank [(0x000, 0x4000), (0x011, 2048)])
/-- The strand with register s`i` or a`i` holding a value. -/
def s0S (i : Nat) (v : Word) : State := s0.modBk fun b => { b with s := [(i, v)] }
def s0A (i : Nat) (v : Addr) : State := s0.modBk fun b => { b with a := [(i, v)] }
def on : Guard := .always
def off : Guard := ⟨0, true⟩

theorem s0_plain : s0.Plain := by constructor <;> decide
theorem sup_plain : sup.Plain := by constructor <;> decide
theorem a0_reaches (k n : Nat) (h : k = 1 ∨ k = 2 ∨ k = 3) (hn : n = 1 ∨ n = 2 ∨ n = 4 ∨ n = 8 ∨ n = 64) :
    s0.Reaches (s0.ar 0).toNat n n k 0x1000000000 := by
  rcases h with rfl | rfl | rfl <;> rcases hn with rfl | rfl | rfl | rfl | rfl <;> constructor <;> decide
theorem s0_vfree (n : Nat) (h : n = 0 ∨ n = 1 ∨ n = 2 ∨ n = 3 ∨ n = 2047) : s0.VFree n := by
  rcases h with rfl | rfl | rfl | rfl | rfl <;> constructor <;> decide

/-! ### Ill-formed terms, one for each check -/

theorem test_illFormed_scalar : [Instr.pset on 1 257, .ext on 1 2 40 24, .extS on 1 2 63 1, .ins on 1 2 1 63,
    .ldaD on 1 0 6 0, .stlD on 0 1 7 0, .aadd on 1 0 2 4 3 0, .aand on 1 0 2 4 3 0, .aor on 1 0 2 4 3 0, .axor on 1 0 2 4 3 0,
    .amin on 1 0 2 4 3 0, .amax on 1 0 2 4 3 0, .axchg on 1 0 2 5 3 0, .acas on 1 0 2 3 6 0, .fence on 5 3,
    .cdset on 1 2 127 3, .cdrd on 1 2 121 3, .cdadr on 1 2 1].map Instr.wf = List.replicate 18 false := by decide
theorem test_illFormed_vector : [Instr.vadd on 11 0 1 2 3, .vsub on 14 0 1 2 3, .vmin on 12 0 1 2 3, .vmax on 13 0 1 2 3, .vfma on 11 0 1 2 3 4,
    .vfms on 11 0 1 2 3 4, .viota on 15 0 1 2, .vredadd on 11 0 1 2, .vmul on 11 0 1 2 3, .vmulHi on 10 1 2 3, .vadds on 10 1 2 3, .vsubs on 10 1 2 3,
    .vand on 10 1 2 3, .vor on 10 1 2 3, .vxor on 10 1 2 3, .vnot on 10 1 2, .vabs on 11 1 2, .vneg on 12 1 2, .vceq on 13 1 2 3,
    .vclt on 11 1 2 3, .vcle on 11 1 2 3, .vcne on 11 1 2 3, .vredmax on 11 1 2, .vredmin on 11 1 2, .vdiv on 0 0 1 2 3, .vsqrt on 0 0 1 2,
    .vrcp on 0 0 1 2, .vrsq on 0 0 1 2, .vexp2 on 0 0 1 2, .vlog2 on 0 0 1 2, .vsel on 11 1 2 3 4, .vmov on 12 1 2, .vbcast on 13 1 2,
    .vperm on 14 1 2 3, .vshuf on 15 1 2 3 4, .vld on 11 1 2 0, .vst on 11 1 2 0, .vlds on 10 1 63 0, .vsts on 10 1 63 0,
    .vgath on 10 1 2 3, .vscat on 10 1 2 3, .trw on 0 1 2 (.imm 0), .trr on 0 1 2 (.imm 0), .tcw on 0 1 2 (.imm 0),
    .tcr on 0 1 2 (.imm 0)].map Instr.wf = List.replicate 45 false := by decide
theorem test_illFormed_others : [Instr.kld on 1 3, .kst on 3 1, .mma 1 2 3 6 3 0 0 0, .mma 1 2 3 0 0 0 0 0, .xtrn 1 2 3, .xcvt 1 2 4 0,
    .xqnt 1 2 0 0, .xdqn 2 1 0].map Instr.wf = List.replicate 8 false := by decide
theorem test_illFormed_event : [({ core := 256 } : EvArgs), { die := 4 }, { cl := 64 }, { w := 256 }, { ctx := 4096 }].map EvArgs.wf =
    List.replicate 5 false := by decide

/-! ### Words written out from the encodings -/

/-- R36: OP [47:40], PG [39:36], PN [35], D [34:29], A [28:23], B [22:17], IMM [16:0]. ADD s3, s4, s5 under (!p2) (R62), field by field. -/
theorem test_decode_add : (decodeS false (0x01#8 ++ 2#4 ++ 1#1 ++ 3#6 ++ 4#6 ++ 5#6 ++ 0#17)).toOption = some (.add ⟨2, true⟩ 3 4 5) := by decide
/-- R64: ADDI s1, s2, -1. -/
theorem test_decode_addi : (decodeS true (0x02#8 ++ 0#4 ++ 0#1 ++ 1#6 ++ 2#6 ++ 0#6 ++ 0x1FFFF#17)).toOption = some (.addi on 1 2 (-1)) := by decide
/-- R71: SUBA s9, a2, a3. R69: CLTI p4, s5, 6. -/
theorem test_decode_suba : (decodeS true (0x37#8 ++ 0#5 ++ 9#6 ++ 2#6 ++ 3#6 ++ 0#17)).toOption = some (.suba on 9 2 3) := by decide
theorem test_decode_clti : (decodeS false (0x27#8 ++ 0#5 ++ 4#6 ++ 5#6 ++ 0#6 ++ 6#17)).toOption = some (.clti on 4 5 6) := by decide
/-- R74: BR with OFF = -2 in the low 35 bits. -/
theorem test_decode_br : (decodeS false (0x40#8 ++ 0#5 ++ (-2 : BitVec 35))).toOption = some (.br on (-2)) := by decide
/-- R26, the spec's words: CSRR s5, FCTL. R28: TRAP 0x2A. R296: RETIRE, RETIRE.FAIL 0x07, RETIRE.REQUEUE. R295: PHASE s5. -/
theorem test_decode_csrr : (decodeS false 0xA000A0000008).toOption = some (.csrr on 5 8) := by decide
theorem test_decode_trap : (decodeS false (0x4F#8 ++ 0#5 ++ 0#18 ++ 0x2A#17)).toOption = some (.trap on 0x2A) := by decide
theorem test_decode_retire : (decodeS false 0x4C0000000000).toOption = some (.retire on) ∧
    (decodeS false 0x4C0000000107).toOption = some (.retireFail on 7) ∧ (decodeS false 0x4C0000000200).toOption = some (.retireRequeue on) := by decide
theorem test_decode_phase : (decodeS false 0x510002800000).toOption = some (.phase on 5) := by decide
/-- R239, R240, the spec's words: LD.D s10, [a2 + 0]; ST.D [a3 + 8], s7; PREF [a3 + 128]. -/
theorem test_decode_ldD : (decodeS true 0x660141000000).toOption = some (.ldD on 10 2 0) := by decide
theorem test_decode_stD : (decodeS true 0x6A00018E0008).toOption = some (.stD on 3 7 8) := by decide
theorem test_decode_pref : (decodeS true 0x6F0001800080).toOption = some (.pref on 3 128) := by decide
/-- R242, R243, R245, R250: LDA.D.PKG s4, [a1 + 16]; STL.D.PKG [a1 + 0], s9; AADD.ACQREL.DIE s6, [a2 + 0], s7; ACAS.ACQ.PKG; FENCE;
LDSC.D s8, [a0 + 0]; STSC.D [a0 + 8], s9. -/
theorem test_decode_ordered : (decodeS true 0x6B0080806010).toOption = some (.ldaD on 4 1 4 16) ∧
    (decodeS true 0x6C000092A000).toOption = some (.stlD on 1 9 4 0) := by decide
theorem test_decode_atomic : (decodeS true 0x7400C10ED800).toOption = some (.aadd on 6 2 7 3 3 0) ∧
    (decodeS true 0x7B00C10E6000).toOption = some (.acas on 6 2 7 1 4 0) := by decide
theorem test_decode_fence : (decodeS true 0x7C000000E000).toOption = some (.fence on 3 4) ∧
    (decodeS true 0x7D0000000000).toOption = some (.lsmark on) ∧ (decodeS true 0x7E0000000000).toOption = some (.efence on) := by decide
theorem test_decode_sc : (decodeS true 0x6D0100012000).toOption = some (.ldscD on 8 0 0) ∧
    (decodeS true 0x6E0000132008).toOption = some (.stscD on 0 9 8) := by decide
/-- R72, R264, R272: QRD s8, q0, 0; QBIND q0, [a0]; QINIT [a0], a1, 8, 4. -/
theorem test_decode_queue : (decodeS true 0x380100000000).toOption = some (.qrd on 8 0 0) ∧
    (decodeS true 0x800000000000).toOption = some (.qbind on 0 0) ∧ (decodeS true 0x860000020002).toOption.isSome = true := by decide
/-- R203, R210, R307, R358: JBEGIN s20; WAKE s7; SCRUBR.RANGE s20, a3, s21, sem4; LGWAIT s20. -/
theorem test_decode_system : (decodeS false 0xA50280000000).toOption = some (.jbegin on 20) ∧
    (decodeS false 0xAA0003800000).toOption = some (.wake on 7) ∧
    (decodeS false 0xAB0281AA0010).toOption = some (.scrubrRange on 20 3 21 4) ∧ (decodeS false 0xAC0280000000).toOption = some (.lgwait on 20) := by
  decide
/-- R38: OP [63:56], TY [55:52], VD [51:41], VA [40:30], VB [29:19], VC [18:8], PG [7:4], PN [3], MOD [2:0]. VADD.F32 v1, v2, v3 under (p5)
(R126); VCEQ.I32 p3, v1, v2 (R129); TRW.F32 t1, v2, 3 (R169); KLD k1, v2 (R171). -/
theorem test_decode_vadd : (decodeV (0x01#8 ++ 10#4 ++ 1#11 ++ 2#11 ++ 3#11 ++ 0#11 ++ 5#4 ++ 0#1 ++ 0#3)).toOption =
    some (.vadd ⟨5, false⟩ 10 0 1 2 3) := by decide
theorem test_decode_trw : (decodeV 0x32A0000080180100).toOption = some (.trw on 10 1 2 (.imm 3)) := by decide
/-- R39: OP [47:42], TD [41:38], OA [37:32], OB [31:26], FMT [25:22], ACC [21:20], WS [19:12], WT [11:8], SS [7:0]. MMA t1, o2, o3, F8E4. -/
theorem test_decode_mma : (decodeM (1#6 ++ 1#4 ++ 2#6 ++ 3#6 ++ 6#4 ++ 1#2 ++ 4#8 ++ 5#4 ++ 6#8)).toOption = some (.mma 1 2 3 6 1 4 5 6) := by decide
/-- R40: OP [31:26], VD [25:15], VA [14:4], MOD [3:0]. XTRN (R161). -/
theorem test_decode_xtrn : (decodeX (2#6 ++ 1#11 ++ 2#11 ++ 1#4)).toOption = some (.xtrn 1 2 1) := by decide
/-- R41: OP [47:42], CD [41:37], WS [36:29], WT [28:25], SS [24:17], SI [16:13], CM [12:10]. COPY cd1. -/
theorem test_decode_copy : (decodeC (1#6 ++ 1#5 ++ 2#8 ++ 3#4 ++ 4#8 ++ 5#4 ++ 3#3 ++ 0#10)).toOption = some (.copy 1 2 3 4 5 3) := by decide
/-- R35, R50, R53: no-ops, and opcodes outside the grids. -/
theorem test_decode_refused : (decodeS false 0x00FFFFFFFFFF).toOption = some .nop ∧ (decodeS true 0x400000000000).toOption = none ∧
    (decodeV 0x3D00000000000000).toOption = none ∧ (decodeM 0x200000000000).toOption = none ∧ (decodeX 0x1C000000).toOption = none ∧
    (decodeC 0x100000000000).toOption = none := by decide
/-- R36 to R41 for the encoder: the words of R239, R161 and R156 again. -/
theorem test_encode : encode (.ldD on 10 2 0) = some (.s true 0x660141000000) ∧ encode (.xtrn 1 2 1) = some (.x 0x08008021) ∧
    encode (.copy 1 0 0 0 0 0) = some (.c 0x042000000000) := by decide

/-! ### States and operands that meet the hypotheses of the statements -/

theorem witness_DecodeInvertsEncode : (Instr.pset on 1 256).wf = true ∧ encode (.pset on 1 256) = some (.s false 0x2C0020000100) := by decide
theorem witness_DecodedFieldsAreTheEncoding : decodeSFields false (.of 0x01 on 3 4 5 0) = some (.add on 3 4 5) ∧
    decodeVFields ⟨0x01, 10, 1, 2, 3, 0, 0, false, 0⟩ = some (.vadd on 10 0 1 2 3) ∧ decodeMFields ⟨1, 1, 2, 3, 6, 0, 0, 0, 0⟩ = some (.mma 1 2 3 6 0 0 0 0) ∧
    decodeXFields ⟨2, 1, 2, 1⟩ = some (.xtrn 1 2 1) ∧ decodeCFields ⟨1, 1, 0, 0, 0, 0, 0, 0⟩ = some (.copy 1 0 0 0 0 0) ∧
    isNoop (.add on 3 4 5) = false := by decide
theorem witness_BundleLayout : [(0xAB : Byte)][0]? = some 0xAB ∧ (List.replicate 48 (1 : Byte)).length = 48 ∧
    (List.replicate 48 (1 : Byte))[47]? = some 1 ∧ encode (.add on 3 4 5) = some (.s false 0x0100620A0000) ∧ isNoop (.add on 3 4 5) = false := by
  decide
theorem witness_HeaderFields : (slotHeader (packBundle 0x00000001 0 0 0 0 0 0 0)).extractLsb' 0 8 ≠ 0 ∧
    (slotHeader (packBundle 0x0001FF00 0 0 0 0 0 0 0)).extractLsb' 0 8 = 0 := by decide
theorem witness_NoOpsDoNothing : (0x00FFFFFFFFFF : BitVec 48).extractLsb' 40 8 = 0 ∧ (0x00FFFFFFFFFFFFFF : BitVec 64).extractLsb' 56 8 = 0 ∧
    (0x03FFFFFFFFFF : BitVec 48).extractLsb' 42 6 = 0 ∧ (0x03FFFFFF : BitVec 32).extractLsb' 26 6 = 0 := by decide
theorem witness_MisplacedOpcodesAreRejected : ((0x5F0000000000 : BitVec 48).extractLsb' 40 8).toNat / 16 = 5 ∧
    ((0x600000000000 : BitVec 48).extractLsb' 40 8).toNat / 16 = 6 ∧ ((0xAD0000000000 : BitVec 48).extractLsb' 40 8).toNat = 0xAD ∧
    0x3D ≤ ((0x3D00000000000000 : BitVec 64).extractLsb' 56 8).toNat ∧ 8 ≤ ((0x200000000000 : BitVec 48).extractLsb' 42 6).toNat ∧
    7 ≤ ((0x1C000000 : BitVec 32).extractLsb' 26 6).toNat ∧ 4 ≤ ((0x100000000000 : BitVec 48).extractLsb' 42 6).toNat := by decide
theorem witness_StepRunsTheNextEvent : s0.agenda = [] ∧ ({ core := 255 } : EvArgs).wf = true ∧ ({ core := 256 } : EvArgs).wf = false ∧
    (∃ t, exec .unsupportedUalinkMessage { s0 with agenda := [], ev := { core := 255 }, fetched := none } = .next t ∧ t.fetched = none) :=
  ⟨by decide, by decide, by decide, _, rfl, rfl⟩

theorem withBank_bank (b : Bank) (p : Nat) : (withBank b).bank 0 p = if p = 0 then b else {} := by
  unfold withBank State.bank State.modCore State.setCore State.core Core.bank Core.setBank
  rw [mapGet_mapSet, if_pos rfl, mapGet_mapSet]
  split <;> rfl

/-- A strand that stands before the bundle that holds one instruction, its only dictionary entry. -/
def before (i : Instr) (csr : List (Nat × Word) := []) : State :=
  withBank { bank ([(0x011, 2048), (0x016, 1)] ++ csr) with dict := [match encode i with | some w => bundleOf w | none => 0] }

theorem before_canIssue (i : Instr) (h : i = .add on 3 4 5 ∨ i = .trap on 7 ∨ i = .waits on 0 0) : (before i).CanIssue 0 := by
  rcases h with rfl | rfl | rfl <;> constructor <;> first | decide | (intro p; unfold before; rw [withBank_bank]; split <;> decide)

/-- The state in which the bundle's instruction acts. -/
def fetching (i : Instr) : State := { before i with agenda := [(.bundleFetch, { core := 0 })] }

/-- What the fetch of the bundle leaves: the line of its unit counts in the shared cache. -/
def reading (i : Instr) : State := ((({ fetching i with agenda := [] } : State).atStrand 0).codeAt 0 2).1
theorem bundle_add : (({ fetching (.add on 3 4 5) with agenda := [] } : State).atStrand 0).BundleAt (bundleOf (.s false 0x0100620A0000)) 2
    (reading (.add on 3 4 5)) := ⟨[0, 0], _, rfl, .inl ⟨by decide, by decide, by decide, rfl⟩⟩
def acting (i : Instr) : State := (reading i).withNext 2
theorem witness_StepRunsTheDecodedInstruction :
    (fetching (.add on 3 4 5)).CanIssue 0 ∧
    ((acting (.add on 3 4 5)).decodeBundle (bundleOf (.s false 0x0100620A0000))).toOption =
      some { pop := 0, crit := 0, gap := 0, slots := [(0, .add on 3 4 5)], bad := none } ∧
    (acting (.add on 3 4 5)).hazard [(0, .add on 3 4 5)] 0 = .none ∧ bankTurns ((acting (.add on 3 4 5)).chunksOf (.add on 3 4 5)) ≤ 1 :=
  ⟨by
    have h := before_canIssue (.add on 3 4 5) (.inl rfl)
    exact ⟨h.core, h.power, h.hold, h.yielded, h.record, h.replay, h.failed, h.running, h.entry, h.async, h.interrupt, h.reported, h.wait, h.dict⟩,
   by decide, by decide, by decide⟩
/-- What the slot comes to: an ADD is done, a TRAP has trapped, a WAITS on a count that is too low blocks. -/
theorem witness_StepRunsTheDecodedInstruction_marks :
    (∃ t, exec (.add on 3 4 5) (((acting (.add on 3 4 5)).begun { pop := 0, crit := 0, gap := 0, slots := [(0, .add on 3 4 5)] }).inSlot 0) =
      .next t ∧ t.mark = .done) ∧
    (∃ t, exec (.trap on 7) (((acting (.trap on 7)).begun { pop := 0, crit := 0, gap := 0, slots := [(0, .trap on 7)] }).inSlot 0) = .next t ∧
      t.mark = .trapped { code := 0x1E, info := 7, slot := 0 }) ∧
    (∃ t, exec (.waits on 1 3) (((before (.waits on 1 3) [(0x013, 2)]).begun
      { pop := 0, crit := 0, gap := 0, slots := [(0, .waits on 1 3)] }).inSlot 0) = .next t ∧ t.mark = .blocked (.sem 1 3)) :=
  ⟨⟨_, rfl, by decide⟩, ⟨_, rfl, by decide⟩, _, rfl, by decide⟩
/-- Several slots: two that complete; one that traps on one state and not on the other; one that acts last; one that blocks. -/
theorem witness_StepRunsTheDecodedInstruction_slots :
    (let b := (acting (.add on 3 4 5)).begun { pop := 0, crit := 0, gap := 0, slots := [(0, .add on 3 4 5), (1, .addi on 6 7 1)] }
     (∃ t, exec (.add on 3 4 5) (b.inSlot 0) = .next t ∧ t.mark = .done ∧ actsLast (.add on 3 4 5) = false) ∧
     ∃ u, b.runSlots exec [(0, .add on 3 4 5), (1, .addi on 6 7 1)] b = .next u ∧ u.mark = .done) ∧
    (∃ t u, exec (.tlbinvAll on 0) (s0.inSlot 0) = .next t ∧ t.mark = .trapped { code := 0x05, info := 0xA4, decode := true, slot := 0 } ∧
      exec (.tlbinvAll on 0) (sup.inSlot 0) = .next u ∧ u.mark = .done ∧ actsLast (.tlbinvAll on 0) = true ∧
      sup.runSlots exec [] sup = .next sup ∧ sup.mark = .done) ∧
    (∃ t u, exec (.waits on 1 3) ((withBank (bank [(0x013, 2)])).inSlot 0) = .next t ∧ t.mark = .blocked (.sem 1 3) ∧
      exec (.trap on 7) ((withBank (bank [(0x013, 2)])).inSlot 0) = .next u ∧ u.mark = .trapped { code := 0x1E, info := 7, slot := 0 }) :=
  ⟨⟨⟨_, rfl, by decide⟩, _, rfl, by decide⟩, ⟨_, _, rfl, by decide, rfl, by decide, rfl, rfl, by decide⟩, ⟨_, _, rfl, by decide, rfl, by decide⟩⟩

theorem witness_IssueAdvancesThePc : s0.bk.owed = none ∧ s0.bk.go = none ∧ s0.bk.status 7 = false ∧
    (s0.modBk fun b => { b with go := some 8 }).bk.go = some 8 ∧ 1 < (⟨some 8, 2, none⟩ : Owed).left := by decide
theorem witness_FalseGuardIsNoOp : encodeSFields (.add off 3 4 5) = some (.of 0x01 off 3 4 5 0) ∧ isTransfer (.add off 3 4 5) = false ∧
    s0.guard off = false ∧ s0.bk.owed = none ∧ (s0.modBk fun b => { b with owed := some ⟨none, 1, none⟩ }).guard off = false ∧
    (s0.modBk fun b => { b with owed := some ⟨none, 1, none⟩ }).bk.owed.isSome = true ∧ isTransfer (.ret off) = true ∧ guardOf (.ret off) = some off ∧
    (15 : BitVec 4) ≠ 0 := by decide
theorem witness_FalseGuardIsNoOp_words : (decodeS false 0xFF0000000000).toOption = none ∧ (decodeS true 0xFF0800000000).toOption = none ∧
    s0.guard ⟨(unpackS 0xFF0000000000).pg, (unpackS 0xFF0000000000).pn⟩ = true ∧
    s0.guard ⟨(unpackS 0xFF0800000000).pg, (unpackS 0xFF0800000000).pn⟩ = false ∧
    (decodeS false 0x450800000001).toOption.isNone = (decodeS false 0x450000000001).toOption.isNone ∧
    (decodeV 0xFF00000000000000).toOption = none ∧ (unpackV 0xFF00000000000000).pg = 0 ∧ (unpackV 0xFF00000000000000).pn = false ∧
    (unpackV 0xFF00000000000000).op ≠ 0x2E ∧ (unpackV 0xFF00000000000000).op ≠ 0x2F ∧ (decodeV 0xFF00000000000008).toOption = none ∧
    (unpackV 0xFF00000000000008).pn = true ∧ (decodeM 0x200000000000).toOption = none ∧ (decodeC 0x100000000000).toOption = none ∧
    (decodeX 0x1C000000).toOption = none ∧ s0.fetched = none ∧ s0.hazard [] 0 = .none := by decide
theorem witness_ScalarResultLands : let s := fun due => withBank { bank with flight := [⟨due, 0, .s 63 7, 0, false⟩] }
    ((s 0).bank 0 0).flight = [⟨0, 0, .s 63 7, 0, false⟩] ∧ ((s 0).bank 0 0).spec = none ∧ 0 ≤ (s 0).clk ∧
    ((s 1).bank 0 0).flight = [⟨1, 0, .s 63 7, 0, false⟩] ∧ (s 1).clk < 1 := by decide
theorem witness_ScalarResultLands_files : let s := fun w => withBank { bank with flight := [⟨0, 0, w, 0, false⟩] }
    (∀ w ∈ [RegWrite.a 15 7, .p 15 7, .k 3 7 1, .scratch 786431 [some 7], .frame 65535 [none, some 7]],
      ((s w).bank 0 0).flight = [⟨0, 0, w, 0, false⟩] ∧ ((s w).bank 0 0).spec = none ∧ 0 ≤ (s w).clk) ∧
    (let t := withBank { bank with flight := [⟨0, 0, .s 63 7, 0, false⟩, ⟨0, 1, .s 63 9, 0, false⟩] }
     (t.bank 0 0).flight = [⟨0, 0, .s 63 7, 0, false⟩, ⟨0, 1, .s 63 9, 0, false⟩] ∧ (t.bank 0 0).spec = none ∧ 0 ≤ t.clk) := by decide +kernel
theorem witness_IntegerArithmetic : s0.guard on = true := by decide
theorem witness_ImmediateForms : s0.guard on = true := by decide
theorem witness_CountsConstantsAndSelection : s0.guard on = true := by decide
theorem witness_Bitfields : s0.guard on = true ∧ (63 : BitVec 6).toNat + (0 : BitVec 6).toNat + 1 ≤ 64 ∧
    64 < (63 : BitVec 6).toNat + (1 : BitVec 6).toNat + 1 := by decide
theorem witness_ComparesAndPredicateLogic : s0.guard on = true ∧ 256 < (257 : BitVec 9).toNat := by decide
theorem witness_AddressRegisters : s0.guard on = true ∧ (0 : Int) ≤ (s0.ar 0).toNat + (0 : BitVec 17).toInt ∧
    ¬ ((0 : Int) ≤ (s0.ar 0).toNat + (0x1FFFF : BitVec 17).toInt) := by decide
theorem witness_TransfersOweTheirTarget : let d := fun n => withBank (bank [(0x019, n)])
    s0.guard on = true ∧ s0.bk.owed = none ∧ (s0.sr 1).getLsbD 0 = false ∧ ((s0S 1 7).sr 1).getLsbD 0 = true ∧
    ((d 65534).bk.csrAt 0x019).extractLsb' 0 16 = 65534 ∧ ((d 65535).bk.csrAt 0x019).extractLsb' 0 16 = 65535 ∧
    ((d 1).sr 47).getLsbD 0 = false ∧ ((s0S 47 7).sr 47).getLsbD 0 = true ∧ ((d 0).bk.csrAt 0x019).extractLsb' 0 16 = 0 ∧
    (s0.modBk fun b => { b with owed := some ⟨none, 1, none⟩ }).bk.owed.isSome = true := by decide
theorem witness_TransfersOweTheirTarget_plain : (withBank (bank [(0x019, 65534)])).Plain ∧ (withBank (bank [(0x019, 65535)])).Plain := by
  constructor <;> constructor <;> decide
theorem witness_TransfersOweTheirTarget_odd : (s0S 47 7).Plain ∧ (s0S 1 7).Plain := by constructor <;> constructor <;> decide
theorem witness_WindowShiftMovesTwoFrames : let s := fun csr f => ({ withBank (bank [(0x019, csr)]) with ev := { flag := f, v := 0x52 } } : State)
    ((s 0x60005 false).bank 0 0).shadow = none ∧ (s 0x60005 false).ev.v = 0x52 ∧ (s 0x60005 false).ev.flag = false ∧
    (((s 0x60005 false).bank 0 0).csrAt 0x019).extractLsb' 16 4 = 6 ∧ (((s 0x5FFFE false).bank 0 0).csrAt 0x019).extractLsb' 16 4 = 5 ∧
    (((s 0x5FFFE false).bank 0 0).csrAt 0x019).extractLsb' 0 16 = 65534 ∧ (((s 0x00001 true).bank 0 0).csrAt 0x019).extractLsb' 16 4 = 0 ∧
    (((s 0x10001 true).bank 0 0).csrAt 0x019).extractLsb' 0 16 = 1 := by decide
theorem witness_LoopAndYield : s0.guard on = true ∧ s0.bk.owed = none ∧ s0.bk.csrAt 0x01A = 0 ∧ (withBank (bank [(0x01A, 1)])).bk.csrAt 0x01A ≠ 0 ∧
    s0.bk.inSpec = false := by decide
/-- An open region. -/
def region : Spec := { recover := 0x80, order := 5, s := [], a := [], p := [], lcnt := 3 }
theorem witness_SpeculativeRegions : let s := withBank { bank with spec := some region }
    ((withBank { bank with flight := [⟨0, 3, .openSpec 0x80, 0, false⟩] }).bank 0 0).flight = [⟨0, 3, .openSpec 0x80, 0, false⟩] ∧
    s.guard on = true ∧ s.bk.owed = none ∧ s.bk.spec = some region ∧ (s.pr 0).getLsbD 0 = true ∧ region.failed = false ∧ region.held = [] ∧
    (s.pr 1).getLsbD 0 = false ∧ s.bk.flight.all (fun l => decide (l.order < region.order)) = true ∧
    s.bk.accs.all (fun a => decide (a.order < region.order) || a.dest.isNone) = true ∧ s0.bk.spec = none := by decide
/-- A strand in a region of which `n` stores have issued, one in a task that holds its guard with `n` stores staged, one whose last walk failed. -/
def inRegion (n : Nat) : State := withBank { bank [(0x000, 0x100), (0x011, 2048)] with spec := some { region with count := n } }
def guarding (n : Nat) (csr : Word := 0x400) : State := withBank { bank [(0x000, csr), (0x011, 2048)] with staged := List.replicate n { id := 0, kind := .store, order := 0 } }
def unwalked (code : Nat) : State :=
  ({ withBank { bank [(0x000, 0x100)] with spec := some region, walkErr := some (1, 0, { code := code }) } with agenda := [] } : State).modCr fun x => { x with tlb := [] }
theorem witness_SpeculativeRegions_stores (n : Nat) (hn : n = 1 ∨ n = 2 ∨ n = 4 ∨ n = 8) (k : Nat) (hk : k = 31 ∨ k = 32) :
    (inRegion k).guard on = true ∧ (inRegion k).bk.spec = some { region with count := k } ∧ (inRegion k).bk.inSpec = true ∧
    (inRegion k).Reaches (((inRegion k).ar 0).toNat + (0 : BitVec 17).toInt) n n 2 0x1000000000 ∧
    (inRegion k).Reaches (((inRegion k).ar 0).toNat + (0 : BitVec 11).toInt) 8 8 2 0x1000000000 := by
  rcases hn with rfl | rfl | rfl | rfl <;> rcases hk with rfl | rfl <;>
    (refine ⟨by decide, by decide, by decide, ?_, ?_⟩ <;> constructor <;> decide)
theorem witness_SpeculativeRegions_staged (n : Nat) (hn : n = 1 ∨ n = 2 ∨ n = 4 ∨ n = 8) :
    (guarding 255).bk.guarded = true ∧ (guarding 255).bk.spec = none ∧ (guarding 255).bk.staged.length < 256 ∧ (guarding 255).bk.inSpec = false ∧
    (guarding 1 0x4400).bk.priv = true ∧ (guarding 1 0x4400).bk.owed = none ∧ (guarding 1 0x4400).bk.guarded = true ∧
    (guarding 255).Reaches (((guarding 255).ar 0).toNat + (0 : BitVec 17).toInt) n n 2 0x1000000000 ∧
    (guarding 255).Reaches (((guarding 255).ar 0).toNat + (0 : BitVec 11).toInt) 8 8 2 0x1000000000 := by
  rcases hn with rfl | rfl | rfl | rfl <;>
    (refine ⟨by decide, by decide, by decide +kernel, by decide, by decide, by decide, by decide, ?_, ?_⟩ <;> constructor <;> decide)
theorem witness_SpeculativeRegions_faults : (inRegion 0).bk.inSpec = true ∧ (((inRegion 0).ar 0).toNat + (7 : BitVec 17).toInt) % 8 ≠ 0 ∧
    (∃ t, (unwalked 0x11).translate (BitVec.ofInt 80 0) (needOf 1 8) (!(unwalked 0x11).bk.priv) = .failed t ∧ t.code ≠ 0x10) ∧
    (∃ t, (unwalked 0x10).translate (BitVec.ofInt 80 0) (needOf 1 8) (!(unwalked 0x10).bk.priv) = .failed t ∧ t.code = 0x10) :=
  ⟨by decide, by decide, ⟨_, rfl, by decide⟩, ⟨_, rfl, by decide⟩⟩
theorem witness_TrapEntrySavesAndVectors : let t : Trap := { code := 0x1E, info := 7, slot := 7 }
    let s := withBank { bank with owed := some ⟨some 0x40, 3, some true⟩ }
    t.code < 256 ∧ t.slot < 8 ∧ t.code ≠ 0x18 ∧ (s.bank 0 0).exl = false ∧ (s.bank 0 0).flight = [] ∧ (s.bank 0 0).spec = none ∧
    (s.bank 0 0).owed = some ⟨some 0x40, 3, some true⟩ ∧ (s0.bank 0 0).owed = none ∧ (s0.bank 0 0).exl = false ∧
    ((withBank { bank with owed := some ⟨none, 3, none⟩ }).bank 0 0).owed = some ⟨none, 3, none⟩ ∧ (s0.bank 0 0).guarded = false ∧
    (s0.bank 0 0).status 9 = false := by decide
theorem witness_TrapsWaitDoubleAndRollBack : let t : Trap := { code := 0x1E, info := 7 }
    let f : Landing := ⟨5, 0, .s 1 2, 0, false⟩
    ((withBank (bank [(0x000, 0x2000)])).bank 0 0).exl = true ∧ (s0.bank 0 0).exl = false ∧
    ((withBank { bank with flight := [f], entry := some (t, 8) }).bank 0 0).flight ≠ [] ∧
    ((withBank { bank with entry := some (t, 8) }).bank 0 0).entry = some (t, 8) ∧ ((withBank { bank with entry := some (t, 8) }).bank 0 0).spec = none ∧
    ((withBank { bank with spec := some region }).bank 0 0).spec = some region := by decide
theorem witness_TrapInstructionTraps : s0.guard on = true ∧ s0.bk.owed = none := by decide
theorem witness_EretReturns : let s := fun csr => withBank (bank csr)
    (s [(0x000, 0x6000)]).bk.priv = true ∧ (s [(0x000, 0x6000)]).bk.exl = true ∧ (s [(0x000, 0x6000)]).bk.owed = none ∧
    (s [(0x000, 0x6000)]).bk.inSpec = false ∧ ((s [(0x001, 0)]).bk.csrAt 0x001).extractLsb' 11 2 = 0 ∧
    ((s [(0x001, 0x1800)]).bk.csrAt 0x001).extractLsb' 11 2 ≠ 0 ∧ s0.bk.priv = false ∧ sup.bk.priv = true ∧ sup.bk.exl = false ∧ s0.guard on = true ∧
    ((s [(0x002, 0x42)]).bk.csrAt 0x002).getLsbD 0 = false ∧ ((s [(0x002, 0x43)]).bk.csrAt 0x002).getLsbD 0 = true ∧
    ((s [(0x007, 0x45)]).bk.csrAt 0x007).getLsbD 0 = true ∧ ((s [(0x007, 0x44)]).bk.csrAt 0x007).getLsbD 0 = false := by
  decide
theorem witness_ControlRegisterAccess : s0.bk.priv = false ∧ (csrMasks 0x0FF).isNone = true ∧ (csrMasks 0x008).isSome = true ∧ s0.bk.status 7 = false ∧
    (csrMasks 0x000 = some ((csrMasks 0).getD (0, 0))) ∧ s0.bk.inSpec = false ∧ sup.bk.priv = true ∧
    ((withBank { bank with flight := [⟨0, 0, .csr 0x020 8 (-1), 0, false⟩] }).bank 0 0).flight = [⟨0, 0, .csr 0x020 8 (-1), 0, false⟩] := by decide
theorem witness_ControlRegisterAccess_supervisor : ∃ i : BitVec 12, ∃ sw, csrMasks i.toNat = some (0, sw) ∧ sw ≠ 0 ∧ i.toNat < 0x100 :=
  ⟨0x006, _, rfl, by decide, by decide⟩

theorem witness_PrivilegedOpcodesTrapInUserMode : encodeSFields (.eret on) = some (.of 0xA2 on 0 0 0 0) ∧ 0xA2 ≤ (0xA2 : BitVec 8).toNat ∧
    (0xAB : BitVec 8).toNat ≤ 0xAB ∧ s0.guard on = true ∧ s0.bk.priv = false := by decide
theorem witness_UiretPhaseAndSwap : let h := withBank { bank [(0x000, 0x800)] with shadow := some [] }
    h.guard on = true ∧ h.bk.owed = none ∧ h.bk.inSpec = false ∧ h.bk.inui = true ∧ h.bk.flight = [] ∧ h.bk.accs = [] ∧ s0.bk.inui = false ∧
    sup.bk.priv = true ∧ sup.cr.issue.exch = none ∧ (sup.bank sup.cur.core 3).accs = [] ∧ (sup.bank sup.cur.core 3).q = [] ∧
    (sup.die 0).rtab = [] ∧ (sup.die 3).rtab = [] ∧ (withBank (bank [(0x000, 0x4400)])).bk.guarded = true := by decide
theorem witness_AddressChecksComeFirst : s0.guard on = true ∧ ((s0.ar 0).toNat : Int) + (0x1FFFF : BitVec 17).toInt < 0 ∧
    (2 : Int) ^ 80 ≤ ((s0A 1 (-1)).ar 1).toNat + (1 : BitVec 17).toInt ∧ 0 ≤ ((s0.ar 0).toNat : Int) + (7 : BitVec 11).toInt ∧
    (((s0.ar 0).toNat : Int) + (7 : BitVec 11).toInt) % 8 ≠ 0 ∧ (((s0.ar 0).toNat : Int) + (8 : BitVec 17).toInt) % 16 ≠ 0 := by decide
theorem witness_LoadsJoinTheirQueue (n : Nat) (hn : n = 1 ∨ n = 2 ∨ n = 4 ∨ n = 8) : s0.guard on = true ∧ s0.Plain ∧
    s0.Reaches ((s0.ar 0).toNat + (0 : BitVec 17).toInt) n n 1 0x1000000000 ∧ s0.Reaches ((s0.ar 0).toNat + (0 : BitVec 11).toInt) 8 8 1 0x1000000000 :=
  ⟨by decide, s0_plain, a0_reaches 1 n (.inl rfl) (by omega), a0_reaches 1 8 (.inl rfl) (by omega)⟩
theorem witness_StoresAtomicsAndFencesJoinTheirQueue (n : Nat) (hn : n = 1 ∨ n = 2 ∨ n = 4 ∨ n = 8) : s0.guard on = true ∧ s0.Plain ∧
    s0.Reaches ((s0.ar 0).toNat + (0 : BitVec 17).toInt) n n 2 0x1000000000 ∧ s0.Reaches ((s0.ar 0).toNat + (0 : BitVec 11).toInt) 8 8 2 0x1000000000 ∧
    s0.Reaches ((s0.ar 0).toNat + (0 : BitVec 11).toInt) 8 8 3 0x1000000000 :=
  ⟨by decide, s0_plain, a0_reaches 2 n (.inr (.inl rfl)) (by omega), a0_reaches 2 8 (.inr (.inl rfl)) (by omega), a0_reaches 3 8 (.inr (.inr rfl)) (by omega)⟩

/-- A strand with one access in its queue. -/
def acc (k : AccKind) (n : Nat := 8) : Acc := { id := 3, kind := k, order := 1, pa := 0x1000000040, size := n, data := 5, dest := some (.s 2) }
def queued (a : Acc) : State := { withBank { bank with accs := [a], pend := [.s 2] } with ev := { id := a.id } }
theorem acc_canPerform (k : AccKind) (h : k = .store ∨ k = .load true ∨ k = .atomic 7) : (queued (acc k)).CanPerform 0 0 3 (acc k) := by
  rcases h with rfl | rfl | rfl <;> constructor <;> decide
/-- The load behind a store that its region holds, whose bytes it takes. -/
def heldStore : Acc := { id := 1, kind := .store, order := 1, pa := 0x1000000040, size := 8, data := 7 }
def behind : State := (queued (acc (.load false))).modBank 0 0 fun b => { b with spec := some { region with held := [heldStore], count := 1 } }
theorem witness_SpeculativeRegions_forwarding : behind.CanPerform 0 0 3 (acc (.load false)) ∧
    (behind.bank 0 0).spec = some { region with held := [heldStore], count := 1 } ∧ heldStore.kind = .store ∧ heldStore.st = .queued ∧
    heldStore.mmio = false ∧ heldStore.id < (acc (.load false)).id ∧ heldStore.shares (acc (.load false)) = true ∧
    (behind.bank 0 0).forwards (acc (.load false)) = [heldStore] := ⟨by constructor <;> decide, by decide⟩
theorem witness_AccessesPerform : (acc (.load true)).aux = 0 ∧ ((queued (acc (.load true))).bank 0 0).forwards (acc (.load true)) = [] ∧
    (queued (acc (.load true))).bad 0x1000000040 8 = false ∧ (queued (acc (.atomic 7))).bad 0x1000000040 8 = false ∧
    (if (5 : Word) = 0 then (1 : Word) else 2) = 2 := by decide
theorem witness_DeliveryWritesTheDestination : let a := { acc (.load true) with st := .performed, val := 9 }
    (queued a).ev.core = 0 ∧ (queued a).ev.pos = 0 ∧ (queued a).ev.id = 3 ∧ ((queued a).bank 0 0).acc? 3 = some a ∧ a.dest = some (.s 2) ∧
    a.kind = .load true ∧ ((queued a).bank 0 0).mayDeliver a = true ∧
    ((queued a).bank 0 0).accs.all (fun x => x.id == 3 || x.dest != a.dest) = true ∧ (queued a).isFrozen 0 = false ∧
    a.err = none ∧ a.ue = false ∧ ((queued a).bank 0 0).spec = none ∧ ((queued a).bank 0 0).status 7 = false ∧ task.replay = false ∧
    ((queued a).bank 0 0).task = some task := by decide
theorem witness_DeliveryWritesTheDestination_kinds : ∀ a ∈ ([{ acc (.atomic 7) with val := 9 }, { acc .deq with val := 9 },
      { acc .deqt with aux := 786176, size := 256, val := 9 }, { acc .gcount with val := 9 }, { acc (.lgwait 63) with val := 9 },
      { acc (.cdld 31) with dest := some (.cd 31), aux := 112, size := 16 }, { acc .fill with dest := none, size := 64, aux := 29 },
      { acc (.refill 15) with dest := some (.q 15), val := 255, size := 1 }] : List Acc),
    let a := { a with st := .performed }
    a.kind.delivers = true ∧ ((queued a).bank 0 0).mayDeliver a = true ∧ ((queued a).bank 0 0).acc? 3 = some a ∧ a.given = false ∧
    ((queued a).bank 0 0).accs.all (fun x => x.id == 3 || x.dest.isNone || x.dest != a.dest) = true ∧
    (a.kind = .deqt → a.dest = some (.s 2)) ∧ a.aux + (if a.kind = .cdld 31 then a.size else 0) ≤ 786176 ∧ a.val < 2 ^ (8 * a.size) := by decide +kernel
theorem witness_MemoryReadsWhatWasWritten : ∃ s : State, s.MemOk ∧ s.mem ≠ [] ∧ s.byteAt 5 = 7 := ⟨({} : State).putMem 5 [7], by unfold State.MemOk; decide, by decide, by decide⟩
theorem witness_StepKeepsMemoryCanonical : let s := ({} : State).putMem 5 [7]
    s.MemOk ∧ ∃ t, step { s with agenda := [(.unsupportedUalinkMessage, {})] } = .next t ∧ t.mem ≠ [] := ⟨by unfold State.MemOk; decide, _, rfl, by decide⟩

/-- A strand with latch 15 bound and full. -/
def latched : State := withBank { bank with q := [(15, { bound := true, va := 64, pa := 0x1000000040, esize := 8, full := true, elem := 5 })] }
theorem witness_HeaderActionsAndLatches : (15 : BitVec 4) ≠ 0 ∧ s0.bk.guarded = false ∧ (s0.bk.qget 15).bound = false ∧ latched.bk.guarded = false ∧
    latched.bk.spec = none ∧ (latched.bk.qget 15).bound = true ∧
    (tlbFind latched.cr.tlb latched.bk.ctx (latched.bk.qget 15).va (needOf 3 64) (!latched.bk.priv)).any
      (fun e => e.peer.isNone && latched.answers e (latched.bk.qget 15).va (needOf 3 64) && blockable (e.at (latched.bk.qget 15).va)) = true ∧
    latched.bk.inSpec = false ∧ (latched.modBk fun b => b.putCsr 0x000 0x100).bk.inSpec = true ∧
    ((latched.modBk fun b => b.putCsr 0x000 0x100).bk.qget 15).bound = true ∧ (withBank (bank [(0x000, 0x400)])).bk.guarded = true ∧ s0.bk.qSeen = none ∧ s0.guard on = true ∧ s0.bk.inSpec = false ∧ blockable 0x1000000000 = true ∧
    (withBank { bank with qSeen := some (3, []) }).order ≠ 3 := by decide
theorem witness_HeaderActionsAndLatches_bind : s0.Plain ∧ s0.VFree 2047 ∧ s0.Reaches (s0.ar 0).toNat 64 64 3 0x1000000000 ∧ latched.Plain :=
  ⟨s0_plain, s0_vfree 2047 (by omega), a0_reaches 3 64 (by omega) (by omega), by constructor <;> decide⟩
theorem witness_Semaphores : let s := withBank (bank [(0x012, 250), (0x013, 8)])
    let n := fun (k : BitVec 8) => k = 0 ∨ (k.toNat < ((s.bk.csrAt 0x013).extractLsb' 0 9).toNat ∧ ((s.bk.csrAt 0x012).extractLsb' 0 8).toNat + k.toNat ≤ 255)
    s.guard on = true ∧ n 5 ∧ ¬ n 6 ∧ ¬ n 8 ∧ (0 : BitVec 8).toNat ≤ mapGet (fun _ => 0) s.cr.sem 255 ∧ mapGet (fun _ => 0) s.cr.sem 255 < (1 : BitVec 8).toNat := by
  decide
theorem witness_Semaphores_update : let x : Core := { banks := [(0, bank)], sem := [(255, 65535)], semSig := [(255, 1, 1)] }
    (0, x.bank 0) ∈ x.banks ∧ (x.bank 0).task = some task ∧ (x.semSig.filter (fun e => e.1 == 255)).any (fun e => e.2.2 == task.uid) = true ∧
    65535 < 65535 + 1 := by decide
theorem witness_ScalarScratchpadAccess : s0.guard on = true ∧ ((0 : Word).toInt + (3 : BitVec 17).toInt) % 4 ≠ 0 ∧ ((0 : Word).toInt + (4 : BitVec 17).toInt) % 8 ≠ 0 ∧
    (786432 : Int) < ((s0S 1 786432).sr 1).toInt + 4 ∧ ((s0S 1 (-8)).sr 1).toInt < 0 ∧ ((s0S 1 786424).sr 1).toInt + (0 : BitVec 17).toInt + 8 ≤ 786432 ∧
    s0.cr.scratchBad 786424 8 = none := by decide

theorem witness_QueueInstructionsJoinTheirQueues : let m := withBank { bank with gmem := [(3, (0, 0x1000000000))], a := [(1, 64)] }
    s0.guard on = true ∧ blockable 0x1000000000 = true ∧ isLocal 0x1000000000 = true ∧ (s0.ar 1).toNat % 8 = 0 ∧ ((s0S 1 786176).sr 1).toInt % 8 = 0 ∧
    0 ≤ ((s0S 1 786176).sr 1).toInt ∧ ((s0S 1 786176).sr 1).toInt + 256 ≤ 786432 ∧ s0.cr.scratchBad 786176 256 = none ∧
    (mapGet (fun _ => ((0 : Addr), 0)) s0.bk.gmem 0).2 = 0 ∧ s0.bk.gmemOf (s0.ar 0) = none ∧ m.bk.gmemOf (m.ar 0) = some 3 ∧
    m.bk.gmemOf (m.ar 1) = none ∧ (∀ k < 3, (mapGet (fun _ => ((0 : Addr), 0))
      (withBank { bank with gmem := [(0, (0, 1)), (1, (64, 1)), (2, (128, 1))] }).bk.gmem k).2 ≠ 0) ∧
    (withBank (bank [(0x000, 0x400)])).bk.guarded = true ∧ (withBank (bank [(0x000, 0x400)])).bk.inSpec = false ∧
    (withBank (bank [(0x000, 0x100)])).bk.inSpec = true := by decide
theorem witness_QueueInstructionsJoinTheirQueues_reach : s0.Plain ∧ s0.Reaches (s0.ar 0).toNat 64 64 3 0x1000000000 ∧ s0.VFree 0 :=
  ⟨s0_plain, a0_reaches 3 64 (by omega) (by omega), s0_vfree 0 (by omega)⟩
theorem witness_DescriptorInstructions : s0.guard on = true ∧ 124 + (List.replicate 4 (0 : Byte)).length ≤ 128 ∧
    (((s0A 1 3968).ar 1).toNat + (0 : BitVec 17).toInt) / 4096 = ((((s0A 1 3968).ar 1).toNat : Int) + (0 : BitVec 17).toInt + 127) / 4096 := by decide
theorem witness_DescriptorInstructions_reach : (s0A 1 3968).Plain ∧ (s0A 1 3968).Reaches (((s0A 1 3968).ar 1).toNat + (0 : BitVec 17).toInt) 16 128 4 0x1000000F80 := by
  constructor <;> constructor <;> decide
/-- Tiles 0 to 7 and frames 0 to 7 are granted. -/
def tiled (csr : List (Nat × Word) := []) : State := withBank (bank ([(0x011, 2048), (0x014, 0x00FF00FF)] ++ csr))
theorem witness_TileShapes : let s := (tiled).modBk fun b => { b with s := [(1, 0x000B4040), (2, 0x00B4000), (3, 0x000B8040), (4, 0x000B4081)] }
    let legal := fun (w : Word) => w.extractLsb' 26 38 = 0 ∧ w.getLsbD 24 = false ∧ 1 ≤ (w.extractLsb' 8 8).toNat ∧ (w.extractLsb' 8 8).toNat ≤ 128 ∧
      (w.extractLsb' 0 8).toNat ≤ 128 ∧ (w.extractLsb' 16 4 = 0x4 ∨ w.extractLsb' 16 4 = 0xA ∨ w.extractLsb' 16 4 = 0xB) ∧
      (s.bk.csrAt 0x014).getLsbD (16 + (w.extractLsb' 20 4).toNat) = true ∧
      (w.extractLsb' 0 8).toNat * (w.extractLsb' 8 8).toNat * (if w.extractLsb' 16 4 = 0xB then 8 else 4) ≤ 65536
    s.guard on = true ∧ (s.bk.csrAt 0x014).getLsbD (7 : BitVec 4).toNat = true ∧ ¬ (s.bk.csrAt 0x014).getLsbD (8 : BitVec 4).toNat = true ∧
    (s.bk.csrAt 0x047).getLsbD 25 = false ∧ s.cr.tileNamed s.bk.uid 7 = false ∧ ((s.sr 2).extractLsb' 0 8).toNat = 0 ∧ legal (s.sr 3) ∧ ¬ legal (s.sr 4) ∧ legal (s.sr 1) := by
  decide
theorem witness_TaskEndInstructions : s0.guard on = true ∧ s0.bk.owed = none ∧ s0.bk.inSpec = false ∧ s0.bk.inui = false ∧ s0.bk.task.isSome = true ∧
    (withBank (bank [(0x000, 0x100)])).bk.inSpec = true := by decide
theorem witness_SupervisorInstructions :
    let l := withBank { bank [(0x000, 0x4000)] with task := some { task with flags := 8, league := some 63 } }
    let w := (sup.modCluster 15 fun c => { c with power := .off }).modBk fun b => { b with s := [(1, 0x8000)] }
    sup.guard on = true ∧ sup.bk.priv = true ∧ sup.bk.inSpec = false ∧ sup.bk.guarded = false ∧ sup.invHeld false = [] ∧ w.sr 1 = 1 <<< 15 ∧
    (w.cluster 15).power = .off ∧ (w.die 0).state = .released ∧ 20000 ≤ w.pkg.allowance ∧ (sup.cluster 0).power ≠ .off ∧ sup.bk.semOk 0 = true ∧
    (sup.ar 0).toNat % 4096 = 0 ∧ (4096 : Nat) % 4096 = 0 ∧ inDie 0 0x1000000000 4096 = true ∧ bitOf 8 3 = true ∧ l.bk.task.any (fun k => bitOf k.flags 3) = true ∧
    sup.bk.task.any (fun k => bitOf k.flags 3) = false := by decide
theorem witness_SupervisorInstructions_league : (withBank { bank [(0x000, 0x4000)] with task := some { task with flags := 8, league := some 63 } }).Plain := by
  constructor <;> decide
/-- A supervisor of core 0 whose slab is `x`. -/
def slabbed (x : Slab) (s : SMap Word := []) : State := (sup.modCluster 0 fun c => { c with slab := x }).modBk fun b => { b with s := s }
theorem witness_JournalInstructions : let s := slabbed {}
    let t : Txn := { owner := 0, num := 1 }
    let o := slabbed { txn := some t } [(1, 0x0FBFFFC0), (2, 786368)]
    s.guard on = true ∧ s.bk.priv = true ∧ s.bk.owed = none ∧ s.bk.inSpec = false ∧ s.bk.guarded = false ∧ (s.cluster 0).slab.work.contains .apply = false ∧
    (s.cluster 0).slab.ro = false ∧ (s.cluster 0).slab.txn = none ∧ ((slabbed { ro := true }).cluster 0).slab.ro = true ∧
    (o.cluster 0).slab.txn = some t ∧ t.committed = false ∧ t.owner = o.bk.ctx ∧ (o.sr 1).toNat % 64 = 0 ∧ (o.sr 1).toNat ≤ 0x0FBFFFC0 ∧
    (o.sr 2).toInt % 16 = 0 ∧ 0 ≤ (o.sr 2).toInt ∧ (o.sr 2).toInt + 64 ≤ 786432 ∧ t.recs.length < 32768 ∧ (o.cluster 0).slab.queued < 64 ∧
    o.cr.scratchBad 786368 64 = none ∧ (o.cluster 0).slab.busyWithTxn = false ∧
    ((slabbed { commits := [(0, 1)] }).cluster 0).slab.commits.contains (0, sup.bk.uid) = true ∧
    (s.cluster 0).slab.commits.contains (0, sup.bk.uid) = false ∧ ({ owner := 9, num := 1 } : Txn).owner ≠ s.bk.ctx ∧
    ((slabbed { results := [(0, 1, 7)] }).cluster 0).slab.results.find? (fun e => e.1 == 0 && e.2.1 == sup.bk.uid) = some (0, sup.bk.uid, 7) ∧
    s.ueMem = [] ∧ (s.cluster 0).slab.results.find? (fun e => e.1 == 0 && e.2.1 == 1) = none ∧
    ((slabbed { asked := [(0, 1, 0)] }).cluster 0).slab.asksFor (0, sup.bk.uid) = true := by decide
theorem witness_JournalInstructions_traps : let r : JRec := { home := 0, data := [], written := true }
    let t : Txn := { owner := 0, num := 1, recs := [r] }
    let o := slabbed { txn := some t } [(1, 0x0FBFFFC1), (2, 8), (3, 0x0FC00000), (4, 0x10000000), (5, 786384)]
    (o.sr 1).toNat % 64 ≠ 0 ∧ (o.sr 2).toInt % 16 ≠ 0 ∧ 786432 < (o.sr 5).toInt + 64 ∧ (o.sr 3).toNat % 64 = 0 ∧ 0x0FBFFFC0 < (o.sr 3).toNat ∧
    0x10000000 ≤ (o.sr 4).toNat ∧ t.recs.any (fun r => !r.written && !r.failed) = false ∧
    [{ r with written := false }].any (fun r : JRec => !r.written && !r.failed) = true ∧
    [{ r with failed := true }].find? (·.failed) = some { r with failed := true } ∧ { t with commitUnit := some 2 }.commitUnit = some 2 ∧
    { t with committed := true }.committed = true ∧ 64 ≤ ((slabbed { txn := some t, work := List.replicate 64 (.record 0) }).cluster 0).slab.queued ∧
    ((sup.modCr fun x => { x with bad := [.scratch 0 8] }).cr.scratchBad 0 64).isSome = true := by decide
theorem witness_JournalInstructions_full (r : JRec) : 32768 ≤ (List.replicate 32768 r).length := Nat.le_of_eq List.length_replicate.symm

theorem witness_VectorElementwise : s0.VFree 0 ∧ s0.VFree 1 ∧ s0.VFree 2 ∧ s0.VFree 2047 ∧ tyFlt 10 = true ∧ tyInt 4 = true ∧
    (ShiftCount.imm 63 = .imm 63) ∧ (ShiftCount.vec 2 = .vec 2) :=
  ⟨s0_vfree 0 (by omega), s0_vfree 1 (by omega), s0_vfree 2 (by omega), s0_vfree 2047 (by omega), by decide, by decide, rfl, rfl⟩
theorem witness_VectorElementsAndFlags : let s := fun due => withBank { bank with flight := [⟨due, 0, .v 2047 5 (BitVec.allOnes 2048), 3, false⟩] }
    (((s 0).bank 0 0).flight = [⟨0, 0, .v 2047 5 (BitVec.allOnes 2048), 3, false⟩]) ∧ 0 ≤ (s 0).clk ∧ ((s 0).bank 0 0).guarded = false ∧
    (255 : Nat) < 2 ^ tyWidth 1 ∧ tyInt 1 = true ∧ tySigned 1 = false ∧ (4294967295 : Nat) < 2 ^ tyWidth 5 ∧ tySigned 5 = false ∧
    F32 ∈ [F32, F16, BF16, E4M3, E5M2] ∧ (0x7F800000 : Nat) < 2 ^ (1 + F32.exp + F32.frac) ∧ F32.read 0x7F800000 ≠ .nan := ⟨rfl, by decide⟩
theorem witness_VectorComparesReductionsMoves : s0.VFree 0 ∧ s0.VFree 1 ∧ tyAny 10 = true ∧ tyInt 4 = true ∧ tyInt 10 = false ∧
    (fmtOf 10).read 0x7FC00000 = .nan ∧ s0.elemIndex 10 (.imm 63) < 2048 / tyWidth 10 ∧ s0.active on (tyWidth 10) 63 = true ∧ s0.active off (tyWidth 10) 63 = false :=
  ⟨s0_vfree 0 (by omega), s0_vfree 1 (by omega), by decide, by decide, by decide, by decide, by decide, by decide, by decide⟩
theorem witness_ConversionsAndTransforms : s0.VFree 0 ∧ s0.VFree 1 ∧ s0.VFree 2 ∧ s0.VFree 3 ∧ tyAny 8 = true ∧ tyAny 10 = true ∧
    (2048 / tyWidth 10 < 2048 / tyWidth 8 → (1 : BitVec 3).toNat < 2048 / tyWidth 8 / (2048 / tyWidth 10)) ∧ tyDx 13 = true ∧ tyFlt 10 = true ∧
    (List.range (2048 / tyWidth 10)).any (fun i => s0.active on (tyWidth 10) i) = true :=
  ⟨s0_vfree 0 (by omega), s0_vfree 1 (by omega), s0_vfree 2 (by omega), s0_vfree 3 (by omega), by decide, by decide, by decide, by decide, by decide, by decide⟩
theorem witness_VectorScratchpadAccess : s0.VFree 0 ∧ s0.VFree 1 ∧ tyAny 10 = true ∧
    (List.range 64).filter (fun i => s0.active off 32 i) = [] ∧ ((List.range 64).filter fun i => s0.active on 32 i) = List.range 64 ∧
    ((s0S 1 786176).sr 1).toInt % 16 = 0 ∧ (∀ i ∈ List.range 64, (0 : Int) ≤ 786176 + (i * 4 : Nat) ∧ (786176 : Int) + (i * 4 : Nat) + 4 ≤ 786432) ∧
    ¬ ((786192 : Int) + (63 * 4 : Nat) + 4 ≤ 786432) ∧ ((s0S 1 8).sr 1).toInt % 16 ≠ 0 ∧
    (s0S 1 8).cr.scratchBad 786428 4 = none ∧ tyWidth 10 = 32 ∧ ((0 : Int) + (1 : Nat) * ((s0S 2 6).sr 2).toInt) % 4 ≠ 0 :=
  ⟨s0_vfree 0 (by omega), s0_vfree 1 (by omega), by decide, by decide, by decide, by decide, by decide, by decide, by decide, by decide, by decide, by decide⟩
theorem witness_VectorScratchpadAccess_gather : s0.VFree 1 ∧ ((s0S 1 2).sr 1).toInt % 4 ≠ 0 ∧ ((s0S 1 786432).sr 1).toInt % 4 = 0 ∧
    ¬ (((s0S 1 786432).sr 1).toInt + 4 ≤ 786432) := ⟨s0_vfree 1 (by omega), by decide⟩
/-- Tiles 0 and 1 hold pairs and 128 by 3 words in frames 0 and 1. -/
def shaped : State := (tiled [(0x040, 0x020B0302), (0x041, 0x021A0380)]).modCr fun x => { x with frameOwner := [(0, some 0), (1, some 0)] }
theorem shaped_tfree (t : Nat) (h : t = 0 ∨ t = 1) : shaped.TFree t := by
  have g : ∀ off n, shaped.cr.accumBad off n = none := fun off n => by unfold Core.accumBad; rfl
  rcases h with rfl | rfl <;> constructor <;> first | exact g | decide
theorem shaped_vfree (n : Nat) (h : n = 0 ∨ n = 1 ∨ n = 2 ∨ n = 3) : shaped.VFree n := by
  rcases h with rfl | rfl | rfl | rfl <;> constructor <;> decide
theorem witness_TileAndCarryInstructions : let w := fun t => shaped.bk.tshape t
    shaped.TFree 0 ∧ shaped.TFree 1 ∧ shaped.VFree 0 ∧ shaped.VFree 1 ∧ shaped.guard on = true ∧
    ((w 0).extractLsb' 0 8).toNat = 2 ∧ ((w 0).extractLsb' 8 8).toNat = 3 ∧ ((w 0).extractLsb' 16 4).toNat = 0xB ∧
    ((w 1).extractLsb' 0 8).toNat = 128 ∧ ((w 1).extractLsb' 8 8).toNat = 3 ∧ ((w 1).extractLsb' 16 4).toNat = 0xA ∧
    (List.range (min 128 64)).any (fun i => shaped.active on 32 i) = true ∧ (List.range (min 3 64)).any (fun i => shaped.active off 32 i) = false ∧
    (w 0).extractLsb' 0 20 = (shaped.bk.tshape 0).extractLsb' 0 20 ∧ shaped.bk.tileOk 8 = false ∧ shaped.bk.tileOk 2 = true ∧ (w 2).getLsbD 25 = false :=
  ⟨shaped_tfree 0 (by omega), shaped_tfree 1 (by omega), shaped_vfree 0 (by omega), shaped_vfree 1 (by omega), by decide⟩

/-- Slots 5 and 63 are claimed by core 0 for context 0, tiles 0 and 1 have shapes, an MMA has issued, copies are possible. -/
def claimed (lay : Nat := 0) : State := ((tiled [(0x040, 0x020B0302), (0x041, 0x021A0380), (0x013, 256)]).modCluster 0 fun k =>
    { k with slots := [(5, { claim := some (0, 0), layout := lay }), (63, { claim := some (0, 0), layout := lay })] }).modBk fun b =>
  { b with mrep := some ⟨0, 4, 62, 6, 1, 0, 0, 255⟩ }
/-- The descriptor of a copy of one byte from the scratchpad to the scratchpad (R148): SRCK 1, DSTK 1, RANK 1, every DIM 1, TEXT[0] 1. -/
def copyDesc : CDesc := 1 <<< 80 ||| 1 <<< 88 ||| 1 <<< 184 ||| 1 <<< 192 ||| 1 <<< 208 ||| 1 <<< 224 ||| 1 <<< 240 ||| 1 <<< 512
theorem witness_MatrixAndCopyCommands_copy : (claimed).copyTrap 31 (Desc.parse copyDesc) = none := by decide +kernel
theorem witness_MatrixAndCopyCommands : let s := claimed
    let b := s.bk
    let x := s.cluster 0
    b.inSpec = false ∧ (withBank (bank [(0x000, 0x100)])).bk.inSpec = true ∧ s.cr.mq.length < 16 ∧ (b.csrAt 0x014).getLsbD 1 = true ∧ b.semOk 255 = true ∧
    b.semOk 0 = true ∧ shValid (b.tshape 1) = true ∧ shFmt (b.tshape 1) = 0xA ∧ shFmt (b.tshape 0) = 0xB ∧ (x.slot 5).claim = some (s.cur.core, b.ctx) ∧
    (x.slot 63).since ≤ s.clk ∧ (x.slot 63).layout = ((b.csrAt 0x039).extractLsb' 0 8).toNat ∧ b.mrep.isSome = true ∧ s0.bk.mrep = none ∧
    16 ≤ (s.modCr fun x => { x with mq := List.replicate 16 { id := 0, uid := 1, ctx := 0, op := .unlease } }).cr.mq.length ∧
    (x.slot 7).claim = none ∧ (x.slot 7).tag = none ∧
    (((s.modCluster 0 fun k => { k with slots := [(7, { tag := some 9 })] }).cluster 0).slot 7).tag = some 9 ∧ (9 : Nat) ≠ b.ctx ∧
    (((s.modCluster 0 fun k => { k with slots := [(7, { claim := some (1, 0) })] }).cluster 0).slot 7).claim ≠ some (s.cur.core, b.ctx) ∧
    b.guarded = false ∧ b.copies.length < 16 ∧ 16 ≤ (List.replicate 16 ({ id := 0, cdn := 0, desc := 0 } : Copy)).length ∧ b.deferred.length < 64 := by
  decide

/-- Core 0 with further fields, and the event's operands. -/
def core0 (f : Core → Core) (ev : EvArgs := {}) (b : Bank := bank) : State := { (withBank b).modCore 0 f with ev := ev }
theorem witness_CoreEvents_fetch : let s := before (.add on 3 4 5)
    let q := ((s.atStrand 0).codeAt 0 2).1.withNext 2
    s.CanIssue 0 ∧ s.ev = { core := 0 } ∧ (s.atStrand 0).BundleAt (bundleOf (.s false 0x0100620A0000)) 2 ((s.atStrand 0).codeAt 0 2).1 ∧
    (q.decodeBundle (bundleOf (.s false 0x0100620A0000))).toOption = some { pop := 0, crit := 0, gap := 0, slots := [(0, .add on 3 4 5)], bad := none } ∧
    q.hazard [(0, .add on 3 4 5)] 0 = .none ∧ bankTurns (q.chunksOf (.add on 3 4 5)) ≤ 1 :=
  ⟨before_canIssue _ (.inl rfl), rfl, ⟨[0, 0], _, rfl, .inl ⟨by decide, by decide, by decide, rfl⟩⟩, by decide, by decide, by decide⟩
theorem witness_CoreEvents_issue : (({} : State).cluster (clusterOf 0)).power ≠ .on ∧
    (let s := core0 fun x => { x with issue := { x.issue with pos := 3, yielded := true } }
     (if (s.core 0).issue.yielded then [1, 2, 3, 4] else [1, 2, 3]).find? (fun k => s.strandReady 0 (((s.core 0).issue.pos + k) % 4)) = some 1) ∧
    (let u : Undo := { uid := 1, order := 0, bank := bank }
     let s := fun n => { core0 fun x => { x with issue := { x.issue with lastClk := 1, replays := n, undo := some u } } with clk := 2 }
     ((s 6).core 0).issue.undo = some u ∧ ((s 6).core 0).posOf u.uid = some 0 ∧ ((s 6).core 0).issue.lastClk ≤ (s 6).clk ∧ (s 6).clk ≤ ((s 6).core 0).issue.lastClk + 1 ∧ ((s 6).core 0).issue.replays < 7 ∧
     7 ≤ ((s 7).core 0).issue.replays) ∧
    (let s := withBank { bank [(0x000, 0x1000)] with uiq := [(255, 255)] }
     (s.bank 0 (s.core 0).issue.pos).uiDue = true ∧ (s.bank 0 (s.core 0).issue.pos).uiq = [(255, 255)]) := by decide
/-- A spill of one piece that moves WSTK, and a fill of two. -/
def winOp (fill : Bool) : WinOp := { pieces := (if fill then [⟨true, 64, 0⟩, ⟨true, 0, 1⟩] else [⟨false, 64, 5⟩]), move := some fill }
theorem witness_CoreEvents_windows (f : Bool) : let s := withBank { bank with win := some (winOp f) }
    let va : Addr := 64
    (s.bank 0 0).win = some (winOp f) ∧ ((winOp f).pieces.map (·.va)).head? = some va ∧ isMmio 0x1000000040 = false ∧
    isSlab 0x1000000040 = false ∧ tlbFind (s.core 0).tlb (s.bank 0 0).ctx va (needOf 7 64 (!f)) (!(s.bank 0 0).priv) = some page ∧
    page.peer = none ∧ page.at va = 0x1000000040 ∧ s.answers page va (needOf 7 64 (!f)) = true := by
  cases f <;> decide
theorem witness_CoreEvents_windows_move : (winOp true).pieces.drop 1 ≠ [] ∧ (winOp false).pieces.drop 1 = [] ∧ (winOp false).move = some false := by
  decide
theorem witness_CoreEvents_exchanges :
    (let s := core0 (fun x => { x with issue := { x.issue with exch := some (3, 0) } })
     (s.core 0).issue.exch = some (3, 0) ∧ 0 ≤ s.clk ∧ (s.bank 0 4).resend = [] ∧ (s.bank 0 4).q = []) ∧
    ((s0.core 0).issue.exch = none ∧ (s0.bank 0 3).accs = [] ∧ (s0.bank 0 3).q = [] ∧ (s0.die 3).rtab = []) ∧
    (let s := core0 (fun x => { x with groupMoves := [(255, 1, 0)] }) { n := 255 }
     (s.core 0).groupMoves = [(255, 1, 0)] ∧ (s.core 0).posOf 1 = some 0 ∧ ((s.core 0).vtagAt 255).dirty = false ∧
     ((s.ctx (s.bank 0 0).ctx).saved.contains (0, 511)) = false ∧ ((s.core 0).vtagAt 255).uid.isSome = true ∧
     ((s.core 0).vtagAt 255).world = s.worldOf (s.bank 0 0).ctx) ∧
    (let s := core0 (fun x => { x with vtag := [(0, { uid := some 1, dirty := true })], banks := [(4, bank)] })
     ((s.core 0).vtagAt 0).uid = some 1 ∧ (s.core 0).posOf 1 = some 4 ∧ ((s.core 0).vtagAt 0).dirty = true ∧
     (s.ctx ((s.core 0).vtagAt 0).ctx).dead = false ∧ (s.core 0).groupMoves = [] ∧ (s.core 0).groupSave = none ∧
     (s.core 0).portClk ≠ ({ s with clk := 1 } : State).clk ∧
     ((s.modCore 0 fun x => { x with groupSave := some (0, 7, 0) }).core 0).groupSave = some (0, 7, 0) ∧ 0 ≠ ({ s with clk := 1 } : State).clk) ∧
    (let s := core0 (fun x => { x with frameMoves := [(7, 0, 0)] }) { n := 7 }
     (s.core 0).frameMoves = [(7, 0, 0)] ∧ (s.ctx 0).dead = false ∧ (s.core 0).owns 7 0 = false ∧ (s.core 0).frameDirty.contains 7 = false ∧
     (s.ctx 0).saved.contains (0, 7) = false) ∧
    (let s := core0 (fun x => { x with frameOwner := [(7, some 9)], frameDirty := [7] }) { n := 7 }
     mapGet (fun _ => none) (s.core 0).frameOwner 7 = some 9 ∧ (s.core 0).resident 9 = false ∧ (s.core 0).frameDirty.contains 7 = true ∧
     (s.core 0).frameSaves.find? (fun e => e.1 == 7) = none ∧ (s.core 0).frameMoves.any (fun m => m.1 == 7) = false ∧
     ((s.modCore 0 fun x => { x with frameSaves := [(7, 0)] }).core 0).frameSaves.find? (fun e => e.1 == 7) = some (7, 0)) := by decide
theorem witness_CoreEvents_dict : let s := withBank { bank [(0x016, 1)] with dictDue := true }
    (s.bank 0 0).dictDue = true ∧ (s.bank 0 0).dlenDue = false ∧ (s.core 0).dictRoom 0 = true ∧ ∃ t l, s.readImage 0 0
      (((s.bank 0 0).csrAt 0x00B).setWidth 16 ++ (s.bank 0 0).csrAt 0x015) ((s.bank 0 0).csrAt 0x016).toNat = (t, .ok l) :=
  ⟨rfl, rfl, by decide, _, _, rfl⟩
theorem witness_CoreEvents_ends : (s0.bank 0 0).task = some task ∧ task.ending = none ∧ s0.isParked 0 0 = false ∧ s0.isFrozen 0 = false ∧
    ((((s0.modBank 0 0 fun b => b.putCsr 0x028 (BitVec.ofNat 64 (min ((b.csrAt 0x028).toNat + 1) 0xFFFFFFFF))).landShared 0).landDue 0 0).bank 0 0).task =
      some task ∧
    (s0.bank 0 0).flight = [] ∧ (s0.bank 0 0).pend = [] ∧ (s0.cluster (clusterOf 0)).power = .on ∧ (s0.bank 0 0).task.isSome = true ∧
    (let b := bank [(0x028, 5), (0x029, 3), (0x02A, 1)]
    b.overrun = false ∧ b.accs = [] ∧ b.csrAt 0x029 ≠ 0 ∧ (b.csrAt 0x029).toNat + (b.csrAt 0x02A).toNat < (b.csrAt 0x028).toNat) := by decide

/-- A queue block of two elements of 8 bytes in the ring at address 64 of page 0, with `live` elements, in memory at address 0. -/
def blockBody (live check : Nat) : QBlock :=
  { base := 64, esize := 8, cap := 2, head := (2 ^ 64 - live) % 2 ^ 64, tail := 0, free := 2 - live, rsv := 0, world := 0, home := 0,
    flags := 0, waiters := 0, zero := 0, check := check }
def block (live : Nat) : QBlock := blockBody live (crc32c (bytesOfNat 60 (blockBody live 0).body)).toNat
/-- An operation that has reached the controller of the block at the start of page 0. -/
def asking (k : AccKind) (mem : List Byte) : State :=
  ({ withBank { bank with accs := [{ id := 3, kind := k, order := 1, pa := 0x1000000000, size := 64, user := true }] } with ev := { id := 3 } } : State).putMem
    0x1000000000 mem
theorem witness_ControllerAndFaultEvents_arrives (k : AccKind) (h : k = .enq ∨ k = .deq ∨ k = .refill 15 ∨ k = .join ∨ k = .gbar) :
    let s := asking k (withCheck (block 1).body)
    let a : Acc := { id := 3, kind := k, order := 1, pa := 0x1000000000, size := 64, user := true }
    (s.bank 0 0).acc? s.ev.id = some a ∧ a.st = .queued ∧ (s.bank 0 0).mayPerform a = true ∧ (s.bank 0 0).task.isSome = true ∧
    (s.core 0).posOf (s.bank 0 0).uid = some 0 ∧ ((s.bank 0 0).accs.map (·.id)).Nodup ∧ a.err = none ∧ s.waitersOf a.pa = [] ∧
    (s.die (homeDie a.pa)).rtab.length < 8192 ∧ s.controllerHeld 0 (s.bank 0 0).ctx a = false ∧ isSlab a.pa = false := by
  rcases h with rfl | rfl | rfl | rfl | rfl <;> decide +kernel
theorem witness_ControllerAndFaultEvents_block (n : Nat) (h : n = 0 ∨ n = 1 ∨ n = 2) :
    let s := asking .enq (withCheck (block n).body)
    s.qblock 0x1000000000 = block n ∧ (block n).firstBad (s.memNat 0x1000000000 64) (homeDie 0x1000000000) = none ∧ bitOf (block n).flags 0 = false ∧
    (block n).world = s.worldOf (s.bank 0 0).ctx ∧ dieOf 0 = (block n).home ∧ (block n).live = n ∧ (block n).free = 2 - n ∧
    s.bad 0x1000000000 64 = false ∧ (s.die 0).waiters = [] ∧
    (let u := (s.readHome (s.bank 0 0).ctx 0x1000000000 64).1
     ((u.ringAt 0 (s.bank 0 0).ctx true (block n) (block n).tail true).2).toOption.isSome = true ∧
     (let r := u.ringAt 0 (s.bank 0 0).ctx true (block n) (block n).head false
      r.2.toOption.any (fun l => !(r.1.ringRead 0 (s.bank 0 0).ctx l).2.2) = true)) := by
  rcases h with rfl | rfl | rfl <;> decide +kernel
def groupBody (members arrived check : Nat) : GBlock :=
  { members := members, arrived := arrived, gen := 2 ^ 32 - 1, world := 0, flags := 0, zero := 0, check := check }
def group (members arrived : Nat) : GBlock := groupBody members arrived (crc32c (bytesOfNat 60 (groupBody members arrived 0).body)).toNat
theorem witness_ControllerAndFaultEvents_group (m r : Nat) (h : (m = 0 ∧ r = 0) ∨ (m = 65534 ∧ r = 1) ∨ (m = 2 ∧ r = 0) ∨ (m = 2 ∧ r = 1)) :
    let s := asking .gbar (withCheck (group m r).body)
    s.gblock 0x1000000000 = group m r ∧ (group m r).firstBad (s.memNat 0x1000000000 64) = none ∧ bitOf (group m r).flags 0 = false ∧
    (group m r).world = s.worldOf (s.bank 0 0).ctx ∧ (group m r).members = m ∧ (group m r).arrived = r := by
  rcases h with ⟨rfl, rfl⟩ | ⟨rfl, rfl⟩ | ⟨rfl, rfl⟩ | ⟨rfl, rfl⟩ <;> decide +kernel
theorem witness_ControllerAndFaultEvents_reports :
    (let a : Acc := { id := 3, kind := .enq, order := 1, st := .performed, err := some { code := 0x15 } }
     ((withBank { bank with accs := [a] }).bank 0 0).acc? 3 = some a ∧ a.st = .performed ∧ a.err = some { code := 0x15 } ∧ a.dest = none) ∧
    (let s := (asking (.refill 15) (withCheck (block 1).body)).modDie 0 fun d => { d with waiters := [⟨0x1000000000, 0, 1, 3⟩] }
     (s.die 0).rtab.length < 8192 ∧ (s.die 0).waiters = [⟨0x1000000000, 0, 1, 3⟩] ∧ ((s.uidBank 0 1).acc? 3).any (fun a => a.kind == .refill 15) = true ∧
     (s.qblock 0x1000000000).live ≠ 0 ∧ s.queueFault 0 (s.uidBank 0 1).ctx 0x1000000000 0 = none ∧ homeDie 0x1000000000 = s.ev.die) ∧
    s0.clk % 256 ≠ 1 ∧ s0.clk % 256 = 0 ∧
    (let s := core0 (fun x => { x with issue := { x.issue with scLast := 3 } }) {} { bank with accs := [{ acc .store with ord := 4 }] }
     0 = ((s.core 0).issue.scLast + 1) % 4 ∧ (s.bank 0 0).parked = [] ∧ s.scReady (s.bank 0 0) = some { acc .store with ord := 4 } ∧ s.isFrozen 0 = false) ∧
    (let a : WalkWait := { core := 0, uid := 1, va := 0, kind := 1, size := 8, user := true, soft := false, slot := 1 }
     let w : Walk := ⟨7, 0, 0, [a]⟩
     let s := { (withBank { bank with wait := some .walk }).modDie 0 fun d => { d with walks := [w] } with ev := { id := 7 } }
     (s.die s.ev.die).walks = [w] ∧ w.id = s.ev.id ∧ w.waits = [a] ∧ (s.core a.core).posOf a.uid = some 0 ∧
     (s.bank a.core 0).wait = some .walk) := by decide +kernel
def faultEntry : FaultEntry :=
  { seq := 7, va := 0, ctx := 0, kind := 9, core := 0, uid := 1, strand := 0, world := 0, evict := true, malformed := true, groups := [],
    slot := 1, accId := none, action := some 1 }
theorem witness_ControllerAndFaultEvents_faults : let e := faultEntry
    (let s := s0.modDie 0 fun d => { d with faultWait := [e] }
     (s.die 0).faultWait = [e] ∧ (s.die 0).faults.length < 4096 ∧ s.ev.die = dieOf e.core) ∧
    (let s := (withBank { bank with parked := [7] }).modDie 0 fun d => { d with faults := [e] }
     (s.die 0).faults = [e] ∧ e.accId = none ∧ e.latch = none ∧ (s.core 0).posOf 1 = some 0 ∧ (s.bank 0 0).parked = [e.seq] ∧ e.action = some 1 ∧
     e.kind < 10 ∧ { e with action := none }.action = none) ∧ (s0.die 0).state = .released ∧ (s0.die 1).state ≠ .released := by decide

/-- Context 0 is loaded; its table is the page at 0x10_0000_1000, whose entry 0 points back to itself and whose entry 1 maps virtual address
0x1000 to 0x10_0000_3000 with every right. -/
def mapped (entry : Nat := 0x100000302F) : State :=
  ((({ s0 with ctxs := [(0, { loaded := true, root := 0x1000001000 })] } : State).putMemNat 0x1000001000 8 0x1000001001).putMemNat 0x1000001008 8 entry)
def record : Rec := ⟨0x1000000000, 0, 0, true, 15, 0, 0, 0, 2048 - 8, 0, 16⟩
theorem witness_SchedulerEvents_records :
    (let s := { (mapped).putMem 0x1000000000 (List.replicate 47 0 ++ [3]) with ev := { pa := 0x1000000000 } }
     s.worldOf s.ev.ctx = 0 ∧ 3 ≤ bitsOf (s.memNat s.ev.pa 64) 376 8 ∧ s.recMalformed 0 (s.memNat s.ev.pa 64) = false ∧ (s.ctx 0).dead = false ∧
     (s.ctx 0).loaded = true ∧ bitsOf (s.memNat s.ev.pa 64) 352 16 = 0) ∧
    (let s := { (mapped).modDie 0 fun d => { d with recs := [record] } with ev := { pos := 3 } }
     let r := { record with vregs := 0, sems := 0 }
     s.positionFree 0 3 = true ∧ s.positionFree 0 0 = false ∧ (s.modDie 0 fun d => { d with recs := [r] }).choosePop 0 = some (r, true) ∧ s.keptForLeague 0 = false) ∧
    (let s := fun j : Byte => { (mapped).putMem 0x1000000020 [j] with ev := { pa := 0x1000000000 } }
     2 ≤ (s 2).memNat ((s 2).ev.pa + 0x20) 4 ∧ (s 1).memNat ((s 1).ev.pa + 0x20) 4 = 1 ∧ (s 1).memNat ((s 1).ev.pa + 0x2F) 1 = 0 ∧
     (s 0).memNat ((s 0).ev.pa + 0x20) 4 = 0) := by decide +kernel
theorem witness_SchedulerEvents_time : s0.clk % 4194304 = 0 ∧ (s0.cores.map (·.1)).Nodup ∧ (∀ e ∈ s0.cores, (e.2.claims.map (·.1)).Nodup) ∧
    ({ s0 with clk := 4194303 } : State).clk % 4194304 ≠ 0 ∧
    (let e : LogEntry := ⟨0, 0, 4, 0x21, 0⟩
     let s := (mapped).modDie 0 fun d => { d with heldLog := [e] }
     (s.die 0).heldLog = [e] ∧ (s.ctx e.ctx).slotFree = true) := by decide +kernel

/-- A copy of `copyDesc` at the position of the strand. -/
def copying (st : CopyState) (err : Option Trap := none) : State :=
  { withBank { bank with copies := [{ id := 3, cdn := 31, desc := copyDesc, st := st, err := err }] } with ev := { id := 3 } }
theorem witness_EngineEvents_copies :
    (let s := copying .queued
     let y : Copy := { id := 3, cdn := 31, desc := copyDesc }
     s.copyAt 0 s.ev.id = some (0, y) ∧ s.copyReady 0 0 y = true ∧ (copying .started).copyReady 0 0 { y with st := .started } = false) ∧
    (let s := copying .started (some { code := 0x09 })
     let y : Copy := { id := 3, cdn := 31, desc := copyDesc, st := .started, err := some { code := 0x09 } }
     s.copyAt 0 s.ev.id = some (0, y) ∧ (s.bank 0 0).copies = [y]) := by decide +kernel
/-- A started copy of `n` bytes between scratchpad ranges whose source has been read. -/
def moved (n : Nat) : Copy :=
  let d := copyDesc + BitVec.ofNat 1024 (n - 1) * (1 <<< 192 ||| 1 <<< 512)
  { id := 3, cdn := 31, desc := d, st := .started, readN := (Desc.parse d).reads.length }
theorem witness_EngineEvents_units (n : Nat) (h : n = 1 ∨ n = 129) : let y := moved n
    let d := Desc.parse y.desc
    let s : State := { withBank { bank with copies := [y] } with clk := 100 }
    (s.core 0).running = [(0, y)] ∧ (s.bank 0 0).copies = [y] ∧ s.copyAt 0 y.id = some (0, y) ∧ d.dstk = 1 ∧ d.srcScratch = true ∧ d.packed = false ∧ d.useDelta = false ∧
    s.ev.n = 0 ∧ ((s.core 0).banks.map (·.1)).Pairwise (· < ·) ∧ y.out = [] ∧ (s.core 0).issue.lastClk ≠ s.clk ∧ y.begun + 5 + d.latency ≤ s.clk ∧ y.readN = d.reads.length ∧
    (n = 1 → d.unitCount (y.output d).1 ≤ y.units + 1) ∧ (n = 129 → y.units + 1 < d.unitCount (y.output d).1) := by
  rcases h with rfl | rfl <;> decide +kernel
theorem witness_EngineEvents_flush : let y := { moved 1 with out := [⟨0, [(786431, [5])], none⟩], fate := some none }
    let s : State := { withBank { bank with copies := [y] } with ev := { n := 1 } }
    s.ev.n = 1 ∧ ((s.core 0).banks.map (·.1)).Pairwise (· < ·) ∧ (s.core 0).startedCopies = [y.id] ∧ (s.bank 0 0).copies = [y] ∧
    s.copyAt 0 y.id = some (0, y) ∧ y.st = .started ∧ y.err = none ∧ (Desc.parse y.desc).dstk = 1 ∧ y.cm = 0 ∧
    y.out.all (·.toks.isNone) = true ∧ (y.out.map (·.n)).Nodup ∧ y.fate = some none ∧ (moved 1).fate = none := by decide +kernel
/-- An M command that waits or runs. -/
def mcmd (op : MOp) (st : Option Nat := none) (row : Nat := 0) : MCmd :=
  { id := 3, uid := 1, ctx := 0, op := op, ss := 255, shapes := [0x020A0302], start := st, row := row }
def mma : MmaFields := ⟨0, 5, 63, 6, 0, 0, 0, 255⟩
def matrix (q r : List MCmd) (clk : Nat := 0) : State :=
  { (s0.modCore 0 fun x => { x with mq := q, mrun := r, frameOwner := [(0, some 0)] }).modCluster 0 fun k =>
      { k with lease := { holder := some 0, reqs := [3] } } with clk := clk, ev := { id := 3 } }
theorem witness_EngineEvents_matrix :
    (let s := matrix [mcmd (.ofill 5 63)] []
     (s.core 0).mq = [mcmd (.ofill 5 63)] ∧ s.headFree 0 (mcmd (.ofill 5 63)) = true ∧ (s.core 0).semReady 0 0 = true ∧ s.slotsOpen 0 [63, 5] = true) ∧
    (let s := matrix [mcmd (.mma mma)] [] 0
     let m := mcmd (.mma mma)
     (s.core 0).mq = [m] ∧ s.headFree 0 m = true ∧ s.slotsOpen 0 [5, 63] = true ∧ (s.cluster 0).lease.holder = some 0 ∧ s.arrayFree 0 = true ∧
     (s.core 0).mayUse (shFrame (m.shapes.headD 0)) m.ctx = true) ∧
    (let s := matrix [mcmd (.orelease 63)] []
     (s.core 0).mq = [mcmd (.orelease 63)] ∧ s.headFree 0 (mcmd (.orelease 63)) = true ∧ (s.core 0).mrun = [] ∧ (∀ e ∈ (s.core 0).banks, e.2.copies = [])) ∧
    (let s := matrix [mcmd .unlease] []
     (s.core 0).mq = [mcmd .unlease] ∧ s.headFree 0 (mcmd .unlease) = true) ∧
    (let m := mcmd (.mma mma) (some 0) 1
     let s := fun n => matrix [] [m] n
     ((s 13).core 0).mrun.find? (fun m => m.id == (s 13).ev.id) = some m ∧ m.start = some 0 ∧ m.stop = none ∧ m.row < shRows (m.shapes.headD 0) ∧
     (s 0).clk ≤ 0 ∧ 0 + 12 ≤ (s 12).clk ∧ (s 12).clk < 0 + 12 + m.row ∧
     0 + 12 + m.row ≤ (s 13).clk ∧ ((s 13).cluster 0).slotBad 5 (lineBytes 6 m.layA 1) = none ∧
     (((s 13).modCluster 0 fun k => { k with bad := [.operand 0 (65536 * 5 + 256)] }).cluster 0).slotBad 5 (lineBytes 6 m.layA 1) = some 256) ∧
    (let m := mcmd (.mma mma) (some 0) 2
     ((matrix [] [m] 13).core 0).mrun = [m] ∧ m.id = (matrix [] [m] 13).ev.id ∧ ((matrix [] [m] 13).core 0).doomed = [] ∧
     ((matrix [] [m] 13).core 0).posOf m.uid = some 0 ∧ shRows (m.shapes.headD 0) ≤ m.row ∧
     0 + 11 + shRows (m.shapes.headD 0) ≤ (matrix [] [m] 13).clk ∧ (matrix [] [m] 12).clk < 0 + 11 + shRows (m.shapes.headD 0) ∧
     { m with stop := some (65536 * 5) }.stop = some (65536 * 5)) ∧
    (let m := mcmd (.ofill 5 63) (some 0)
     let s := fun n => matrix [] [m] n
     ((s 143).core 0).mrun = [m] ∧ m.filled = [] ∧ ((((s 143).cluster 0).slot 63).bytes.map (·.1)).Pairwise (· < ·) ∧
     ((((s 143).cluster 0).slot 5).bytes.map (·.1)).Pairwise (· < ·) ∧ 0 + 143 ≤ (s 143).clk ∧ (s 142).clk < 0 + 143) := by decide +kernel
theorem witness_EngineEvents_lease :
    (let s := { s0.modCluster 0 fun k => { k with slots := [(63, { zeroing := some 0 })] } with ev := { n := 63 } }
     ((s.cluster s.ev.cl).slot s.ev.n).zeroing = some 0 ∧ s.clk ≤ 0 ∧ 0 < ({ s with clk := 1 } : State).clk) ∧
    (let s := s0.modCluster 0 fun k => { k with lease := { reqs := [0] } }
     (s.cluster 0).lease.holder = none ∧ (s.cluster 0).lease.reqs.contains 0 = true) ∧
    (let s := matrix [] []
     (s.cluster 0).lease.holder = some 0 ∧ (s.core 0).arrayRuns = false ∧ (s.core 0).arrayQueued = false ∧ (s.cluster 0).nextCore 0 0 = some 3 ∧
     (s.cluster 0).others 0 ≠ [] ∧ ((matrix [] [mcmd (.mma mma)]).core 0).arrayRuns = true) ∧
    (let s := { s0.modCluster 0 fun k => { k with lease := { holder := some 0 } } with clk := 8191 }
     (s.cluster 0).lease.start + 8192 ≤ s.clk + 1 ∧ (s.cluster 0).others 0 = []) := by decide +kernel
theorem witness_EngineEvents_journal :
    let r : JRec := { home := 0x0FBFFFC0, data := List.replicate 64 1, unit := 65535 }
    let u : Txn := { owner := 0, num := 7, recs := [r] }
    let s := fun (x : Slab) (jfi : Word) (p : Power) => s0.modCluster 0 fun k => { k with slab := x, jfi := jfi, power := p }
    let x := fun (n : Nat) (w : List JWork) => ({ txn := some u, att := some ⟨n, 0, none, 0⟩, work := w, spUsed := 64 } : Slab)
    let hit : Word := 0x10000000000 + 0x0FBFFFC0
    (s0.clk < (⟨0, 0, none, 1⟩ : Attempt).due ∧ ((s (x 0 [.record 0]) 0 .on).cluster 0).slab.att = some ⟨0, 0, none, 0⟩ ∧
      ((s (x 0 [.record 0]) 0 .on).cluster 0).slab.work = [.record 0] ∧ ((s (x 0 [.record 0]) 0 .on).cluster 0).slab.txn = some u ∧ u.aborting = false ∧
      u.recs[0]? = some r ∧ r.data.length = 64 ∧ ((s (x 0 [.record 0]) 0 .on).cluster 0).slab.ro = false ∧ jfiHits 0 (some r.home) = false ∧
      jfiHits hit (some r.home) = true ∧ 2 < 3 ∧ 64 ≤ (x 3 []).spUsed) ∧
    (let y : Slab := { txn := some { u with commitUnit := some 2 }, tags := [(2, (8, 2 ^ 28, tagCrc (List.replicate 64 0) 7 (2 ^ 28)))] }
     y.txn = some { u with commitUnit := some 2 } ∧ u.committed = false ∧ (s y 0 .recover).tagSound 0 2 u.num = true ∧ u.recs ≠ [] ∧
     y.work.contains .apply = false ∧ ((s y 0 .recover).cluster 0).power = .recover) ∧
    (let y : Slab := { txn := some { u with committed := true }, work := [.apply] }
     y.work = [.apply] ∧ r.applied = false ∧ y.att = none ∧ ((s y 0 .on).cluster 0).power = .on) := by decide +kernel
theorem witness_EngineEvents_scrub :
    ((s0.core 255).scratchBad (16 * (786431 / 16)) 16 = none) ∧
    (∃ k off, placeOf (slabPa 63 0x0FFFFFC0) = .mram k off) ∧ mapGet (fun _ => 0) (s0.die 3).corrCount 0 < 15 ∧
    (let w : Sweep := { num := 7, core := 0, uid := 1, sem := 255, base := 0x1000000000, len := 4096, startClk := 0 }
     let s := { s0.modDie 0 fun d => { d with sweeps := [w] } with ev := { n := 7 } }
     (s.die 0).sweeps = [w] ∧ w.num = s.ev.n ∧ s.sweepPending w = false ∧ w.mode = 0 ∧ s.pkg.teardowns = []) ∧
    (let s := { s0.modDie 0 fun d => { d with cache := [(0x20000000, ⟨0, 0, false, 3, 0⟩)] } with ev := { pa := 0x1000000000 } }
     (s.die 0).cache = [(0x20000000, ⟨0, 0, false, 3, 0⟩)] ∧ 0x20000000 = s.ev.pa / 128) := by
  refine ⟨by decide +kernel, ⟨_, _, rfl⟩, by decide +kernel, by decide +kernel, by decide +kernel⟩

/-- The package with cluster 63 in a given state, its die released, and the event that names it. -/
def powered (k : Cluster) (p : Package := {}) : State :=
  { (({} : State).modDie 3 fun d => { d with state := .released }) with clusters := [(63, k)], pkg := p, ev := { cl := 63 } }
theorem witness_PowerEvents :
    (powered { power := .on, rest := true }).mayRest 63 = true ∧ (powered { power := .on }).mayRest 63 = false ∧
    ((powered {}).cluster 63).power = .off ∧ ((powered {}).die 3).state = .released ∧ 20000 ≤ (powered {}).pkg.allowance ∧
    (powered {} { allowance := 19999 }).pkg.allowance < 20000 ∧ ((powered { wakeWaits := true }).cluster 63).wakeWaits = true ∧
    ((powered { power := .on }).cluster 63).power ≠ .off ∧ ((powered { power := .ramp 1 }).cluster 63).power = .ramp 1 ∧ (powered {}).clk < 1 ∧
    ((powered { power := .ramp 0 }).cluster 63).power = .ramp 0 ∧ ((powered { power := .clear 0 }).cluster 63).power = .clear 0 ∧
    (∀ e ∈ (powered {}).clusters, e.2.power = .off) ∧ (powered { power := .on }).clusters = [(63, { power := .on })] ∧
    (∀ i, i < 4 → (powered {}).core (4 * 63 + i) = {}) ∧ (powered {}).clk < mapGet (fun _ => 0) [(5, 1)] 5 ∧
    16 * (powered { refAt := 1 }).clk < ((powered { refAt := 1 }).cluster 63).refAt ∧ ((powered {}).cluster 63).refAt ≤ 16 * (powered {}).clk ∧
    (powered {}).ioUp 0 = false ∧ (powered {} { io := [.released, .held] }).ioUp 0 = true ∧
    mapGet (fun _ => 0) ((powered {}).cluster 63).refresh 5 ≤ (powered {}).clk ∧ (-2000 : Int) ≤ 1360 ∧
    (∃ e ∈ (powered { tallowl := -1 }).clusters, e.2.tallowl.toInt < 0) ∧ (∀ e ∈ (powered {}).clusters, 0 ≤ e.2.tallowl.toInt) ∧
    (0 : Nat) ≤ (powered {}).pkg.ecap ∧ (powered {} { ecap := 0 }).pkg.ecap < 1 ∧
    (∃ w ∈ (powered { issueClk := [[(255, 8)]] }).overFloor [(63, 1)], (powered {}).pkg.stopped.contains w = false) ∧
    (∀ w ∈ (powered { issueClk := [[(255, 8)]] } { stopped := [255] }).overFloor [(63, 1)], [255].contains w = true) ∧
    (powered {}).pkg.energy < 2 ^ 64 ∧ 2 ^ 64 ≤ (powered {} { energy := 2 ^ 64 }).pkg.energy := by
  refine ⟨?_, ?_, ?_, ?_, ?_, ?_, ?_, ?_, ?_, ?_, ?_, ?_, ?_, ?_, ?_, ?_, ?_, ?_, ?_, ?_, ?_, ?_, ?_, ?_, ?_, ?_, ?_, ?_, ?_, ?_⟩ <;>
    decide +kernel

/-- The mailbox of world 0 holds these arguments. -/
def mailbox (args : List (Nat × Word)) (s : State := mapped) : State :=
  { s with worlds := [(0, { mbarg := args })], pkg := { io := [.released, .released] } }
theorem witness_PackageEvents_boot : s0.pkg.teardowns = [] ∧ ({ s0 with ev := { n := 0 } } : State).ev.n = s0.pkg.bootNext ∧
    ({ n := 5 } : EvArgs).n < 6 ∧ ({ n := 1 } : EvArgs).n < s0.pkg.io.length ∧ s0.ioUp 0 = false ∧ (mailbox []).ioUp 0 = true ∧ ({ s0 with pkg := { bootNext := 5 }, ev := { n := 5 } } : State).ev.n = 5 := by decide
theorem witness_PackageEvents_tdisp : let s := fun t => ({ s0 with worlds := [(255, { tdisp := t })], ev := { w := 255 } } : State)
    ((s .unlocked).world 255).tdisp = .unlocked ∧ (s .unlocked).tearing 255 = false ∧ ((s .locked).world 255).tdisp = .locked ∧
    ((s .error).world 255).tdisp ≠ .locked ∧ ((s .run).world 255).tdisp ≠ .unlocked ∧
    ({ s0 with pkg := { teardowns := [{ world := 255, reason := 0, nonce := [], start := 0 }] } } : State).tearing 255 = true ∧
    (({ s0 with worlds := [(0, { mbBusy := true })] } : State).world 0).mbBusy = true := by decide
theorem witness_PackageEvents_mailbox : let s := mailbox [(0, 4095), (1, 255)]
    s.ioUp 0 = true ∧ s.tearing 0 = false ∧ (s.world 0).mbBusy = false ∧ (mapGet (fun _ => (0 : Word)) (s.world 0).mbarg 0).toNat < 4096 ∧
    (mapGet (fun _ => (0 : Word)) (s.world 0).mbarg 1).toNat < 256 ∧ (s.world 255).tdisp = .unlocked ∧ (s.world (s.worldOf 4095)).tdisp = .unlocked ∧
    s.tearing 255 = false ∧ ((s.ctx 0).loaded = true ∧ (s.ctx 0).dead = false ∧ s.worldOf 0 = 0) ∧ s.worldOf 4095 = 0 := by decide +kernel
/-- A context descriptor: LOGLEN 16, and the CRC of its first 124 bytes (R329). -/
def ctxBody : List Byte := (List.replicate 36 0 ++ [16] ++ List.replicate 25 0) ++ List.replicate 62 0
theorem ctxBody_crc : crc32c ctxBody = BitVec.ofNat 32 2789684820 := by
  unfold crc32c ctxBody
  rw [List.foldl_append, show List.foldl crcByte (0xFFFFFFFF : BitVec 32) (List.replicate 36 0 ++ [16] ++ List.replicate 25 0) = 3115573724 from by decide +kernel]
  decide +kernel
def ctxDesc : List Byte := ctxBody ++ bytesOfNat 4 2789684820
theorem ctxDesc_ok : descOk (natOfBytes ctxDesc) ctxDesc = true := by
  unfold descOk
  rw [show ctxDesc.take 0x7C = ctxBody from by decide +kernel, ctxBody_crc]
  decide +kernel
theorem witness_PackageEvents_ctxload : let s := mailbox [(0, 4095), (1, 0x1000000000)] ((mapped).putMem 0x1000000000 ctxDesc)
    0x1000000000 % 128 = 0 ∧ s.seenBytes 0x1000000000 128 = ctxDesc ∧ s.bad 0x1000000000 128 = false ∧ isLocal 0x1000000000 = true ∧ s.physDeny 0 0x1000000000 false = none ∧ s.physDeny 0 0x1000000000 true = none ∧
    isMmio 0x1000000000 = false := by decide +kernel
theorem witness_PackageEvents_ctxload_bad : descOk 0 (List.replicate 128 0) = false := by decide +kernel
theorem witness_PackageEvents_pageout : let s := mailbox [(1, 0x1000)]
    s.leafOf 0 0x1000 (s.ctx 0).root = .leaf 0x1000001008 0x100000302F 12 ∧ bitOf 0x100000302F 9 = false ∧
    bitsOf 0x100000302F 12 44 * 4096 = 0x1000003000 ∧ isLocal 0x1000003000 = true ∧ isSlab 0x1000003000 = false ∧ isSlab 0x1000001008 = false ∧
    s.spanDeny 0 0x1000003000 (2 ^ 12) false = none ∧ s.spanDeny 0 0x1000003000 (2 ^ 12) true = none ∧ s.bad 0x1000003000 (2 ^ 12) = false ∧
    s.translatedWith 0 true 0 0 0x1000 = [] ∧ 0x1000001008 + 8 ≤ 0x1000003000 ∧
    (let w := mailbox [(1, 0x1000)] ((mapped).modBk fun b => { b with accs := [{ id := 3, kind := .store, order := 1, va := 0x1000, pa := 0x1000003000 }] })
     w.translatedWith 0 true 0 0 0x1000 ≠ []) := by decide +kernel
theorem witness_PackageEvents_pagein :
    let s := mailbox [(2, 0x1000003000)] ((mapped 0x700000002).putMem 0x10000000001000 ([0, 16] ++ List.replicate 10 0 ++ [7, 0, 0, 0, 12, 15] ++ List.replicate 46 0))
    let tag := s.memBytes 0x10000000001000 64
    let v := natOfBytes tag
    [12, 16, 21, 30].find? (fun log => bitsOf (natOfBytes (s.memBytes (0x10000000000000 + 2 ^ log) 64)) 128 8 == log) = some 12 ∧
    entryAt s 0 (bitsOf v 0 80) (levelOf 12) 8 (s.ctx 0).root = some 0x1000001008 ∧ bitsOf (s.memNat 0x1000001008 8) 0 4 = 2 ∧ isSlab 0x1000001008 = false ∧
    0x1000003000 % 2 ^ 12 = 0 ∧ s.spanDeny 0 0x1000003000 (2 ^ 12) true = none ∧
    bitOf (s.ctx 0).mode 1 = false ∧ bitsOf v 80 12 = 0 ∧ bitsOf v 96 32 = bitsOf (s.memNat 0x1000001008 8) 32 32 ∧
    ({ s with ctxs := [(1, { world := 255 })] } : State).worldOf 1 ≠ 0 ∧ bitsOf v 80 12 ≠ 4095 ∧ bitOf 2 1 = true := by decide +kernel
theorem witness_PackageEvents_lglaunch : (((mailbox []).readHome 0 0 0).1.checkMembers 0 []).2 = some [] ∧ (mailbox []).spanDeny 0 0 0 false = none ∧
    (let s := mailbox [(2, 0x1000003000)]
     s.spanDeny 0 0x1000003000 16 false = none ∧ s.bad 0x1000003000 16 = false) ∧
    (((mailbox [(0, 0x10000)] ((mapped).putMem 0x1000003000 (List.replicate 46 0 ++ [128, 3]))).checkMembers 0 [(0x1000, 0)]).2.isSome = true) ∧
    ((mailbox []).league 63).state = 0 ∧ (({ (mailbox []) with leagues := [(63, { state := 2 })] } : State).league 63).state ≠ 0 := by decide +kernel
theorem witness_PackageEvents_notify : let s := { mailbox [] with ev := { v := 0x1000 } }
    s.worldOf (s.world 0).notifyCtx = 0 ∧ (s.ctx (s.world 0).notifyCtx).loaded = true ∧
    (BitVec.ofNat 16 (s.world 0).notifyH ++ s.ev.v : Addr).toNat % 64 = 0 ∧ (s.walk 0 0 0x1000 (needOf 3 64) false).2.toOption.any (fun e =>
      e.peer.isNone && isLocal (e.at 0x1000) && !isSlab (e.at 0x1000) && !(s.walk 0 0 0x1000 (needOf 3 64) false).1.bad (e.at 0x1000) 64) = true ∧ (0x1001 : Addr).toNat % 64 ≠ 0 := by decide +kernel
theorem witness_PackageEvents_firewall :
    (let d := ({} : Die)
     d.fwRefused 1023 (fwWritten (d.fwAt 1023) true 5) = false ∧ 1023 < 1024 ∧
     (({ fw := [(5, (0, 0x8000000000000000))] } : Die).fwAt 5).2.getLsbD 63 = true) ∧ ({ w := 255 } : EvArgs).w ≠ 0 ∧ (s0.die 0).state = .released ∧ (s0.die 1).state ≠ .released ∧
    ({ reg := .ramp } : EvArgs).reg = .ramp ∧ s0.tearing 0 = false ∧
    ({ s0 with pkg := { teardowns := [{ world := 255, reason := 0, nonce := [], start := 0 }] } } : State).tearing 255 = true := by decide +kernel

/-- League 63 and peer 1023 on the package. -/
def league (l : League) (e : Peer := {}) : State := { s0 with leagues := [(63, l)], peers := [(1023, e)], ev := { n := 63 } }
theorem witness_FabricAndLeagueEvents_peers :
    let o : PeerOut := { id := 7, die := 0, core := 0, use := .access 1 3 }
    let a : Acc := { acc (.load false) with st := .sent, peer := some 1023 }
    let q : PeerReq := { pa := a.pa, size := 8, write := false, data := 0 }
    let s := fun f => { withBank { bank with accs := [a] } with peers := [(1023, { ports := 1, out := [o] })], ev := { n := 1023, id := 7, flag := f } }
    ((s false).peer 1023).out = [o] ∧ o.id = (s false).ev.id ∧ ((s false).core 0).holderOf 1 = some 0 ∧ ((s false).bank 0 0).acc? 3 = some a ∧
    (((s false).bank 0 0).accs.map (·.id)).Nodup ∧ ((s false).bank 0 0).spec = none ∧ (s true).ev.flag = true ∧
    ((league {}).peer 1023).out.find? (fun o => o.id == 0) = none ∧
    (((s true).modBank 0 0 fun b => { b with spec := some { region with order := 0 } }).bank 0 0).spec = some { region with order := 0 } ∧
    0 < a.order ∧
    (let t := (s false).modDie 0 fun d => { d with holding := [⟨1023, 0, .access 1 3, q⟩] }
     (t.die 0).holding = [⟨1023, 0, .access 1 3, q⟩] ∧ dieOf 0 = t.ev.die ∧ (t.peer 1023).fenced = false ∧
     (((t.peer 1023).out.filter (fun o => o.die == 0)).length < (t.peer 1023).budget) ∧
     1 ≤ (((t.peer 1023).out.filter (fun o => o.die == 0)).length)) ∧
    ((league {}).peer 1023).ports = 0 ∧ ((s true).peer 1023).ports ≠ 0 := by decide +kernel
theorem witness_FabricAndLeagueEvents_timeout (s : State) : let o : PeerOut := { id := 7, die := 0, core := 0, use := .code 1 0, ns := s.ns }
    s.ns < o.ns + 2000000 ∧ ∃ n : Nat, { o with ns := n }.ns ≤ s.ns := ⟨by simp, s.ns, Nat.le_refl _⟩
/-- Every bank of cluster 0 is being refreshed. -/
def refreshed : State := s0.modCluster 0 fun k => { k with refresh := (List.range 16).map fun i => (i, 1) }
theorem witness_FabricAndLeagueEvents_refresh : refreshed.refreshing 0x1000000000 = true := by
  have h : ∀ i, i < 16 → (mapGet (fun _ => 0) ((List.range 16).map fun i => (i, 1)) i != 0) = true := by decide
  exact (congrArg (· && true) (h _ (Nat.mod_lt _ (by decide)))).trans rfl
theorem witness_FabricAndLeagueEvents_outside : let q : PeerReq := { write := true, pa := 0x1000000000, size := 256, data := 5 }
    1 ≤ q.size ∧ q.size ≤ 256 ∧ q.op = none ∧ s0.spanDeny 0 q.pa q.size true = none ∧ isMmio q.pa = false ∧
    isSlab q.pa = false ∧ isSlab (q.pa + q.size - 1) = false ∧ s0.spanDeny 255 q.pa q.size true ≠ none ∧
    (s0.ioUp 0 || s0.ioUp 1) = false ∧ s0.refreshing q.pa = false  ∧ ((mailbox []).ioUp 0 || (mailbox []).ioUp 1) = true := by decide +kernel
theorem witness_FabricAndLeagueEvents_leagues :
    ((league { state := 1, t := 0 }).league 63).state = 1 ∧ (0 : Nat) ≤ (league {}).ns ∧ ((league { state := 2 }).league 63).state = 2 ∧
    ((league { state := 3 }).league 63).state = 3 ∧ ((league { state := 2, judged := false, n := 2, heard := [9] }).league 63).judged = false ∧
    2 - 1 ≤ [9].length ∧ ((league {}).league 63).members = [] ∧ (0 : Nat) + 1000 * 50 < 50001 ∧
    ((league { state := 1 }).popMembers 63 []).isSome = true ∧ (league {}).popMembers 63 [(0x1000000000, 0, 0)] = none ∧
    ({ ({} : State) with clusters := [(0, { power := .on })] } : State).freeFor [] = 0 := by
  refine ⟨?_, Nat.zero_le _, ?_, ?_, ?_, ?_, ?_, ?_, ?_, ?_, ?_⟩ <;> decide +kernel
theorem witness_FabricAndLeagueEvents_late (s : State) : ∃ t : Nat, s.ns < t ∧ s.ns + 10000 < t ∧ ∃ g : Nat, s.ns ≤ 0 + 1000 * g ∧ ∃ a : Nat, 0 + 1000 * g < a :=
  ⟨s.ns + 10001, by omega, by omega, s.ns, by omega, 1000 * s.ns + 1, by omega⟩
theorem witness_FabricAndLeagueEvents_preempt :
    let l : Bank := { bank with task := some { task with league := some 5 } }
    let core : Core := { banks := [(0, l), (1, l), (2, bank), (3, l)] }
    let s := { ((({} : State).modCluster 0 fun k => { k with power := .on }).putMem 0x100000002C [1]) with
      cores := [(0, core), (1, core), (2, core), (3, core)], ev := { n := 63 },
      leagues := [(63, { state := 1, l := 1, members := [(0x1000000000, 0, 0)] })] }
    ((s.league 63).members.flatMap (fun m => s.memberCores m)).eraseDups = [0, 1, 2, 3] ∧ (s.league 63).l = 1 ∧ (s.league 63).t = 0 ∧
    s.freeFor [0, 1, 2, 3] = 0 ∧ (∀ k ∈ [0, 1, 2, 3], (s.core k).issue.exch = none) ∧ ((s.core 0).bank 4).task = none ∧
    (s.cluster (clusterOf 0)).power = .on ∧ ((s.core 0).bank 2).task.any (fun t => t.league.isNone) = true ∧
    (∀ p, p < 2 → ((s.core 0).bank p).task.all (fun t => t.league.isSome) = true) := by decide +kernel

/-! ### One step each: values worked out by hand from the rules -/

/-- What the last result in flight writes, and its FLAGS bits. -/
def lands (o : Host.Outcome State Fault Refusal) : Option (RegWrite × BitVec 8) :=
  match o with
  | .next t => t.bk.flight.getLast?.map fun l => (l.write, l.flags)
  | _ => none
/-- s1 = −7, s2 = 2, s4 = −2^63, s5 = −1; v1 and v2 hold a word in every lane. -/
def sx : State := s0.modBk fun b => { b with s := [(1, -7), (2, 2), (4, 0x8000000000000000), (5, -1)] }
def vx (x y : Nat) : State := s0.modCr fun c => { c with vfile := [(1, BitVec.ofNat 2048 x), (2, BitVec.ofNat 2048 y)] }
/-- The lane of the last vector result in flight. -/
def lane (o : Host.Outcome State Fault Refusal) (w i : Nat) : Option (Nat × BitVec 8) :=
  match o with
  | .next t => t.bk.flight.getLast?.bind fun l => match l.write with | .v _ v _ => some ((v.extractLsb' (w * i) w).toNat, l.flags) | _ => none
  | _ => none
/-- R62, R63. -/
theorem test_div_truncates : lands (exec (.div on 3 1 2) sx) = some (.s 3 (-3), 0) := by decide
theorem test_rem_sign : lands (exec (.rem on 3 1 2) sx) = some (.s 3 (-1), 0) := by decide
theorem test_div_overflow : lands (exec (.div on 3 4 5) sx) = some (.s 3 0x8000000000000000, 0) := by decide
theorem test_divu_by_zero : lands (exec (.divu on 3 1 0) sx) = some (.s 3 (-1), 0) := by decide
theorem test_mulh : lands (exec (.mulh on 3 1 5) sx) = some (.s 3 0, 0) := by decide
theorem test_mulhu : lands (exec (.mulhu on 3 5 5) sx) = some (.s 3 0xFFFFFFFFFFFFFFFE, 0) := by decide
/-- A write to s0 is discarded (R11). -/
theorem test_s0_discards : lands (exec (.add on 0 1 2) sx) = some (.none, 0) := by decide
/-- R64: the immediate is sign-extended from 17 bits. -/
theorem test_addi_negative : lands (exec (.addi on 3 2 0x1FFFF) sx) = some (.s 3 1, 0) := by decide
/-- R126: bytes wrap; R130: VADDS saturates and raises SAT. -/
theorem test_vadd_wraps : lane (exec (.vadd on 1 0 3 1 2) (vx 200 100)) 8 0 = some (44, 0) := by decide +kernel
theorem test_vadds_saturates : lane (exec (.vadds on 1 3 1 2) (vx 200 100)) 8 0 = some (255, 0x40) := by decide +kernel
/-- R107: 1.0 + 2^-24 in F32 is a tie, which goes to the even neighbour, and is inexact; toward plus infinity it goes up. -/
theorem test_vadd_f32_tie : (lane (exec (.vadd on 10 0 3 1 2) (vx 0x3F800000 0x33800000)) 32 0).map (·.1) = some 0x3F800000 := by decide +kernel
theorem test_vadd_f32_inf : (lane (exec (.vadd on 10 0 3 1 2) (vx 0x7F7FFFFF 0x7F7FFFFF)) 32 0).map (·.1) = some 0x7F800000 := by decide +kernel
theorem test_vsqrt_f32 : lane (exec (.vsqrt on 10 0 3 1) (vx 0x40800000 0)) 32 0 = some (0x40000000, 0) := by decide +kernel
theorem test_vdiv_f32_third : (lane (exec (.vdiv on 10 0 3 1 2) (vx 0x3F800000 0x40400000)) 32 0).map (·.1) = some 0x3EAAAAAB := by decide +kernel
/-- The check value of CRC-32C over the digits 1 to 9 (R153). -/
theorem test_crc32c : crc32c ([49, 50, 51, 52, 53, 54, 55, 56, 57] : List Byte) = 0xE3069283 := by decide +kernel
/-- The SHA3-512 digest of the empty message, as published with FIPS 202 (R2). -/
theorem test_sha3_empty : natOfBytes (sha3 []).reverse = 0xA69F73CCA23A9AC5C8B567DC185A756E97C982164FE25859E0D1DCC1475C80A615B2123AF1F5F94C11E3E9402C3AC558F500199D95B6D3E301758586281DCD26 := by
  decide +kernel
/-- R137, R139: a store's lowest byte comes first, and a load of its bytes is zero-extended. -/
theorem test_scratch_order : lands (exec (.stsW on 0 1 8) sx) = some (.scratch 8 [some 0xF9, some 0xFF, some 0xFF, some 0xFF], 0) := by decide
/-- R238: a load at address 8 of a mapped page joins the queue with its physical address. -/
theorem test_load_joins : (match exec (.ldD on 3 0 8) s0 with | .next t => t.bk.accs.map (fun a => (a.pa, a.size)) | _ => []) = [(0x1000000008, 8)] := by
  decide

end Sys2Proof.Tests
end

section
/-!
# The decoder's answers, encoded again

Each row of the opcode grids (R50, R52, R53) reads a field combination back: the row's checks are what the encoder needs to rebuild every field
that the instruction does not hold as it stands. The facts about single fields come first, then one lemma per row.
-/

namespace Sys2Proof

open Machine

/-! ### Fields cut narrower and wider, cut apart and put together -/

theorem setWidth_narrow {n k : Nat} {x : BitVec n} (h : x.toNat < 2 ^ k) : (x.setWidth k).setWidth n = x := by
  apply BitVec.eq_of_toNat_eq
  rw [BitVec.toNat_setWidth, BitVec.toNat_setWidth, Nat.mod_eq_of_lt h, Nat.mod_eq_of_lt x.isLt]

theorem lo4_narrow {x : BitVec 6} (h : lo4 x = true) : (x.setWidth 4).setWidth 6 = x :=
  setWidth_narrow (by simpa [lo4] using h)

theorem lo4v_narrow {x : BitVec 11} (h : lo4v x = true) : (x.setWidth 4).setWidth 11 = x :=
  setWidth_narrow (by simpa [lo4v] using h)

theorem lo6v_narrow {x : BitVec 11} (h : lo6v x = true) : (x.setWidth 6).setWidth 11 = x :=
  setWidth_narrow (by simpa [lo6v] using h)

theorem lo6v_narrow_ne {x : BitVec 11} {n : Nat} (h : lo6v x = true) (hn : x.toNat ≠ n) : (x.setWidth 6).toNat ≠ n := by
  have hlt : x.toNat < 64 := by simpa [lo6v] using h
  rw [BitVec.toNat_setWidth]
  omega

/-- The fields of a word, put side by side again. -/
theorem append_fields2 {a b : Nat} (x : BitVec (a + b)) : x.extractLsb' b a ++ x.extractLsb' 0 b = x :=
  (BitVec.extractLsb'_append_extractLsb'_eq_extractLsb' (by omega)).trans BitVec.extractLsb'_eq_self

theorem append_fields3 {a b c : Nat} (x : BitVec (a + b + c)) : (x.extractLsb' (b + c) a ++ x.extractLsb' c b) ++ x.extractLsb' 0 c = x := by
  rw [BitVec.extractLsb'_append_extractLsb'_eq_extractLsb' (Nat.add_comm b c)]
  exact append_fields2 x

theorem append_fields4 {a b c d : Nat} (x : BitVec (a + b + c + d)) :
    ((x.extractLsb' (b + c + d) a ++ x.extractLsb' (c + d) b) ++ x.extractLsb' d c) ++ x.extractLsb' 0 d = x := by
  rw [BitVec.extractLsb'_append_extractLsb'_eq_extractLsb' (by omega : b + c + d = c + d + b)]
  exact append_fields3 x

/-- The top field of a word by its value. -/
theorem top_field_eq {n k : Nat} {v : BitVec n} (x : BitVec (n + k)) (h : x.toNat / 2 ^ k = v.toNat) : v = x.extractLsb' k n := by
  apply BitVec.eq_of_toNat_eq
  rw [BitVec.extractLsb'_toNat, Nat.shiftRight_eq_div_pow, h, Nat.mod_eq_of_lt v.isLt]

/-- A field that stands above the lower word of two. -/
theorem extract_upper {m n k len : Nat} (x : BitVec m) (y : BitVec n) (start : Nat) (h : start = n + k) :
    (x ++ y).extractLsb' start len = x.extractLsb' k len := by
  subst h
  rw [BitVec.extractLsb'_append_eq_of_le (by omega), Nat.add_sub_cancel_left]

theorem extract_lower {m n : Nat} (x : BitVec m) (y : BitVec n) : (x ++ y).extractLsb' 0 n = y :=
  (BitVec.extractLsb'_append_eq_of_add_le (by omega)).trans BitVec.extractLsb'_eq_self

/-! ### The immediates of the S format (R36) and the operands of the V and M formats that hold several fields -/

theorem bitfield_imm {x : BitVec 17} {v : BitVec 5} (h : x.toNat / 2 ^ 12 = v.toNat) :
    (v ++ x.extractLsb' 6 6) ++ x.extractLsb' 0 6 = x := by
  rw [top_field_eq (n := 5) (k := 12) x h]
  exact append_fields3 (a := 5) (b := 6) (c := 6) x

theorem semaphore_imm {x : BitVec 17} (h : x.toNat < 65536) : (0#1 ++ x.extractLsb' 8 8) ++ x.extractLsb' 0 8 = x := by
  rw [top_field_eq (n := 1) (k := 16) (v := 0#1) x (Nat.div_eq_of_lt h)]
  exact append_fields3 (a := 1) (b := 8) (c := 8) x

theorem scoped_imm (x : BitVec 17) : (x.extractLsb' 14 3 ++ x.extractLsb' 11 3) ++ x.extractLsb' 0 11 = x :=
  append_fields3 (a := 3) (b := 3) (c := 11) x

theorem qinit_imm {x : BitVec 17} (h : x.toNat < 4096) :
    ((0#5 ++ x.extractLsb' 11 1) ++ x.extractLsb' 5 6) ++ x.extractLsb' 0 5 = x := by
  rw [top_field_eq (n := 5) (k := 12) (v := 0#5) x (Nat.div_eq_of_lt h)]
  exact append_fields4 (a := 5) (b := 1) (c := 6) (d := 5) x

theorem cd_imm {x : BitVec 17} (h : x.toNat < 512) : (0#8 ++ x.extractLsb' 7 2) ++ x.extractLsb' 0 7 = x := by
  rw [top_field_eq (n := 8) (k := 9) (v := 0#8) x (Nat.div_eq_of_lt h)]
  exact append_fields3 (a := 8) (b := 2) (c := 7) x

theorem tlbinv_imm {x : BitVec 17} {v : BitVec 2} (h : x.toNat < 8) (hv : (x.extractLsb' 0 2).toNat = v.toNat) :
    (0#14 ++ x.extractLsb' 2 1) ++ v = x := by
  rw [top_field_eq (n := 14) (k := 3) (v := 0#14) x (Nat.div_eq_of_lt h), ← BitVec.eq_of_toNat_eq hv]
  exact append_fields3 (a := 14) (b := 1) (c := 2) x

theorem scrubr_imm {x : BitVec 17} {v : BitVec 2} (h : x.toNat < 1024) (hv : (x.extractLsb' 0 2).toNat = v.toNat) :
    (0#7 ++ x.extractLsb' 2 8) ++ v = x := by
  rw [top_field_eq (n := 7) (k := 10) (v := 0#7) x (Nat.div_eq_of_lt h), ← BitVec.eq_of_toNat_eq hv]
  exact append_fields3 (a := 7) (b := 8) (c := 2) x

theorem displacement_upper (x y : BitVec 11) : ((x ++ y : BitVec 22)).extractLsb' 11 11 = x :=
  (extract_upper (k := 0) x y 11 rfl).trans BitVec.extractLsb'_eq_self

theorem displacement_lower (x y : BitVec 11) : ((x ++ y : BitVec 22)).extractLsb' 0 11 = y :=
  extract_lower x y

theorem part_gap {x : BitVec 11} (h : x.toNat < 128) : (0#4 ++ x.extractLsb' 3 4) ++ x.extractLsb' 0 3 = x := by
  rw [top_field_eq (n := 4) (k := 7) (v := 0#4) x (Nat.div_eq_of_lt h)]
  exact append_fields3 (a := 4) (b := 4) (c := 3) x

theorem affset_entry (x : BitVec 11) : x.extractLsb' 4 7 ++ x.setWidth 4 = x := by
  rw [BitVec.setWidth_eq_extractLsb' (by decide)]
  exact append_fields2 (a := 7) (b := 4) x

theorem carry_field {x : BitVec 11} (h : lo6v x = true) : (0#5 ++ x.extractLsb' 4 2) ++ x.setWidth 4 = x := by
  rw [BitVec.setWidth_eq_extractLsb' (by decide), top_field_eq (n := 5) (k := 6) (v := 0#5) x (Nat.div_eq_of_lt (by simpa [lo6v] using h))]
  exact append_fields3 (a := 5) (b := 2) (c := 4) x

theorem mrep_fmt {x : BitVec 4} (h : x.toNat < 8) :
    ((0#1 ++ BitVec.ofBool x[2]) ++ BitVec.ofBool x[1]) ++ BitVec.ofBool x[0] = x := by
  revert x; decide

/-! ### Answers that read their fields back -/

/-- What an answer `r` of a decoder owes for the fields `f`: an instruction other than a no-op is well-formed and `enc` gives `f` back. -/
def ReadsBack {F : Type} (enc : Instr → Option F) (f : F) (r : Option Instr) : Prop :=
  ∀ i, r = some i → isNoop i = false → i.wf = true ∧ enc i = some f

namespace ReadsBack
variable {F : Type} {enc : Instr → Option F} {f : F} {i : Instr} {r r' : Option Instr}

theorem of_none : ReadsBack enc f none := nofun

theorem of_noop (h : isNoop i = true) : ReadsBack enc f (some i) := by
  rintro _ ⟨⟩ hn
  rw [h] at hn
  cases hn

theorem of_some (hw : i.wf = true) (he : enc i = some f) : ReadsBack enc f (some i) := by
  rintro _ ⟨⟩ -
  exact ⟨hw, he⟩

theorem of_ite {p : Prop} [Decidable p] (h : p → ReadsBack enc f r) (h' : ¬ p → ReadsBack enc f r') :
    ReadsBack enc f (if p then r else r') := by
  split
  · next hp => exact h hp
  · next hp => exact h' hp

theorem of_when {p : Prop} [Decidable p] (h : p → ReadsBack enc f r) : ReadsBack enc f (if p then r else .none) :=
  .of_ite h fun _ => .of_none

end ReadsBack

/-! ### The encoders' fields, compared one by one -/

theorem SFields.some_of {f : SFields} {op : BitVec 8} {d a b : BitVec 6} {imm : BitVec 17} (hop : f.op.toNat = op.toNat) (hd : d = f.d)
    (ha : a = f.a) (hb : b = f.b) (hi : imm = f.imm) : some (SFields.of op ⟨f.pg, f.pn⟩ d a b imm) = some f := by
  rw [hd, ha, hb, hi, ← BitVec.eq_of_toNat_eq hop]; rfl

theorem VFields.some_of {f : VFields} {op : BitVec 8} {ty : BitVec 4} {vd va vb vc : BitVec 11} {m : BitVec 3}
    (hop : f.op.toNat = op.toNat) (ht : ty = f.ty) (hd : vd = f.vd) (ha : va = f.va) (hb : vb = f.vb) (hc : vc = f.vc) (hm : m = f.mod) :
    some (VFields.of op ⟨f.pg, f.pn⟩ ty vd va vb vc m) = some f := by
  rw [ht, hd, ha, hb, hc, hm, ← BitVec.eq_of_toNat_eq hop]; rfl

theorem MFields.some_of {f : MFields} {op : BitVec 6} {td oa ob fmt acc ws wt ss} (hop : f.op.toNat = op.toNat) (ht : td = f.td) (ha : oa = f.oa)
    (hb : ob = f.ob) (hf : fmt = f.fmt) (hacc : acc = f.acc) (hws : ws = f.ws) (hwt : wt = f.wt) (hss : ss = f.ss) :
    some (MFields.mk op td oa ob fmt acc ws wt ss) = some f := by
  rw [ht, ha, hb, hf, hacc, hws, hwt, hss, ← BitVec.eq_of_toNat_eq hop]

theorem XFields.some_of {f : XFields} {op : BitVec 6} {vd va mod} (hop : f.op.toNat = op.toNat) (hd : vd = f.vd) (ha : va = f.va)
    (hm : mod = f.mod) : some (XFields.mk op vd va mod) = some f := by
  rw [hd, ha, hm, ← BitVec.eq_of_toNat_eq hop]

theorem CFields.some_of {f : CFields} {op : BitVec 6} {cd ws wt ss si cm z} (hop : f.op.toNat = op.toNat) (hcd : cd = f.cd) (hws : ws = f.ws)
    (hwt : wt = f.wt) (hss : ss = f.ss) (hsi : si = f.si) (hcm : cm = f.cm) (hz : z = f.z) : some (CFields.mk op cd ws wt ss si cm z) = some f := by
  rw [hcd, hws, hwt, hss, hsi, hcm, hz, ← BitVec.eq_of_toNat_eq hop]

/-! ### Forms that several opcodes share -/

/-- BR, CALL and LOOP hold one offset over four fields (R36, R73, R81). -/
theorem offset_readsBack {f : SFields} {op : BitVec 8} (hop : f.op.toNat = op.toNat) :
    let off : BitVec 35 := ((f.d ++ f.a) ++ f.b) ++ f.imm
    some (SFields.of op ⟨f.pg, f.pn⟩ (off.extractLsb' 29 6) (off.extractLsb' 23 6) (off.extractLsb' 17 6) (off.extractLsb' 0 17)) = some f := by
  refine SFields.some_of hop ?_ ?_ ?_ (extract_lower _ _)
  · refine (extract_upper (k := 12) _ f.imm 29 rfl).trans ?_
    refine (extract_upper (k := 6) _ f.b 12 rfl).trans ?_
    exact (extract_upper (k := 0) f.d f.a 6 rfl).trans BitVec.extractLsb'_eq_self
  · refine (extract_upper (k := 6) _ f.imm 23 rfl).trans ?_
    exact (extract_upper (k := 0) (f.d ++ f.a) f.b 6 rfl).trans (extract_lower _ _)
  · exact (extract_upper (k := 0) _ f.imm 17 rfl).trans (extract_lower _ _)

/-- The vector shifts, by a register or by an immediate (R128). -/
theorem shift_readsBack {f : VFields} {op : BitVec 8} {mk : ShiftCount → Instr} (hop : f.op.toNat = op.toNat)
    (hw : ∀ c, (mk c).wf = (tyInt f.ty && shiftOk f.ty c))
    (hvec : ∀ vb, encodeVFields (mk (.vec vb)) = some (.of op ⟨f.pg, f.pn⟩ f.ty f.vd f.va vb 0 0))
    (himm : ∀ k, encodeVFields (mk (.imm k)) = some (.of op ⟨f.pg, f.pn⟩ f.ty f.vd f.va (k.setWidth 11) 0 1)) :
    ReadsBack encodeVFields f
      (if f.vc == 0 && tyInt f.ty then
        if f.mod == 0 then some (mk (.vec f.vb))
        else if f.mod == 1 && lo6v f.vb && shiftOk f.ty (.imm (f.vb.setWidth 6)) then some (mk (.imm (f.vb.setWidth 6)))
        else none
      else none) := by
  refine .of_when fun h => .of_ite (fun hm => .of_some ?_ ((hvec _).trans (VFields.some_of hop ?_ ?_ ?_ ?_ ?_ ?_)))
      fun _ => .of_when fun hm => .of_some ?_ ((himm _).trans (VFields.some_of hop ?_ ?_ ?_ ?_ ?_ ?_))
  all_goals simp_all [shiftOk, lo6v_narrow]

/-- The slice instructions of a tile, by an immediate or by a scalar register (R169); `p` is the check that the vector field without a
register is zero. -/
theorem slice_readsBack {f : VFields} {op : BitVec 8} {vd va : BitVec 11} {mk : SliceIndex → Instr} {p : Bool} (hop : f.op.toNat = op.toNat)
    (hd : p = true → vd = f.vd) (ha : p = true → va = f.va)
    (hw : ∀ c, (mk c).wf = tyTile f.ty)
    (himm : ∀ k, encodeVFields (mk (.imm k)) = some (.of op ⟨f.pg, f.pn⟩ f.ty vd va (k.setWidth 11) ((f.vc.setWidth 4).setWidth 11) 0))
    (hreg : ∀ b, encodeVFields (mk (.reg b)) = some (.of op ⟨f.pg, f.pn⟩ f.ty vd va (b.setWidth 11) ((f.vc.setWidth 4).setWidth 11) 1)) :
    ReadsBack encodeVFields f
      (if p && lo4v f.vc && tyTile f.ty then
        if f.mod == 0 && f.vb.toNat < 128 then some (mk (.imm (f.vb.setWidth 7)))
        else if f.mod == 1 && lo6v f.vb then some (mk (.reg (f.vb.setWidth 6)))
        else none
      else none) := by
  refine .of_when fun h => .of_ite (fun hm => .of_some ?_ ((himm _).trans (VFields.some_of hop ?_ ?_ ?_ ?_ ?_ ?_)))
      fun _ => .of_when fun hm => .of_some ?_ ((hreg _).trans (VFields.some_of hop ?_ ?_ ?_ ?_ ?_ ?_))
  all_goals simp_all [setWidth_narrow, lo4v_narrow, lo6v_narrow]

/-! ### The rows of the grids

In each row the opcodes whose fields are whole registers and immediates are one case: the row checks that an unused field is zero and that a
register number fits, and the encoder writes just that. The opcodes that cut a field into several operands have cases of their own. -/

theorem decodeSRow0_readsBack (f : SFields) : ReadsBack encodeSFields f (decodeSRow0 f) := by
  unfold decodeSRow0
  split
  case h_1 => exact .of_noop rfl
  case h_17 => exact .of_none
  all_goals
    refine .of_when fun h => .of_some rfl (SFields.some_of ‹_› ?_ ?_ ?_ ?_)
    all_goals simp_all

theorem decodeSRow1_readsBack (f : SFields) : ReadsBack encodeSFields f (decodeSRow1 f) := by
  unfold decodeSRow1
  split
  case h_17 => exact .of_none
  all_goals
    refine .of_when fun h => .of_some rfl (SFields.some_of ‹_› ?_ ?_ ?_ ?_)
    all_goals simp_all [setWidth_narrow]

theorem decodeSRow2_readsBack (f : SFields) : ReadsBack encodeSFields f (decodeSRow2 f) := by
  unfold decodeSRow2
  split
  case h_17 => exact .of_none
  case h_15 => -- EXT
    refine .of_when fun h => ?_
    simp only [Bool.and_eq_true, decide_eq_true_eq, beq_iff_eq] at h
    obtain ⟨⟨hb, hlt⟩, hle⟩ := h
    have hbit : f.imm.getLsbD 12 = f.imm.toNat.testBit 12 := rfl
    rw [Nat.testBit_eq_decide_div_mod_eq] at hbit
    cases hs : f.imm.getLsbD 12
    all_goals
      rw [hs] at hbit
      exact .of_some (decide_eq_true hle) (SFields.some_of ‹_› rfl rfl hb.symm (bitfield_imm (by simp at hbit ⊢; omega)))
  case h_16 => -- INS
    refine .of_when fun h => ?_
    simp only [Bool.and_eq_true, decide_eq_true_eq, beq_iff_eq] at h
    obtain ⟨⟨hb, hle⟩, hlt⟩ := h
    exact .of_some (decide_eq_true hle) (SFields.some_of ‹_› rfl rfl hb.symm (bitfield_imm (Nat.div_eq_of_lt hlt)))
  case h_13 => -- PSET
    refine .of_when fun h => .of_some (decide_eq_true ?_) (SFields.some_of ‹_› ?_ ?_ ?_ ?_)
    all_goals simp_all [lo4_narrow]
    · omega
    · exact setWidth_narrow (by omega)
  all_goals
    refine .of_when fun h => .of_some rfl (SFields.some_of ‹_› ?_ ?_ ?_ ?_)
    all_goals simp_all [lo4_narrow]

theorem decodeSRow3_readsBack (f : SFields) : ReadsBack encodeSFields f (decodeSRow3 f) := by
  unfold decodeSRow3
  split
  case h_10 => exact .of_none
  all_goals
    refine .of_when fun h => .of_some rfl (SFields.some_of ‹_› ?_ ?_ ?_ ?_)
    all_goals simp_all [setWidth_narrow, lo4_narrow]



theorem decodeSRow4_readsBack (f : SFields) : ReadsBack encodeSFields f (decodeSRow4 f) := by
  unfold decodeSRow4
  split
  case h_17 => exact .of_none
  case h_1 => exact .of_some rfl (offset_readsBack ‹_›)
  case h_3 => exact .of_some rfl (offset_readsBack ‹_›)
  case h_6 => exact .of_some rfl (offset_readsBack ‹_›)
  case h_13 => -- RETIRE: bits [9:8] say which form
    refine .of_when fun h => ?_
    simp only [Bool.and_eq_true, decide_eq_true_eq, beq_iff_eq] at h
    obtain ⟨⟨⟨hd, ha⟩, hb⟩, hlt⟩ := h
    have hcode : f.imm = (BitVec.ofNat 9 (f.imm.extractLsb' 8 2).toNat) ++ f.imm.extractLsb' 0 8 := by
      have := append_fields2 (a := 9) (b := 8) f.imm
      rw [← top_field_eq (n := 9) (k := 8) (v := BitVec.ofNat 9 (f.imm.extractLsb' 8 2).toNat) f.imm (by simp; omega)] at this
      exact this.symm
    split
    · next hk =>
      refine .of_when fun hz => .of_some rfl (SFields.some_of ‹_› hd.symm ha.symm hb.symm ?_)
      rw [hcode, hk, eq_of_beq hz]
      rfl
    · next hk =>
      refine .of_some rfl (SFields.some_of ‹_› hd.symm ha.symm hb.symm ?_)
      rw [hk] at hcode
      exact hcode.symm
    · next hk =>
      refine .of_when fun hz => .of_some rfl (SFields.some_of ‹_› hd.symm ha.symm hb.symm ?_)
      rw [hcode, hk, eq_of_beq hz]
      rfl
    · exact .of_none
  all_goals
    refine .of_when fun h => .of_some rfl (SFields.some_of ‹_› ?_ ?_ ?_ ?_)
    all_goals simp_all [setWidth_narrow, lo4_narrow, semaphore_imm]

theorem decodeSRow5_readsBack (f : SFields) : ReadsBack encodeSFields f (decodeSRow5 f) := by
  unfold decodeSRow5
  split
  case h_3 => exact .of_none
  all_goals
    refine .of_when fun h => .of_some rfl (SFields.some_of ‹_› ?_ ?_ ?_ ?_)
    all_goals simp_all

theorem decodeSRow6_readsBack (f : SFields) : ReadsBack encodeSFields f (decodeSRow6 f) := by
  have himm := scoped_imm f.imm
  unfold decodeSRow6
  split
  case h_17 => exact .of_none
  case h_12 | h_13 => -- LDA.D, STL.D
    refine .of_when fun h => .of_some (decide_eq_true ?_) (SFields.some_of ‹_› ?_ ?_ ?_ ?_)
    all_goals simp_all [lo4_narrow]
  all_goals
    refine .of_when fun h => .of_some rfl (SFields.some_of ‹_› ?_ ?_ ?_ ?_)
    all_goals simp_all [lo4_narrow]

theorem decodeSRow7_readsBack (f : SFields) : ReadsBack encodeSFields f (decodeSRow7 f) := by
  have himm := scoped_imm f.imm
  unfold decodeSRow7
  split
  case h_16 => exact .of_none
  all_goals
    refine .of_when fun h => .of_some ?_ (SFields.some_of ‹_› ?_ ?_ ?_ ?_)
    all_goals simp_all [lo4_narrow, Instr.wf]

theorem decodeSRow8_readsBack (f : SFields) : ReadsBack encodeSFields f (decodeSRow8 f) := by
  unfold decodeSRow8
  split
  case h_14 => exact .of_none
  all_goals
    refine .of_when fun h => .of_some rfl (SFields.some_of ‹_› ?_ ?_ ?_ ?_)
    all_goals simp_all [lo4_narrow, qinit_imm]

theorem decodeSRow9_readsBack (f : SFields) : ReadsBack encodeSFields f (decodeSRow9 f) := by
  unfold decodeSRow9
  split
  case h_7 => exact .of_none
  case h_2 => -- CDADR
    refine .of_when fun h => .of_some ?_ (SFields.some_of ‹_› ?_ ?_ ?_ ?_)
    all_goals simp_all [setWidth_narrow, lo4_narrow, Instr.wf]
    · omega
    · exact setWidth_narrow (by omega)
  all_goals
    refine .of_when fun h => .of_some ?_ (SFields.some_of ‹_› ?_ ?_ ?_ ?_)
    all_goals simp_all [setWidth_narrow, lo4_narrow, cd_imm, Instr.wf]

theorem decodeSRowA_readsBack (f : SFields) : ReadsBack encodeSFields f (decodeSRowA f) := by
  unfold decodeSRowA
  split
  case h_14 => exact .of_none
  case h_5 => -- TLBINV
    refine .of_when fun h => ?_
    simp only [Bool.and_eq_true, decide_eq_true_eq, beq_iff_eq] at h
    obtain ⟨⟨hd, ha⟩, hlt⟩ := h
    split
    · exact .of_some rfl (SFields.some_of ‹_› hd.symm (lo4_narrow ha) rfl (tlbinv_imm hlt ‹_›))
    · exact .of_when fun hz => .of_some rfl (SFields.some_of ‹_› hd.symm (eq_of_beq hz).symm rfl (tlbinv_imm hlt ‹_›))
    · refine .of_when fun hz => ?_
      obtain ⟨ha, hb⟩ := Bool.and_eq_true_iff.1 hz
      exact .of_some rfl (SFields.some_of ‹_› hd.symm (eq_of_beq ha).symm (eq_of_beq hb).symm (tlbinv_imm hlt ‹_›))
    · exact .of_none
  case h_10 => -- JVERIFY
    refine .of_when fun hlt => ?_
    split
    · exact .of_some rfl (SFields.some_of ‹_› rfl rfl rfl (BitVec.eq_of_toNat_eq (Eq.symm ‹_›)))
    · exact .of_when fun hz => .of_some rfl (SFields.some_of ‹_› rfl rfl (eq_of_beq hz).symm (BitVec.eq_of_toNat_eq (Eq.symm ‹_›)))
    · refine .of_when fun hz => ?_
      obtain ⟨ha, hb⟩ := Bool.and_eq_true_iff.1 hz
      exact .of_some rfl (SFields.some_of ‹_› rfl (eq_of_beq ha).symm (eq_of_beq hb).symm (BitVec.eq_of_toNat_eq (Eq.symm ‹_›)))
    · exact .of_none
  case h_12 => -- SCRUBR
    refine .of_when fun hlt => ?_
    split
    · exact .of_when fun ha => .of_some rfl (SFields.some_of ‹_› rfl (lo4_narrow ha) rfl (scrubr_imm hlt ‹_›))
    · refine .of_when fun hz => ?_
      obtain ⟨ha, hb⟩ := Bool.and_eq_true_iff.1 hz
      exact .of_some rfl (SFields.some_of ‹_› rfl (eq_of_beq ha).symm (eq_of_beq hb).symm (scrubr_imm hlt ‹_›))
    · refine .of_when fun hz => ?_
      obtain ⟨ha, hb⟩ := Bool.and_eq_true_iff.1 hz
      exact .of_some rfl (SFields.some_of ‹_› rfl (eq_of_beq ha).symm (eq_of_beq hb).symm (scrubr_imm hlt ‹_›))
    · exact .of_none
  all_goals
    refine .of_when fun h => .of_some rfl (SFields.some_of ‹_› ?_ ?_ ?_ ?_)
    all_goals simp_all [setWidth_narrow]

theorem decodeSFields_readsBack (s1 : Bool) (f : SFields) : ReadsBack encodeSFields f (decodeSFields s1 f) := by
  unfold decodeSFields
  split
  · exact decodeSRow0_readsBack f
  · exact decodeSRow1_readsBack f
  · exact decodeSRow2_readsBack f
  · exact decodeSRow3_readsBack f
  · exact .of_when fun _ => decodeSRow4_readsBack f
  · exact .of_when fun _ => decodeSRow5_readsBack f
  · exact .of_when fun _ => decodeSRow6_readsBack f
  · exact .of_when fun _ => decodeSRow7_readsBack f
  · exact .of_when fun _ => decodeSRow8_readsBack f
  · exact .of_when fun _ => decodeSRow9_readsBack f
  · exact .of_when fun _ => decodeSRowA_readsBack f
  · exact .of_none

theorem decodeVRow0_readsBack (f : VFields) : ReadsBack encodeVFields f (decodeVRow0 f) := by
  unfold decodeVRow0
  split
  case h_1 => exact .of_noop rfl
  case h_17 => exact .of_none
  case h_4 => -- VMUL and VMULHI
    refine .of_when fun h => .of_ite (fun hr => .of_some ?_ (VFields.some_of ‹_› ?_ ?_ ?_ ?_ ?_ ?_))
      fun _ => .of_when fun hm => .of_some ?_ (VFields.some_of ‹_› ?_ ?_ ?_ ?_ ?_ ?_)
    all_goals simp_all [Instr.wf]
  all_goals
    refine .of_when fun h => .of_some ?_ (VFields.some_of ‹_› ?_ ?_ ?_ ?_ ?_ ?_)
    all_goals simp_all [Instr.wf]

theorem decodeVRow1_readsBack (f : VFields) : ReadsBack encodeVFields f (decodeVRow1 f) := by
  unfold decodeVRow1
  split
  case h_17 => exact .of_none
  case h_7 => exact shift_readsBack (mk := .vshl _ _ _ _) ‹_› (fun _ => rfl) (fun _ => rfl) fun _ => rfl
  case h_8 => exact shift_readsBack (mk := .vshr _ _ _ _) ‹_› (fun _ => rfl) (fun _ => rfl) fun _ => rfl
  case h_9 => exact shift_readsBack (mk := .vsar _ _ _ _) ‹_› (fun _ => rfl) (fun _ => rfl) fun _ => rfl
  all_goals
    refine .of_when fun h => .of_some ?_ (VFields.some_of ‹_› ?_ ?_ ?_ ?_ ?_ ?_)
    all_goals simp_all [Instr.wf, lo4v_narrow, lo6v_narrow]

theorem decodeVRow2_readsBack (f : VFields) : ReadsBack encodeVFields f (decodeVRow2 f) := by
  unfold decodeVRow2
  split
  case h_17 => exact .of_none
  case h_7 | h_15 | h_16 => -- VROT, VMVS, VINS
    refine .of_when fun h => .of_ite (fun hm => .of_some ?_ (VFields.some_of ‹_› ?_ ?_ ?_ ?_ ?_ ?_))
      fun _ => .of_when fun hm => .of_some ?_ (VFields.some_of ‹_› ?_ ?_ ?_ ?_ ?_ ?_)
    all_goals simp_all [Instr.wf, elemIndexOk, setWidth_narrow, lo6v_narrow]
  case h_13 | h_14 => -- VLDS, VSTS
    refine .of_when fun h => ?_
    simp only [Bool.and_eq_true, beq_iff_eq, bne_iff_ne] at h
    obtain ⟨⟨⟨ha, hm⟩, hty⟩, hne⟩ := h
    exact .of_some (Bool.and_eq_true_iff.2 ⟨hty, bne_iff_ne.2 (lo6v_narrow_ne ha hne)⟩)
      (VFields.some_of ‹_› rfl rfl (lo6v_narrow ha) (displacement_upper _ _) (displacement_lower _ _) hm.symm)
  all_goals
    refine .of_when fun h => .of_some ?_ (VFields.some_of ‹_› ?_ ?_ ?_ ?_ ?_ ?_)
    all_goals simp_all [Instr.wf, lo4v_narrow, lo6v_narrow, displacement_upper, displacement_lower, part_gap]

theorem decodeVRow3_readsBack (f : VFields) : ReadsBack encodeVFields f (decodeVRow3 f) := by
  unfold decodeVRow3
  split
  case h_14 => exact .of_none
  case h_3 =>
    exact slice_readsBack (mk := .trw _ _ _ _) ‹_› (fun h => (eq_of_beq h).symm) (fun _ => rfl) (fun _ => rfl) (fun _ => rfl) fun _ => rfl
  case h_4 =>
    exact slice_readsBack (mk := .trr _ _ _ _) ‹_› (fun _ => rfl) (fun h => (eq_of_beq h).symm) (fun _ => rfl) (fun _ => rfl) fun _ => rfl
  case h_5 =>
    exact slice_readsBack (mk := .tcw _ _ _ _) ‹_› (fun h => (eq_of_beq h).symm) (fun _ => rfl) (fun _ => rfl) (fun _ => rfl) fun _ => rfl
  case h_6 =>
    exact slice_readsBack (mk := .tcr _ _ _ _) ‹_› (fun _ => rfl) (fun h => (eq_of_beq h).symm) (fun _ => rfl) (fun _ => rfl) fun _ => rfl
  case h_9 => -- AFFSET
    refine .of_when fun h => .of_ite (fun hm => .of_some rfl (VFields.some_of ‹_› ?_ ?_ ?_ ?_ ?_ ?_))
      fun _ => .of_when fun hm => .of_some rfl (VFields.some_of ‹_› ?_ ?_ ?_ ?_ ?_ ?_)
    all_goals simp_all [affset_entry, lo4v_narrow, lo6v_narrow]
  case h_11 => -- APPLY
    refine .of_when fun h => .of_ite (fun hm => .of_some rfl (VFields.some_of ‹_› ?_ ?_ ?_ ?_ ?_ ?_)) fun _ =>
      .of_ite (fun hm => .of_some rfl (VFields.some_of ‹_› ?_ ?_ ?_ ?_ ?_ ?_)) fun _ =>
      .of_ite (fun hm => .of_some rfl (VFields.some_of ‹_› ?_ ?_ ?_ ?_ ?_ ?_)) fun _ =>
      .of_when fun hm => .of_some rfl (VFields.some_of ‹_› ?_ ?_ ?_ ?_ ?_ ?_)
    all_goals simp_all [carry_field, setWidth_narrow, lo4v_narrow, lo6v_narrow]
  all_goals
    refine .of_when fun h => .of_some ?_ (VFields.some_of ‹_› ?_ ?_ ?_ ?_ ?_ ?_)
    all_goals simp_all [Instr.wf, setWidth_narrow, lo4v_narrow]

theorem decodeVFields_readsBack (f : VFields) : ReadsBack encodeVFields f (decodeVFields f) := by
  unfold decodeVFields
  split
  · exact decodeVRow0_readsBack f
  · exact decodeVRow1_readsBack f
  · exact decodeVRow2_readsBack f
  · exact decodeVRow3_readsBack f
  · exact .of_none

theorem decodeMFields_readsBack (f : MFields) : ReadsBack encodeMFields f (decodeMFields f) := by
  unfold decodeMFields
  split
  case h_1 => exact .of_noop rfl
  case h_9 => exact .of_none
  all_goals
    refine .of_when fun h => .of_some ?_ (MFields.some_of ‹_› ?_ ?_ ?_ ?_ ?_ ?_ ?_ ?_)
    all_goals simp_all [Instr.wf, mrep_fmt]

theorem decodeXFields_readsBack (f : XFields) : ReadsBack encodeXFields f (decodeXFields f) := by
  have hpair := append_fields2 (a := 3) (b := 1) f.mod
  have hform := append_fields2 (a := 1) (b := 3) f.mod
  unfold decodeXFields
  split
  case h_1 => exact .of_noop rfl
  case h_8 => exact .of_none
  case h_3 => -- XTRN
    exact .of_when fun h => .of_some (decide_eq_true (by rw [BitVec.toNat_setWidth]; omega))
      (XFields.some_of ‹_› rfl rfl (setWidth_narrow (by omega)))
  case h_4 => -- XCVT
    refine .of_when fun h => .of_some (decide_eq_true ?_) (XFields.some_of ‹_› rfl rfl hpair)
    rw [BitVec.extractLsb'_toNat, Nat.shiftRight_eq_div_pow]
    omega
  all_goals
    refine .of_when fun h => .of_some ?_ (XFields.some_of ‹_› ?_ ?_ ?_)
    all_goals simp_all [Instr.wf, setWidth_narrow]

theorem decodeCFields_readsBack (f : CFields) : ReadsBack encodeCFields f (decodeCFields f) := by
  unfold decodeCFields
  split
  case h_1 => exact .of_noop rfl
  case h_5 => exact .of_none
  all_goals
    refine .of_when fun h => .of_some rfl (CFields.some_of ‹_› ?_ ?_ ?_ ?_ ?_ ?_ ?_)
    all_goals simp_all [setWidth_narrow]

/-- Settles O2, row by row: what a row checks is what the encoder rebuilds. -/
theorem decodedFieldsAreTheEncoding : Obligations.DecodedFieldsAreTheEncoding :=
  ⟨decodeSFields_readsBack, decodeVFields_readsBack, decodeMFields_readsBack, decodeXFields_readsBack, decodeCFields_readsBack⟩

end Sys2Proof
end

section
/-!
# Memory as a map

What two canonical maps that read alike come to, and a read of consecutive keys, key by key.
-/

namespace Sys2Proof.Machine

variable {α : Type} {dflt : Nat → α}

/-- A read of consecutive keys, as the list of the reads. -/
theorem mapGetList_eq_map (m : SMap α) (n : Nat) : ∀ k, mapGetList dflt m k n = (List.range n).map fun i => mapGet dflt m (k + i) := by
  induction n with
  | zero => exact fun _ => rfl
  | succ n ih =>
    intro k
    rw [mapGetList, ih, List.range_succ_eq_map, List.map_cons, List.map_map]
    refine congrArg _ (List.map_congr_left fun i _ => ?_)
    exact congrArg (mapGet dflt m) (by simp only [Nat.succ_eq_add_one]; omega)

variable [DecidableEq α]

/-- Below its bound a canonical map lists nothing. -/
theorem mapGet_below {m : SMap α} {lo k : Nat} (hm : mapWfFrom dflt lo m = true) (h : k < lo) : mapGet dflt m k = dflt k := by
  induction m generalizing lo with
  | nil => rfl
  | cons e m ih =>
    simp only [mapWfFrom, Bool.and_eq_true, decide_eq_true_eq] at hm
    obtain ⟨⟨hlo, -⟩, htail⟩ := hm
    rw [mapGet, if_neg (by omega)]
    exact ih htail (by omega)

/-- The first listed key of a canonical map does not read as an unlisted one. -/
theorem mapGet_head_ne {m : SMap α} {lo i : Nat} {v : α} (hm : mapWfFrom dflt lo ((i, v) :: m) = true) :
    mapGet dflt ((i, v) :: m) i ≠ dflt i := by
  simp only [mapWfFrom, Bool.and_eq_true, Bool.not_eq_true', decide_eq_true_eq, decide_eq_false_iff_not] at hm
  rw [mapGet, if_pos rfl]
  exact hm.1.2

/-- Canonical maps that read alike are equal. -/
theorem mapWfFrom_ext {m m' : SMap α} : ∀ {lo lo' : Nat}, mapWfFrom dflt lo m = true → mapWfFrom dflt lo' m' = true →
    (∀ k, mapGet dflt m k = mapGet dflt m' k) → m = m' := by
  induction m generalizing m' with
  | nil =>
    intro lo lo' _ hm' h
    cases m' with
    | nil => rfl
    | cons e m' => exact absurd (h e.1).symm (mapGet_head_ne hm')
  | cons e m ih =>
    intro lo lo' hm hm' h
    cases m' with
    | nil => exact absurd (h e.1) (mapGet_head_ne hm)
    | cons e' m' =>
      have hne := mapGet_head_ne hm
      have hne' := mapGet_head_ne hm'
      obtain ⟨i, v⟩ := e
      obtain ⟨j, w⟩ := e'
      have htail : mapWfFrom dflt (i + 1) m = true := (Bool.and_eq_true_iff.1 hm).2
      have htail' : mapWfFrom dflt (j + 1) m' = true := (Bool.and_eq_true_iff.1 hm').2
      -- each map lists its first key, so neither first key lies below the other
      have hij : i = j := by
        rcases Nat.lt_trichotomy i j with hlt | heq | hgt
        · exact absurd ((h i).trans (by rw [mapGet, if_neg (by omega), mapGet_below htail' (by omega)])) hne
        · exact heq
        · exact absurd ((h j).symm.trans (by rw [mapGet, if_neg (by omega), mapGet_below htail (by omega)])) hne'
      subst hij
      have hv : v = w := by simpa [mapGet] using h i
      subst hv
      refine congrArg _ (ih htail htail' fun k => ?_)
      by_cases hk : k = i
      · rw [mapGet_below htail (by omega), mapGet_below htail' (by omega)]
      · simpa [mapGet, hk] using h k

theorem State.memBytes_eq (s : State) (pa n : Nat) : s.memBytes pa n = (List.range n).map fun i => s.byteAt (pa + i) :=
  mapGetList_eq_map s.mem n pa

theorem State.putMem_byteAt (s : State) (pa : Nat) (v : List Byte) (x : Nat) :
    (s.putMem pa v).byteAt x = if pa ≤ x ∧ x < pa + v.length then v.getD (x - pa) 0 else s.byteAt x :=
  s.putMem_read pa v x

/-- Settles O35: reads after writes from the laws of sparse maps, equal data from the extensionality of the canonical form. -/
theorem memoryReadsWhatWasWritten : Obligations.MemoryReadsWhatWasWritten :=
  ⟨State.putMem_byteAt, State.memBytes_eq, fun _ pa v h => State.putMem_wf pa v h, fun _ _ hs ht h => mapWfFrom_ext hs ht h⟩

end Sys2Proof.Machine
end

section
/-!
# Results that land

What the results due at the end of a clk leave behind, when they carry no flags: the bank takes its own writes in issue order, the core's
files take the shared ones, and nothing else changes (R15, R16, R137, R164).
-/

namespace Sys2Proof.Machine

/-! ### Bytes and bits that are given -/

/-- Byte `x` after a write of the bytes of `l` that are given, from `k` on. -/
theorem mapGet_putBytes (l : List (Option Byte)) : ∀ (m : SMap Byte) (k x : Nat), mapGet (fun _ => 0) (putBytes m k l) x =
    if k ≤ x ∧ x < k + l.length then (l.getD (x - k) none).getD (mapGet (fun _ => 0) m x) else mapGet (fun _ => 0) m x := by
  induction l with
  | nil => exact fun m k x => (if_neg (by simp only [List.length_nil]; omega)).symm
  | cons e l ih =>
    intro m k x
    rcases Nat.lt_trichotomy x k with hlt | rfl | hgt
    · cases e with
      | none => rw [putBytes, ih, if_neg (by omega), if_neg (by omega)]
      | some v => rw [putBytes, ih, if_neg (by omega), if_neg (by omega), mapGet_mapSet_other _ _ (by omega)]
    · cases e with
      | none => rw [putBytes, ih, if_neg (by omega)]; simp
      | some v => rw [putBytes, ih, if_neg (by omega)]; simp
    · have hsub : x - k = (x - (k + 1)) + 1 := by omega
      cases e with
      | none =>
        rw [putBytes, ih, List.length_cons, hsub, List.getD_cons_succ]
        exact ite_congr (propext (by omega)) (fun _ => rfl) fun _ => rfl
      | some v =>
        rw [putBytes, ih, List.length_cons, hsub, List.getD_cons_succ, mapGet_mapSet_other _ _ (by omega)]
        exact ite_congr (propext (by omega)) (fun _ => rfl) fun _ => rfl

theorem merge_getLsbD {n : Nat} (old new mask : BitVec n) (i : Nat) :
    (merge old new mask).getLsbD i = if mask.getLsbD i then new.getLsbD i else old.getLsbD i := by
  cases hm : mask.getLsbD i with
  | false => by_cases hi : i < n <;> simp_all [merge]
  | true => simp [merge, hm]

/-! ### What a landing keeps -/

/-- Between `s` and `t` memory, the semaphores of core `c` and every bank but the one at `p` of core `c` are kept. -/
structure State.KeepsBeside (s t : State) (c p : Nat) : Prop where
  mem : t.mem = s.mem
  sem : (t.core c).sem = (s.core c).sem
  banks : ∀ c' p', c' ≠ c ∨ p' ≠ p → t.bank c' p' = s.bank c' p'

/-- Between `s` and `t` the files that the strands of core `c` share are kept. -/
structure State.KeepsFiles (s t : State) (c : Nat) : Prop where
  vfile : (t.core c).vfile = (s.core c).vfile
  scratch : (t.core c).scratch = (s.core c).scratch
  accum : (t.core c).accum = (s.core c).accum

theorem State.KeepsBeside.trans {s t u : State} {c p : Nat} (h : s.KeepsBeside t c p) (h' : t.KeepsBeside u c p) : s.KeepsBeside u c p :=
  ⟨h'.mem.trans h.mem, h'.sem.trans h.sem, fun c' p' hne => (h'.banks c' p' hne).trans (h.banks c' p' hne)⟩

theorem State.KeepsFiles.trans {s t u : State} {c : Nat} (h : s.KeepsFiles t c) (h' : t.KeepsFiles u c) : s.KeepsFiles u c :=
  ⟨h'.vfile.trans h.vfile, h'.scratch.trans h.scratch, h'.accum.trans h.accum⟩

theorem State.KeepsBeside.refl (s : State) (c p : Nat) : s.KeepsBeside s c p := ⟨rfl, rfl, fun _ _ _ => rfl⟩
theorem State.KeepsFiles.refl (s : State) (c : Nat) : s.KeepsFiles s c := ⟨rfl, rfl, rfl⟩

theorem State.modBank_core_same (s : State) (c p : Nat) (f : Bank → Bank) :
    (s.modBank c p f).core c = (s.core c).setBank p (f (s.bank c p)) := by
  rw [State.modBank, State.setBank, State.setCore_core_same]

theorem State.modBank_keepsBeside (s : State) (c p : Nat) (f : Bank → Bank) : s.KeepsBeside (s.modBank c p f) c p :=
  ⟨rfl, by rw [State.modBank_core_same]; rfl, fun _ _ h => State.modBank_bank_other s f h⟩

theorem State.modBank_keepsFiles (s : State) (c p : Nat) (f : Bank → Bank) : s.KeepsFiles (s.modBank c p f) c := by
  constructor <;> rw [State.modBank_core_same] <;> rfl

/-- A change of a core beside its banks. -/
theorem State.modCore_bank_of_banks (s : State) (c : Nat) {f : Core → Core} (h : (f (s.core c)).banks = (s.core c).banks) (c' p' : Nat) :
    (s.modCore c f).bank c' p' = s.bank c' p' := by
  by_cases hc : c' = c
  · subst hc
    rw [State.bank, State.bank, State.modCore_core_same, Core.bank, Core.bank, h]
  · rw [State.bank, State.modCore_core_other _ _ hc]; rfl

theorem State.modCore_keepsBeside (s : State) (c p : Nat) {f : Core → Core} (h : (f (s.core c)).banks = (s.core c).banks)
    (hsem : (f (s.core c)).sem = (s.core c).sem) : s.KeepsBeside (s.modCore c f) c p :=
  ⟨rfl, by rw [State.modCore_core_same, hsem], fun c' p' _ => s.modCore_bank_of_banks c h c' p'⟩

/-- What a replay keeps of the results it may take back (R99) is beside the banks, the files and memory. -/
theorem State.noteUndo_keeps (s : State) (c order p : Nat) (w : RegWrite) :
    s.KeepsBeside (s.noteUndo c order w) c p ∧ s.KeepsFiles (s.noteUndo c order w) c ∧ (s.noteUndo c order w).bank c p = s.bank c p := by
  unfold State.noteUndo
  split
  · split
    · exact ⟨s.modCore_keepsBeside c p rfl rfl, by constructor <;> rw [State.modCore_core_same], s.modCore_bank_of_banks c rfl c p⟩
    · exact ⟨.refl s c p, .refl s c, rfl⟩
  · exact ⟨.refl s c p, .refl s c, rfl⟩

/-! ### Results of the bank's own registers -/

/-- Results that write the bank's own registers land one after the other, and change nothing beside the bank. -/
theorem State.foldl_landOne (c p : Nat) (l : List Landing) (hl : ∀ x ∈ l, x.write.shared = false) : ∀ s : State,
    let t := l.foldl (fun s x => s.landOne c p x) s
    t.bank c p = l.foldl (fun b x => b.applyWrite x.write x.order) (s.bank c p) ∧ s.KeepsBeside t c p ∧ s.KeepsFiles t c := by
  induction l with
  | nil => exact fun s => ⟨rfl, .refl s c p, .refl s c⟩
  | cons x l ih =>
    intro s
    have hone : s.landOne c p x = s.modBank c p fun b => b.applyWrite x.write x.order := by
      rw [State.landOne, hl x List.mem_cons_self]; rfl
    obtain ⟨hbank, hbeside, hfiles⟩ := ih (fun y hy => hl y (List.mem_cons_of_mem x hy)) (s.landOne c p x)
    simp only [List.foldl_cons]
    rw [hone, State.modBank_bank_same] at hbank
    rw [hone] at hbeside hfiles ⊢
    exact ⟨hbank, (s.modBank_keepsBeside c p _).trans hbeside, (s.modBank_keepsFiles c p _).trans hfiles⟩

/-- A result that carries no flag and opens no region. -/
structure Landing.Plain (l : Landing) : Prop where
  flags : l.flags = 0
  idz : l.idz = false
  closed : ∀ r, l.write ≠ .openSpec r

/-- The bank `b` with nothing in flight. -/
def Bank.landed (b : Bank) : Bank := { b with flight := [] }

/-- The bank `b` without the results due by clk `n`. -/
def Bank.undue (b : Bank) (n : Nat) : Bank := { b with flight := b.flight.filter fun l => !decide (l.due ≤ n) }

theorem Bank.close_plain (l : List Landing) (hl : ∀ x ∈ l, x.Plain) (b : Bank) :
    l.foldl (fun b x => b.addFlags x.flags) b = b ∧ l.any (·.idz) = false ∧
      l.foldl (fun b x => match x.write with | .openSpec r => b.openSpec r x.order | _ => b) b = b := by
  induction l with
  | nil => exact ⟨rfl, rfl, rfl⟩
  | cons x l ih =>
    obtain ⟨hf, hz, ho⟩ := hl x List.mem_cons_self
    obtain ⟨h1, h2, h3⟩ := ih fun y hy => hl y (List.mem_cons_of_mem x hy)
    refine ⟨?_, ?_, ?_⟩
    · rw [List.foldl_cons, hf]; exact h1
    · rw [List.any_cons, hz, h2]; rfl
    · rw [List.foldl_cons]
      split
      · next r hw => exact absurd hw (ho r)
      · exact h3

/-- Plain results that are due land one after the other on the bank without them. -/
theorem State.landDue_plain (s : State) (c p : Nat) (l : List Landing)
    (hl : (s.bank c p).flight.filter (fun x => decide (x.due ≤ s.clk)) = l) (hp : ∀ x ∈ l, x.Plain) :
    s.landDue c p = (l.foldl (fun s x => s.landOne c p x) (s.modBank c p fun b => b.undue s.clk)).modBank c p id := by
  unfold State.landDue
  simp only [hl]
  refine congrArg (State.modBank _ c p) (funext fun b => ?_)
  obtain ⟨hflags, hidz, hopen⟩ := Bank.close_plain l hp b
  simp only [hflags, hidz, Bool.false_eq_true, if_false]
  exact hopen

/-- Plain results of the bank's own registers, all of them due: the bank takes them in order, and nothing beside it changes. -/
theorem State.landDue_own (s : State) (c p : Nat) (l : List Landing) (hf : (s.bank c p).flight = l) (hd : ∀ x ∈ l, x.due ≤ s.clk)
    (hp : ∀ x ∈ l, x.Plain) (hs : ∀ x ∈ l, x.write.shared = false) :
    (s.landDue c p).bank c p = l.foldl (fun b x => b.applyWrite x.write x.order) (s.bank c p).landed ∧
      s.KeepsBeside (s.landDue c p) c p ∧ s.KeepsFiles (s.landDue c p) c := by
  have hall : l.filter (fun x => decide (x.due ≤ s.clk)) = l := List.filter_eq_self.2 fun x hx => decide_eq_true (hd x hx)
  have hnone : (s.bank c p).undue s.clk = (s.bank c p).landed := by
    rw [Bank.undue, hf, List.filter_eq_nil_iff.2 fun x hx => by simp [hd x hx]]; rfl
  rw [State.landDue_plain s c p l (by rw [hf, hall]) hp]
  obtain ⟨hbank, hbeside, hfiles⟩ := State.foldl_landOne c p l hs (s.modBank c p fun b => b.undue s.clk)
  refine ⟨?_, ?_, ?_⟩
  · rw [State.modBank_bank_same, id_eq, hbank, State.modBank_bank_same, hnone]
  · exact ((s.modBank_keepsBeside c p _).trans hbeside).trans (State.modBank_keepsBeside _ c p id)
  · exact ((s.modBank_keepsFiles c p _).trans hfiles).trans (State.modBank_keepsFiles _ c p id)

/-- One plain result of the bank's own registers that is due. -/
theorem State.landDue_own_one (s : State) (c p due n : Nat) (w : RegWrite) (hf : (s.bank c p).flight = [⟨due, n, w, 0, false⟩])
    (hd : due ≤ s.clk) (ho : ∀ r, w ≠ .openSpec r) (hs : w.shared = false) :
    (s.landDue c p).bank c p = (s.bank c p).landed.applyWrite w n ∧
      s.KeepsBeside (s.landDue c p) c p ∧ s.KeepsFiles (s.landDue c p) c := by
  refine s.landDue_own c p _ hf ?_ ?_ ?_
  · simpa using hd
  · simpa using Landing.Plain.mk rfl rfl ho
  · simpa using hs

/-- A result that is not due stays in flight. -/
theorem State.landDue_later (s : State) (c p : Nat) (hd : ∀ x ∈ (s.bank c p).flight, s.clk < x.due) :
    (s.landDue c p).bank c p = s.bank c p := by
  have hnone : (s.bank c p).flight.filter (fun x => decide (x.due ≤ s.clk)) = [] :=
    List.filter_eq_nil_iff.2 fun x hx => by have := hd x hx; simp; omega
  have hall : (s.bank c p).undue s.clk = s.bank c p := by
    rw [Bank.undue, List.filter_eq_self.2 fun x hx => by have := hd x hx; simp; omega]
  rw [State.landDue_plain s c p [] hnone (by simp), State.modBank_bank_same, List.foldl_nil, State.modBank_bank_same, hall, id_eq]

/-! ### Results of the core's files -/

/-- One plain result that writes a file of the core: the bank only loses it from its flight. -/
theorem State.landDue_file_one (s : State) (c p due n : Nat) (w : RegWrite) (hf : (s.bank c p).flight = [⟨due, n, w, 0, false⟩])
    (hd : due ≤ s.clk) (ho : ∀ r, w ≠ .openSpec r) (hs : w.shared = true) {f : Core → Core}
    (ha : ∀ u : State, u.applyShared c p w = u.modCore c f) (hbanks : ∀ x, (f x).banks = x.banks) (hsem : ∀ x, (f x).sem = x.sem) :
    (s.landDue c p).bank c p = (s.bank c p).landed ∧ s.KeepsBeside (s.landDue c p) c p ∧
      ∃ x : Core, x.vfile = (s.core c).vfile ∧ x.scratch = (s.core c).scratch ∧ x.accum = (s.core c).accum ∧
        ((s.landDue c p).core c).vfile = (f x).vfile ∧ ((s.landDue c p).core c).scratch = (f x).scratch ∧
        ((s.landDue c p).core c).accum = (f x).accum := by
  have hdue : (s.bank c p).flight.filter (fun x => decide (x.due ≤ s.clk)) = [⟨due, n, w, 0, false⟩] := by
    rw [hf]; simp [hd]
  have hnone : (s.bank c p).undue s.clk = (s.bank c p).landed := by
    rw [Bank.undue, hf, Bank.landed]; simp [hd]
  have hone : ∀ u : State, u.landOne c p ⟨due, n, w, 0, false⟩ = (u.noteUndo c n w).modCore c f := by
    intro u; rw [State.landOne, if_pos hs, ha]
  have hland := s.landDue_plain c p _ hdue (by simpa using Landing.Plain.mk rfl rfl ho)
  rw [List.foldl_cons, List.foldl_nil, hone] at hland
  obtain ⟨hbeside, hfiles, hbank⟩ := (s.modBank c p fun b => b.undue s.clk).noteUndo_keeps c n p w
  have hstart := (s.modBank_keepsFiles c p fun b => b.undue s.clk).trans hfiles
  have hend := State.modBank_keepsFiles (((s.modBank c p fun b => b.undue s.clk).noteUndo c n w).modCore c f) c p id
  rw [hland]
  refine ⟨?_, ?_, _, hstart.vfile, hstart.scratch, hstart.accum, ?_, ?_, ?_⟩
  · rw [State.modBank_bank_same, id_eq, State.modCore_bank_of_banks _ c (hbanks _), hbank, State.modBank_bank_same, hnone]
  · exact (((s.modBank_keepsBeside c p _).trans hbeside).trans (State.modCore_keepsBeside _ c p (hbanks _) (hsem _))).trans
      (State.modBank_keepsBeside _ c p id)
  · rw [hend.vfile, State.modCore_core_same]
  · rw [hend.scratch, State.modCore_core_same]
  · rw [hend.accum, State.modCore_core_same]

theorem Bank.applyWrite_kget_same (b : Bank) (i : Nat) (v m : Carry) (n : Nat) :
    (b.applyWrite (.k i v m) n).kget i = merge (b.kget i) v m := mapGet_mapSet_same _ i _

/-! ### Where a result goes in flight -/

theorem State.landS_eq (s : State) (d : BitVec 6) (v : Word) (n : Nat) (h : s.bk.shadow = none) :
    s.landS d v n = s.modBk fun b => { b with flight := b.flight ++
      [⟨s.clk + n - 1 + (if s.tripled then 2 else 0), s.order, if d = 0 then .none else .s (physS b.wbase d.toNat) v, 0, false⟩] } := by
  have hw : s.bk.writeS d.toNat v = if d = 0 then .none else .s (physS s.bk.wbase d.toNat) v := by
    simp only [Bank.writeS, Bank.regS, h, Option.isSome_none, Bool.false_and, Bool.false_eq_true, if_false]
    exact ite_congr (propext (by rw [BitVec.toNat_eq]; rfl)) (fun _ => rfl) fun _ => rfl
  rw [State.landS, State.land, hw]
  rfl

/-- Settles O12: a landing comes to the writes of its results in issue order, on the bank or on the core's files, and to nothing else. -/
theorem scalarResultLands : Obligations.ScalarResultLands := by
  refine ⟨⟨State.landS_eq, fun s d v x n vd y fl => ⟨rfl, rfl, rfl⟩⟩, ?_, ?_, ?_⟩
  · intro s c p i v due n hf _
    refine ⟨fun hd => ?_, fun hd => s.landDue_later c p (by simpa [hf] using hd)⟩
    obtain ⟨hbank, hbeside, hfiles⟩ := s.landDue_own_one c p due n (.s i v) hf hd nofun rfl
    simp only [hbank]
    exact ⟨mapGet_mapSet_same _ i v, fun j hj => mapGet_mapSet_other _ v hj, rfl, rfl, rfl, rfl, rfl, rfl, fun _ => rfl, rfl,
      fun a => by rw [State.byteAt, hbeside.mem]; rfl, hfiles.vfile, hfiles.scratch, hfiles.accum, hbeside.sem, hbeside.banks⟩
  · intro s c p due n w hf _ hd
    refine ⟨?_, ?_, ?_, ?_, ?_⟩
    · rintro i v rfl
      obtain ⟨hbank, hbeside, hfiles⟩ := s.landDue_own_one c p due n (.a i v) hf hd nofun rfl
      simp only [hbank]
      exact ⟨fun j => mapGet_mapSet _ i j v, rfl, rfl, rfl, ⟨hfiles.vfile, hfiles.scratch, hfiles.accum⟩,
        rfl, rfl, rfl, rfl, rfl, fun _ => rfl, hbeside.mem, hbeside.sem, hbeside.banks⟩
    · rintro i v rfl
      obtain ⟨hbank, hbeside, hfiles⟩ := s.landDue_own_one c p due n (.p i v) hf hd nofun rfl
      simp only [hbank]
      exact ⟨fun j => mapGet_mapSet _ i j v, rfl, rfl, rfl, ⟨hfiles.vfile, hfiles.scratch, hfiles.accum⟩,
        rfl, rfl, rfl, rfl, rfl, fun _ => rfl, hbeside.mem, hbeside.sem, hbeside.banks⟩
    · rintro i v m rfl
      obtain ⟨hbank, hbeside, hfiles⟩ := s.landDue_own_one c p due n (.k i v m) hf hd nofun rfl
      simp only [hbank]
      exact ⟨fun k => by rw [Bank.applyWrite_kget_same, merge_getLsbD]; rfl,
        fun j hj => mapGet_mapSet_other _ _ hj, rfl, rfl, rfl, ⟨hfiles.vfile, hfiles.scratch, hfiles.accum⟩,
        rfl, rfl, rfl, rfl, rfl, fun _ => rfl, hbeside.mem, hbeside.sem, hbeside.banks⟩
    · rintro at_ l rfl
      obtain ⟨hbank, hbeside, x, hv, hs, ha, hv', hs', ha'⟩ := s.landDue_file_one c p due n (.scratch at_ l) hf hd nofun rfl
        (f := fun x => { x.healScratch at_ l with scratch := putBytes x.scratch at_ l }) (fun _ => rfl) (fun _ => rfl) fun _ => rfl
      simp only [hbank]
      refine ⟨fun y => ?_, rfl, rfl, rfl, rfl, hv'.trans hv, ha'.trans ha, rfl, rfl, rfl, rfl, rfl, fun _ => rfl,
        hbeside.mem, hbeside.sem, hbeside.banks⟩
      rw [hs', ← hs]
      exact mapGet_putBytes l x.scratch at_ y
    · rintro at_ l rfl
      obtain ⟨hbank, hbeside, x, hv, hs, ha, hv', hs', ha'⟩ := s.landDue_file_one c p due n (.frame at_ l) hf hd nofun rfl
        (f := fun x => { x.healAccum at_ l with
          accum := putBytes x.accum at_ l, frameDirty := (at_ / 65536 :: x.frameDirty).eraseDups }) (fun _ => rfl) (fun _ => rfl) fun _ => rfl
      simp only [hbank]
      refine ⟨fun y => ?_, rfl, rfl, rfl, rfl, hv'.trans hv, hs'.trans hs, rfl, rfl, rfl, rfl, rfl, fun _ => rfl,
        hbeside.mem, hbeside.sem, hbeside.banks⟩
      rw [ha', ← ha]
      exact mapGet_putBytes l x.accum at_ y
  · intro s c p i j v w due due' n n' hf _ hd hd'
    obtain ⟨hbank, -, -⟩ := s.landDue_own c p _ hf (by simpa using ⟨hd, hd'⟩)
      (by simpa using ⟨Landing.Plain.mk rfl rfl nofun, Landing.Plain.mk rfl rfl nofun⟩) (by simp [RegWrite.shared])
    simp only [hbank]
    exact ⟨fun r => (mapGet_mapSet _ j r w).trans (ite_congr rfl (fun _ => rfl) fun _ => mapGet_mapSet _ i r v), rfl⟩

end Sys2Proof.Machine
end

section
/-!
# Accesses that perform

One read and one write of local memory, what they leave of the state, and an access of a bank's queue before and after it performs
(R235, R236, R239, R243).
-/

namespace Sys2Proof.Machine

/-! ### Bytes of a number -/

theorem bytesOfNat_length (n : Nat) : ∀ v, (bytesOfNat n v).length = n := by
  induction n with
  | zero => exact fun _ => rfl
  | succ n ih => exact fun v => by rw [bytesOfNat, List.length_cons, ih]

/-- The lowest byte comes first. -/
theorem bytesOfNat_getD (n : Nat) : ∀ v k, k < n → (bytesOfNat n v).getD k 0 = BitVec.ofNat 8 (v / 256 ^ k) := by
  induction n with
  | zero => exact fun _ _ h => absurd h (Nat.not_lt_zero _)
  | succ n ih =>
    intro v k h
    cases k with
    | zero => rw [bytesOfNat, List.getD_cons_zero, Nat.pow_zero, Nat.div_one]
    | succ k => rw [bytesOfNat, List.getD_cons_succ, ih _ _ (by omega), Nat.div_div_eq_div_mul, Nat.pow_succ']

theorem natOfBytes_lt (l : List Byte) : natOfBytes l < 256 ^ l.length := by
  induction l with
  | nil => exact Nat.one_pos
  | cons b l ih =>
    have hb := b.isLt
    rw [natOfBytes, List.length_cons, Nat.pow_succ]
    omega

theorem extractLsb'_eq_byte (w : Word) (k : Nat) : w.extractLsb' (8 * k) 8 = BitVec.ofNat 8 (w.toNat / 256 ^ k) := by
  apply BitVec.eq_of_toNat_eq
  rw [BitVec.extractLsb'_toNat, BitVec.toNat_ofNat, Nat.shiftRight_eq_div_pow, Nat.pow_mul]

/-- A loaded value, sign-extended to 64 bits (R239). -/
theorem wrapInt_signedOf (w n : Nat) : wrapInt 64 (signedOf w n) = ((BitVec.ofNat w n).signExtend 64).toNat := by
  rw [BitVec.signExtend, BitVec.toNat_ofInt, BitVec.toInt_eq_toNat_cond, BitVec.toNat_ofNat]
  rfl

/-! ### Reads and writes of physical memory -/

theorem State.useLines_dies (s : State) (pa n ctx : Nat) (write : Bool) : ∃ d, s.useLines pa n ctx write = { s with dies := d } := by
  unfold State.useLines
  split
  · exact ⟨s.dies, rfl⟩
  · refine State.foldl_dies _ (fun s line => ?_) _ s
    split
    · exact ⟨_, rfl⟩
    · exact ⟨s.dies, rfl⟩

theorem State.retireShown_dies (s : State) (pa n : Nat) : ∃ d, s.retireShown pa n = { s with dies := d } := by
  refine State.foldl_dies _ (fun s w => ?_) _ s
  unfold State.retirePage
  split
  · exact ⟨s.dies, rfl⟩
  · exact ⟨_, rfl⟩

/-- A change of the dies, the poison and the error marks leaves memory and the banks. -/
structure State.SameData (s t : State) : Prop where
  byteAt : ∀ x, t.byteAt x = s.byteAt x
  bank : ∀ c p, t.bank c p = s.bank c p

/-- A read of memory beside the slabs: its bytes and their error marks. -/
theorem State.readPhys_snd (s : State) (c ctx pa n : Nat) (h : isSlab pa = false) :
    (s.readPhys c ctx pa n).2 = (s.memBytes pa n, s.bad pa n) := by
  have hseen : s.seenBytes pa n = s.memBytes pa n := by
    unfold State.seenBytes
    split
    · next hp => simp [isSlab, hp] at h
    · rfl
  unfold State.readPhys
  split <;> exact congrArg (·, s.bad pa n) hseen

theorem State.readPhys_sameData (s : State) (c ctx pa n : Nat) : s.SameData (s.readPhys c ctx pa n).1 := by
  unfold State.readPhys
  split
  · obtain ⟨d, hd⟩ := s.retireShown_dies pa n
    exact hd ▸ ⟨fun _ => rfl, fun _ _ => rfl⟩
  · obtain ⟨d, hd⟩ := s.readHome_dies ctx pa n
    exact hd ▸ ⟨fun _ => rfl, fun _ _ => rfl⟩

/-- A write of memory beside the slabs comes to its bytes. -/
theorem State.writePhys_sameData (s : State) (ctx pa : Nat) (v : List Byte) (h : isSlab pa = false) :
    (s.putMem pa v).SameData (s.writePhys ctx pa v) := by
  obtain ⟨d, hd⟩ := s.useLines_dies pa v.length ctx true
  unfold State.writePhys
  simp only [h, hd, Bool.false_eq_true, if_false]
  exact ⟨fun _ => rfl, fun _ _ => rfl⟩

/-! ### An access of a queue -/

theorem Bank.acc?_id {b : Bank} {id : Nat} {a : Acc} (h : b.acc? id = some a) : a.id = id :=
  eq_of_beq (List.find?_some (p := fun x : Acc => x.id == id) h)

/-- The first element that passes a test is still the first where a filter keeps it. -/
theorem find?_filter_of_find? {α : Type} {p q : α → Bool} {l : List α} {x : α} (h : l.find? q = some x) (hp : p x = true) :
    (l.filter p).find? q = some x := by
  obtain ⟨hq, as, bs, rfl, has⟩ := List.find?_eq_some_iff_append.1 h
  rw [List.filter_append, List.filter_cons_of_pos hp]
  exact List.find?_eq_some_iff_append.2 ⟨hq, _, _, rfl, fun y hy => has y (List.mem_filter.1 hy).1⟩

/-- A dropped access has left its queue. -/
theorem Bank.dropAcc_acc? (b : Bank) (id : Nat) : (b.dropAcc id).acc? id = none := by
  refine List.find?_eq_none.2 fun x hx => ?_
  have hx' := (List.mem_filter.1 (List.mem_filter.1 hx).1).2
  simpa using hx'

/-- A changed access, other than a marker, stands in its queue as before (R244, R245). -/
theorem Bank.modAcc_tidy_acc? {b : Bank} {id : Nat} {a : Acc} {f : Acc → Acc} (h : b.acc? id = some a) (hf : ∀ x, (f x).id = x.id)
    (hm : (f a).kind.marker = false) : (b.modAcc id f).tidy.acc? id = some (f a) := by
  have hmap : (b.modAcc id f).accs.find? (fun x => x.id == id) = some (f a) := by
    have hid : (fun x : Acc => (if x.id = id then f x else x).id == id) = fun x => x.id == id :=
      funext fun x => by split <;> simp [hf]
    have hfind := List.find?_map (f := fun x : Acc => if x.id = id then f x else x) (p := fun x => x.id == id) (l := b.accs)
    rw [show ((fun x : Acc => x.id == id) ∘ fun x => if x.id = id then f x else x) = fun x => x.id == id from hid] at hfind
    exact hfind.trans (by rw [show b.accs.find? (fun x => x.id == id) = some a from h, Option.map_some, if_pos (Bank.acc?_id h)])
  exact find?_filter_of_find? hmap (by rw [hm]; rfl)

/-! ### Where nothing holds an access -/

/-- Nothing is laid over the bytes that a load reads where no earlier store of its strand waits. -/
theorem overlay_nil (pa : Nat) (l : List Byte) : overlay [] pa l = l := by
  refine List.ext_getElem (by simp [overlay]) fun i _ _ => ?_
  simp [overlay, storedByte]

section
variable {s : State} {c p id : Nat} {a : Acc}

/-- The accesses that ACCESS_PERFORM performs where they stand. -/
theorem exec_accessPerform (h : s.CanPerform c p id a)
    (hk : a.kind = .store ∨ (∃ g, a.kind = .load g) ∨ ∃ op, a.kind = .atomic op) :
    exec .accessPerform s = .next (s.performLocal c p a) := by
  obtain ⟨hc, hp, hn, hf, hq, hsc, hfree, hpeer, -, -, href⟩ := h
  have hrun : exec .accessPerform s = .next (s.accessPerform s.ev.core s.ev.pos s.ev.id false) := rfl
  have hheld : s.refreshHolds a = false := by rw [State.refreshHolds, href, Bool.and_false]
  rw [hrun, hc, hp, hn, State.accessPerform, hf]
  rcases hk with hk | ⟨_, hk⟩ | ⟨_, hk⟩ <;> simp [hk, hq, hsc, hfree, hpeer, hheld]

/-- A store performs (R235). -/
theorem exec_accessPerform_store (h : s.CanPerform c p id a) (hk : a.kind = .store) :
    exec .accessPerform s =
      .next ((s.writePhys (s.bank c p).ctx a.pa (bytesOfNat a.size a.data)).modBank c p fun b => b.dropAcc id) := by
  rw [exec_accessPerform h (.inl hk)]
  simp only [State.performLocal, hk, h.mmio, Bool.false_eq_true, if_false, Bank.acc?_id h.found]

/-- The access that has performed with value `v`. -/
def Acc.done (v : Nat) (x : Acc) : Acc := { x with st := .performed, val := v, ue := false }

/-- A load with nothing to forward from performs on bytes that no error spoils (R235, R236, R239). -/
theorem exec_accessPerform_load (h : s.CanPerform c p id a) {signed : Bool} (hk : a.kind = .load signed)
    (hfwd : (s.bank c p).forwards a = []) (hbad : s.bad a.pa a.size = false) :
    exec .accessPerform s = .next ((s.readPhys c (s.bank c p).ctx a.pa a.size).1.modBank c p fun b =>
      (b.modAcc id (Acc.done (a.result (s.memBytes a.pa a.size)))).tidy) := by
  rw [exec_accessPerform h (.inr (.inl ⟨signed, hk⟩))]
  simp only [State.performLocal, State.loadBytes, hk, h.mmio, Bool.false_eq_true, if_false, State.readPhys_snd _ _ _ _ _ h.slab, hfwd, hbad,
    overlay_nil, Bank.acc?_id h.found]
  rfl

/-- An atomic performs on bytes that no error spoils: one read, one write (R243). -/
theorem exec_accessPerform_atomic (h : s.CanPerform c p id a) {op : Nat} (hk : a.kind = .atomic op) (hbad : s.bad a.pa 8 = false) :
    let old := natOfBytes (s.memBytes a.pa 8)
    let new := atomicNew op (BitVec.ofNat 64 old) (BitVec.ofNat 64 a.data) (BitVec.ofNat 64 a.aux)
    exec .accessPerform s =
      .next (((s.readPhys c (s.bank c p).ctx a.pa 8).1.writePhys (s.bank c p).ctx a.pa (bytesOfNat 8 new.toNat)).modBank c p fun b =>
        (b.modAcc id (Acc.done old)).tidy) := by
  rw [exec_accessPerform h (.inr (.inr ⟨op, hk⟩))]
  simp only [State.performLocal, hk, State.readPhys_snd _ _ _ _ _ h.slab, hbad, Bool.false_eq_true, if_false, Bank.acc?_id h.found]
  rfl

end

/-! ### What a performed access leaves -/

/-- The function of an atomic by its comparisons as signed numbers (R243). -/
theorem atomicNew_eq {op : Nat} {old b d new : Word}
    (h : (op = 0 ∧ new = old + b) ∨ (op = 1 ∧ new = old &&& b) ∨ (op = 2 ∧ new = old ||| b) ∨ (op = 3 ∧ new = old ^^^ b) ∨
       (op = 4 ∧ new = if b.slt old then b else old) ∨ (op = 5 ∧ new = if old.slt b then b else old) ∨ (op = 6 ∧ new = b) ∨
       (op = 7 ∧ new = if old = d then b else old)) : atomicNew op old b d = new := by
  have hmin : minS old b = if b.slt old then b else old := by
    simp only [minS, BitVec.slt, decide_eq_true_eq]
    by_cases hle : old.toInt ≤ b.toInt
    · rw [if_pos hle, if_neg (by omega)]
    · rw [if_neg hle, if_pos (by omega)]
  have hmax : maxS old b = if old.slt b then b else old := by
    simp only [maxS, BitVec.slt, decide_eq_true_eq]
    split
    · next hle =>
      split
      · rfl
      · exact BitVec.eq_of_toInt_eq (by omega)
    · rw [if_neg (by omega)]
  rcases h with ⟨rfl, rfl⟩ | ⟨rfl, rfl⟩ | ⟨rfl, rfl⟩ | ⟨rfl, rfl⟩ | ⟨rfl, rfl⟩ | ⟨rfl, rfl⟩ | ⟨rfl, rfl⟩ | ⟨rfl, rfl⟩
  · rfl
  · rfl
  · rfl
  · rfl
  · exact hmin
  · exact hmax
  · rfl
  · rfl

/-- Byte `x` after the `n` low bytes of `v` have been written from `pa` on. -/
theorem State.putMem_bytesOfNat (s : State) (pa n v x : Nat) : (s.putMem pa (bytesOfNat n v)).byteAt x =
    if pa ≤ x ∧ x < pa + n then BitVec.ofNat 8 (v / 256 ^ (x - pa)) else s.byteAt x := by
  rw [State.putMem_byteAt, bytesOfNat_length]
  split
  · next hx => exact bytesOfNat_getD n v (x - pa) (by omega)
  · rfl

/-- Settles O33: a store, a load and an atomic each come to one read or write of local memory and one change of the bank's queue. -/
theorem accessesPerform : Obligations.AccessesPerform := by
  refine ⟨?_, ?_, ?_⟩
  · intro s c p id a h hk
    have hw := s.writePhys_sameData (s.bank c p).ctx a.pa (bytesOfNat a.size a.data) h.slab
    refine ⟨_, exec_accessPerform_store h hk, fun x => (hw.byteAt x).trans (s.putMem_bytesOfNat _ _ _ x), ?_⟩
    rw [State.modBank_bank_same, hw.bank, State.putMem_bank]
    exact ⟨Bank.dropAcc_acc? _ id, rfl, rfl, rfl, rfl, rfl, rfl, fun c' p' hne => by
      rw [State.modBank_bank_other _ _ hne, hw.bank, State.putMem_bank]⟩
  · intro s c p id a signed h hk _ _ _ hfwd hbad
    have hr := s.readPhys_sameData c (s.bank c p).ctx a.pa a.size
    refine ⟨_, Acc.done (a.result (s.memBytes a.pa a.size)) a, exec_accessPerform_load h hk hfwd hbad, ?_⟩
    rw [State.modBank_bank_same, hr.bank]
    refine ⟨Bank.modAcc_tidy_acc? h.found (fun _ => rfl) (by rw [Acc.done, hk]; rfl), rfl, rfl, rfl, ?_, hr.byteAt, rfl, rfl, rfl⟩
    rintro n rfl
    simp only [Acc.done, Acc.result, hk, State.memBytes_eq]
    cases signed with
    | true => exact wrapInt_signedOf _ _
    | false => rfl
  · intro s c p id a op h hk hbad _ old b d new hnew
    have hr := s.readPhys_sameData c (s.bank c p).ctx a.pa 8
    have hw := State.writePhys_sameData (s.readPhys c (s.bank c p).ctx a.pa 8).1 (s.bank c p).ctx a.pa (bytesOfNat 8 new.toNat) h.slab
    have hexec := exec_accessPerform_atomic h hk hbad
    simp only [State.memBytes_eq] at hexec
    rw [atomicNew_eq hnew] at hexec
    refine ⟨_, Acc.done (natOfBytes ((List.range 8).map fun i => s.byteAt (a.pa + i))) a, hexec, fun x => ?_, ?_⟩
    · refine (hw.byteAt x).trans ((State.putMem_bytesOfNat _ _ _ _ x).trans ?_)
      rw [extractLsb'_eq_byte, hr.byteAt]
    · rw [State.modBank_bank_same, hw.bank, State.putMem_bank, hr.bank]
      refine ⟨Bank.modAcc_tidy_acc? h.found (fun _ => rfl) (by rw [Acc.done, hk]; rfl), rfl, ?_, rfl, rfl, rfl⟩
      have hlt := natOfBytes_lt ((List.range 8).map fun i => s.byteAt (a.pa + i))
      rw [List.length_map, List.length_range] at hlt
      exact (Nat.mod_eq_of_lt hlt).symm

end Sys2Proof.Machine
end

section
/-!
# The issue of a bundle

A step in which a strand that nothing holds back fetches and issues: the slots of the bundle run, and what they come to is the step
(R7, R18, R21, R44).
-/

namespace Sys2Proof.Machine

/-! ### The slots in their order -/

section
variable {base s t u v : State} {k : Nat} {i : Instr} {l : List (Nat × Instr)}

theorem State.slotOn_eq (s : State) (k : Nat) (i : Instr) : s.slotOn exec k i = exec i (s.inSlot k) := rfl

/-- A slot that completes is followed by the slots after it. -/
theorem State.runSlots_done (h : exec i (s.inSlot k) = .next t) (hm : t.mark = .done) (ha : actsLast i = false) :
    base.runSlots exec ((k, i) :: l) s = base.runSlots exec l t := by
  simp [State.runSlots, State.slotOn_eq, h, hm, ha]

/-- A slot that traps decides: what it comes to by itself is what the bundle comes to. -/
theorem State.runSlots_trapped {d : Trap} (h : exec i (s.inSlot k) = .next t) (hm : t.mark = .trapped d) :
    base.runSlots exec ((k, i) :: l) s = base.onlySlot exec k i (.trapped d) := by
  simp [State.runSlots, State.slotOn_eq, h, hm]

/-- A slot that blocks decides, unless it waits for the journal engine. -/
theorem State.runSlots_blocked {w : Wait} (h : exec i (s.inSlot k) = .next t) (hm : t.mark = .blocked w) (hw : ∀ op, w ≠ .journal op) :
    base.runSlots exec ((k, i) :: l) s = base.onlySlot exec k i (.blocked w) := by
  cases w
  case journal op => exact absurd rfl (hw op)
  all_goals simp [State.runSlots, State.slotOn_eq, h, hm]

/-- By itself, a slot that does not complete on the state before the bundle comes to what it does there. -/
theorem State.onlySlot_of_not_done (m : Mark) (h : exec i (base.inSlot k) = .next u) (hm : u.mark ≠ .done) :
    base.onlySlot exec k i m = .next u := by
  unfold State.onlySlot
  rw [State.slotOn_eq, h]
  cases hu : u.mark with
  | done => exact absurd hu hm
  | trapped d => simp [hu]
  | blocked w => simp [hu]

/-- By itself, a slot that would complete on the state before the bundle still takes the trap that it has raised. -/
theorem State.onlySlot_trapped_of_done {d : Trap} (h : exec i (base.inSlot k) = .next u) (hm : u.mark = .done) :
    base.onlySlot exec k i (.trapped d) =
      .next { base.takeTrap base.cur.core base.cur.pos d base.cur.pc with mark := .trapped d } := by
  simp [State.onlySlot, State.slotOn_eq, h, hm]

/-- A slot that acts last runs on the state that the others leave (R7, log 66). -/
theorem State.runSlots_last (h : exec i (s.inSlot k) = .next t) (hm : t.mark = .done) (ha : actsLast i = true)
    (hl : base.runSlots exec l s = .next u) (hu : u.mark = .done) (hv : exec i (u.inSlot k) = .next v) (hvm : v.mark = .done) :
    base.runSlots exec ((k, i) :: l) s = .next v := by
  simp [State.runSlots, State.slotOn_eq, h, hm, ha, hl, hu, hv, hvm]

/-- A slot that acts last does not act where another slot does not complete. -/
theorem State.runSlots_last_stopped (h : exec i (s.inSlot k) = .next t) (hm : t.mark = .done) (ha : actsLast i = true)
    (hl : base.runSlots exec l s = .next u) (hu : u.mark ≠ .done) : base.runSlots exec ((k, i) :: l) s = .next u := by
  simp [State.runSlots, State.slotOn_eq, h, hm, ha, hl, hu]

end

/-! ### The bundle -/

/-- What the issue of a bundle comes to, where the strand waited for nothing and nothing but its slots decides: they have left `t` of the
state `q`. -/
def State.issued (q t : State) : State :=
  match t.mark with
  | .done => (((t.commit q.bk.owed false).remember q).countIssue q).nextDue
  | .trapped _ => t.afterTrap q
  | .blocked w =>
    let t := t.modBk fun b => { b with uiReady := q.bk.uiReady }
    if w = .drain then t else t.pushFront .strandSwitch { core := q.cur.core }

/-- A bundle with nothing in its header, that no hazard and no turn of a bank holds back, comes to what its slots leave. -/
theorem State.runBundle_plain (q : State) (f : Fetch) (t : State) (hf : q.fetched = none) (hw : q.bk.wait = none)
    (hpop : f.pop = 0) (hcrit : f.crit = 0)
    (hgap : f.gap = 0) (hbad : f.bad = none) (hz : q.hazard f.slots 0 = .none)
    (hb : bankTurns (f.slots.flatMap fun e => q.chunksOf e.2) ≤ 1)
    (hs : (q.begun f).runSlots exec f.slots (q.begun f) = .next t) :
    ({ q with fetched := some f } : State).runBundle exec f = .next (q.issued t) := by
  have h0 : ({ ({ q with fetched := some f } : State) with fetched := none } : State) = q := by rw [← hf]
  have hb0 : ({ q with fetched := some f } : State).bk = q.bk := rfl
  have hturns : q.turnsDue f = 0 := by
    simp only [State.turnsDue, hw]
    omega
  have hhold : ∀ x : State, x.holdTurns 0 = x := fun _ => rfl
  unfold State.runBundle State.issued
  simp only [h0, hb0, hw, hturns, hpop, hcrit, hgap, hbad, hz, if_true, List.nil_append, hs]
  cases hm : t.mark with
  | done => simp only [State.runSlots, ne_eq, not_true_eq_false, if_false]
  | trapped d => rfl
  | blocked w => simp only [hhold, ite_self]

/-- A step in which the strand that holds the issue unit of core `c` issues: the fetched bundle runs. -/
theorem step_bundleFetch {s : State} {rest : List (Instr × EvArgs)} {c : Nat} {v : Bundle} {next : Word} {f : Fetch} {r' : State}
    (hag : s.agenda = (.bundleFetch, { core := c }) :: rest) (hc : s.CanIssue c)
    (hb : (({ s with agenda := rest } : State).atStrand c).BundleAt v next r') (hd : (r'.withNext next).decodeBundle v = .ok f)
    (hz : (r'.withNext next).hazard f.slots f.pop = .none) :
    step s = ({ r'.withNext next with fetched := some f } : State).runBundle exec f := by
  let e : EvArgs := { core := c }
  let s' : State := { ({ s with agenda := rest } : State) with ev := e, fetched := none }
  have hwf : e.wf = true := by simpa [e, EvArgs.wf] using hc.core
  have hc' : s'.CanIssue c := ⟨hc.core, hc.power, hc.hold, hc.yielded, hc.record, hc.replay, hc.failed,
    hc.running, hc.entry, hc.async, hc.interrupt, hc.reported, hc.wait, hc.dict⟩
  have hfetch : exec .bundleFetch s' = .next { r'.withNext next with fetched := some f } :=
    execBundleFetch_eq s' c hc' v next r' f rfl hb hd hz
  have hstep : step s = State.runEvent { s with agenda := rest } .bundleFetch e := by unfold step; rw [hag]
  rw [hstep]
  unfold State.runEvent
  rw [if_pos hwf, hfetch]

/-- What such a step comes to, by how the slots have ended. -/
theorem step_issues {s : State} {rest : List (Instr × EvArgs)} {c : Nat} {v : Bundle} {next : Word} {f : Fetch} {r' t : State}
    (hag : s.agenda = (.bundleFetch, { core := c }) :: rest) (hc : s.CanIssue c)
    (hb : (({ s with agenda := rest } : State).atStrand c).BundleAt v next r') (hpop : f.pop = 0) (hcrit : f.crit = 0)
    (hgap : f.gap = 0) (hbad : f.bad = none) (hd : (r'.withNext next).decodeBundle v = .ok f)
    (hz : (r'.withNext next).hazard f.slots 0 = .none)
    (ht : bankTurns (f.slots.flatMap fun e => (r'.withNext next).chunksOf e.2) ≤ 1)
    (hs : ((r'.withNext next).begun f).runSlots exec f.slots ((r'.withNext next).begun f) = .next t) :
    step s = .next ((r'.withNext next).issued t) ∧ (r'.withNext next).cur.core = c := by
  obtain ⟨d, rfl⟩ := hb.dies
  refine ⟨?_, rfl⟩
  rw [step_bundleFetch hag hc hb hd (by rw [hpop]; exact hz)]
  exact State.runBundle_plain _ f t rfl hc.wait hpop hcrit hgap hbad hz ht hs

/-- Settles O9: the fetch puts the decoded bundle at hand, its slots run in order, and the step is what they come to. -/
theorem stepRunsTheDecodedInstruction : Obligations.StepRunsTheDecodedInstruction := by
  refine ⟨?_, ?_⟩
  · intro s rest c v next f t hag hc r hpop hcrit hgap hbad r' hb q b issues hd hz ht
    have hrun : (q.begun f).runSlots exec f.slots (q.begun f) = .next t → issues t := by
      intro hs
      obtain ⟨hstep, hcore⟩ := step_issues hag hc hb hpop hcrit hgap hbad hd hz ht hs
      refine ⟨fun hm => ?_, fun d hm => ?_, fun w hm hw => ?_⟩
      · rw [hstep, State.issued, hm]
      · rw [hstep, State.issued, hm]
        show Host.Outcome.next (t.afterTrap q) = _
        rw [State.afterTrap, hcore]
      · rw [hstep, State.issued, hm, hcore]
        exact congrArg _ (if_neg hw)
    refine ⟨fun k i hk hx => hrun ?_, hrun⟩
    rw [hk]
    exact State.runSlots_one _ k i t rfl hx
  · intro base s t k i l
    refine ⟨rfl, fun hx => ⟨State.runSlots_done hx, ?_, ?_, ?_, ?_, ?_⟩⟩
    · intro d d' u hm hu hum
      rw [State.runSlots_trapped hx hm, State.onlySlot_of_not_done _ hu (by rw [hum]; nofun)]
    · intro d u hm hu hum
      rw [State.runSlots_trapped hx hm, State.onlySlot_trapped_of_done hu hum]
    · intro w w' u hm hw hu hum
      rw [State.runSlots_blocked hx hm hw, State.onlySlot_of_not_done _ hu (by rw [hum]; nofun)]
    · intro u v hm ha hl hu hv hvm
      exact State.runSlots_last hx hm ha hl hu hv hvm
    · intro u d hm ha hl hu
      exact State.runSlots_last_stopped hx hm ha hl (by rw [hu]; nofun)

end Sys2Proof.Machine
end

section
/-!
# Handlers, phases, bank exchanges and semaphores

What the checks of an instruction let through (R51, R73, R86), and with them UIRET, PHASE and SWAP (R98, R295, R94), the semaphore
instructions and the update of the counts at the end of a clk (R92, R142, R144).
-/

namespace Sys2Proof.Machine

/-! ### What the checks let through -/

section
variable {s : State}

theorem State.guarded_on {g : Guard} (h : s.guard g = true) (r : Try) : s.guarded g r = s.settle r := if_pos h

theorem State.needPriv_supervisor (h : s.bk.priv = true) (op : Nat) (r : Try) : s.needPriv op r = r := if_pos h

/-- An instruction that may not stand in a delay bundle or in a region goes on outside both. -/
theorem State.forbid_outside (ho : s.bk.owed = none) (hs : s.bk.inSpec = false) (op : Nat) (r : Try) :
    s.forbid op true true false r = r := by
  simp [State.forbid, State.inDelay, ho, hs]

end

/-! ### Bits and fields of a word -/

theorem fieldOf_eq_extractLsb' (w : Word) (lo n : Nat) : fieldOf w lo n = (w.extractLsb' lo n).toNat :=
  (BitVec.extractLsb'_toNat lo n w).symm

theorem putField_getLsbD_bit (w : Word) {k : Nat} (hk : k < 64) (v : Bool) : (putField w k 1 v.toNat).getLsbD k = v := by
  refine (merge_getLsbD w _ _ k).trans ?_
  cases v <;> simp [BitVec.getLsbD_ofNat, hk]

theorem Bank.putStatus_status_same (b : Bank) {n : Nat} (hn : n < 64) (v : Bool) : (b.putStatus n v).status n = v := by
  rw [Bank.status, Bank.putStatus, Bank.putCsr_csrAt_same, putField_getLsbD_bit _ hn]

/-! ### UIRET (R98) -/

theorem State.modCr_bk_of_banks (s : State) {f : Core → Core} (h : (f s.cr).banks = s.cr.banks) : (s.modCr f).bk = s.bk :=
  s.modCore_bank_of_banks s.cur.core h _ _

@[simp] theorem State.holdCore_bk (s : State) (c : Nat) : (s.holdCore c).bk = s.bk := by
  rw [State.holdCore, State.modCr_bk_of_banks]
  rfl

theorem State.holdCore_hold (s : State) (c : Nat) : (s.holdCore c).cr.issue.hold = max s.cr.issue.hold c := by
  rw [State.holdCore, State.modCr_cr]

/-- A bank that waits for no result has none of a bundle's own to set aside. -/
theorem Bank.without_of_quiet {b : Bank} (hf : b.flight = []) (ha : b.accs = []) (n : Nat) : b.without n = b := by
  cases b
  simp_all [Bank.without]

/-- The bank of a strand that leaves its user-interrupt handler, in bundle `n`. -/
def Bank.leaveHandler (b : Bank) (n : Nat) : Bank :=
  { (b.voidOwn n Reg.shadowed).putStatus 11 false with
    shadow := none, uiReady := false, go := some (b.csrAt 0x021), goRun := some b.runUi }

theorem Bank.leaveHandler_inui (b : Bank) (n : Nat) : (b.leaveHandler n).inui = false :=
  Bank.putStatus_status_same (b.voidOwn n Reg.shadowed) (by decide) false

/-- UIRET of a strand that waits for no result of its handler. -/
theorem exec_uiret_quiet {s : State} {g : Guard} (hg : s.guard g = true) (ho : s.bk.owed = none) (hs : s.bk.inSpec = false)
    (hi : s.bk.inui = true) (hf : s.bk.flight = []) (ha : s.bk.accs = []) :
    exec (.uiret g) s = .next ((s.modBk fun b => b.leaveHandler s.order).holdCore (s.clk + 2)) := by
  show execUiret g s = _
  rw [execUiret, State.guarded_on hg, State.forbid_outside ho hs]
  simp only [Bank.without_of_quiet hf ha, hi, hf, ha]
  rfl

/-- UIRET outside a handler. -/
theorem exec_uiret_outside {s : State} {g : Guard} (hg : s.guard g = true) (ho : s.bk.owed = none) (hs : s.bk.inSpec = false)
    (hi : s.bk.inui = false) : exec (.uiret g) s = s.settle (.trap (illegal 0x50)) := by
  have hw : (s.bk.without s.order).inui = false := hi
  show execUiret g s = _
  rw [execUiret, State.guarded_on hg, State.forbid_outside ho hs]
  simp only [hw, if_true]

/-! ### PHASE (R295) -/

theorem and_low32_eq_extractLsb' (w : Word) : w &&& 0xFFFFFFFF = (w.extractLsb' 0 32).setWidth 64 := by
  refine BitVec.eq_of_toNat_eq ((Nat.and_two_pow_sub_one_eq_mod w.toNat 32).trans ?_)
  rw [BitVec.toNat_setWidth_of_le (by decide), BitVec.extractLsb'_toNat, Nat.shiftRight_zero]

/-! ### SWAP (R94) -/

theorem State.releaseBound_of_no_latch {s : State} {c p : Nat} (hq : (s.bank c p).q = []) (keep : Bool) :
    s.releaseBound c p keep = s := by
  simp [State.releaseBound, hq]

/-- A bank whose queues are empty leaves nothing to be sent again (R276). -/
theorem State.parkQueues_of_idle {s : State} {c p : Nat} (ha : (s.bank c p).accs = []) (hq : (s.bank c p).q = []) :
    s.parkQueues c p = s.modBank c p fun b => b := by
  have hm : ((s.modBank c p fun b => b).bank c p).q = [] := by rw [State.modBank_bank_same, hq]
  simp [State.parkQueues, ha, State.releaseBound_of_no_latch hm]

/-- The exchange of an idle position starts: memory is kept, and the issue unit knows when the exchange is over. -/
theorem State.beginExchange_of_idle {s : State} {c p : Nat} (ha : (s.bank c p).accs = []) (hq : (s.bank c p).q = []) :
    ((s.beginExchange c p).core c).issue.exch = some (p, s.clk + 17) ∧ (s.beginExchange c p).cur = s.cur ∧
      (s.beginExchange c p).mem = s.mem := by
  rw [State.beginExchange, State.parkQueues_of_idle ha hq]
  exact ⟨by rw [State.modCore_core_same]; rfl, rfl, rfl⟩

/-- SWAP of a supervisor that is not guarded, while no exchange is under way. -/
theorem exec_swap_starts {s : State} {g : Guard} (n : BitVec 2) (hg : s.guard g = true) (hp : s.bk.priv = true) (h : s.bk.Plain)
    (hx : s.cr.issue.exch = none) : exec (.swap g n) s = .next (s.beginExchange s.cur.core n.toNat) := by
  show execSwap g n s = _
  rw [execSwap, State.guarded_on hg, State.needPriv_supervisor hp, State.forbid_outside h.owed h.speca]
  simp only [h.grd, hx]
  rfl

/-- SWAP in a guarded task (R298). -/
theorem exec_swap_guarded {s : State} {g : Guard} (n : BitVec 2) (hg : s.guard g = true) (hp : s.bk.priv = true)
    (ho : s.bk.owed = none) (hs : s.bk.inSpec = false) (hgrd : s.bk.guarded = true) :
    exec (.swap g n) s = s.settle (.trap (guardTrap 0xA3)) := by
  show execSwap g n s = _
  rw [execSwap, State.guarded_on hg, State.needPriv_supervisor hp, State.forbid_outside ho hs, if_pos hgrd]

/-- Settles O29: each of the three comes to what its own lemma says, once the checks before it are passed. -/
theorem uiretPhaseAndSwap : Obligations.UiretPhaseAndSwap := by
  intro g a n s hg b
  refine ⟨?_, exec_uiret_outside hg, ?_, ?_, fun hp ho hs hgrd => exec_swap_guarded n hg hp ho hs hgrd⟩
  · intro ho hs hi hf ha
    refine ⟨_, exec_uiret_quiet hg ho hs hi hf ha, ?_⟩
    rw [State.holdCore_bk, State.modBk_bk, State.holdCore_hold]
    exact ⟨Bank.leaveHandler_inui _ _, rfl, rfl, rfl, rfl, rfl, Nat.le_max_right _ _, rfl⟩
  · rw [← and_low32_eq_extractLsb']
    exact State.guarded_on hg _
  · intro hp hplain hx ha hq _
    obtain ⟨hexch, hcur, hmem⟩ := State.beginExchange_of_idle ha hq
    exact ⟨_, exec_swap_starts n hg hp hplain hx, by rw [State.cr, hcur]; exact hexch, hmem⟩

/-! ### References to semaphores (R92) -/

theorem Bank.semOk_iff (b : Bank) (n : BitVec 8) : b.semOk n.toNat = true ↔
    n = 0 ∨ (n.toNat < ((b.csrAt 0x013).extractLsb' 0 9).toNat ∧ ((b.csrAt 0x012).extractLsb' 0 8).toNat + n.toNat ≤ 255) := by
  have h0 : n.toNat = 0 ↔ n = 0 := (BitVec.toNat_inj (y := 0))
  simp [Bank.semOk, fieldOf_eq_extractLsb', h0]

theorem Bank.semPhys_of_ne (b : Bank) {n : Nat} (h : n ≠ 0) : b.semPhys n = ((b.csrAt 0x012).extractLsb' 0 8).toNat + n := by
  rw [Bank.semPhys, if_neg h, fieldOf_eq_extractLsb']

section
variable {s : State} {g : Guard} {n : Nat}

/-- A reference in the window, or the null one, is no obstacle. -/
theorem State.guarded_semNeed_ok (hg : s.guard g = true) (h : s.bk.semOk n = true) (r : Try) :
    s.guarded g (s.semNeed [n] r) = s.settle r := by
  simp [State.guarded_on hg, State.semNeed, h]

/-- A reference outside the window raises REG_RANGE, whatever the instruction would do. -/
theorem State.guarded_semNeed_range (hg : s.guard g = true) (h : s.bk.semOk n ≠ true) (r : Try) :
    s.guarded g (s.semNeed [n] r) = s.settle (.trap (rangeTrap 2 n)) := by
  simp [State.guarded_on hg, State.semNeed, h]

end

theorem Core.semCount_of_ne (x : Core) {k : Nat} (h : k ≠ 0) : x.semCount k = mapGet (fun _ => 0) x.sem k := if_neg h

theorem Core.semLeft_of_ne (x : Core) {k : Nat} (h : k ≠ 0) :
    x.semLeft k = mapGet (fun _ => 0) x.sem k - ((x.semWait.filter (fun e => e.1 == k)).map (·.2)).sum := by
  rw [Core.semLeft, Core.semCount_of_ne x h]

theorem Core.semReady_of_ne (x : Core) {k : Nat} (h : k ≠ 0) (t : Nat) : x.semReady k t = decide (t ≤ x.semLeft k) := by
  simp [Core.semReady, h]

/-! ### The instructions on a semaphore of the window (R144) -/

section
variable {s : State} {g : Guard} {n : BitVec 8} {k : Nat}

/-- WAITS of a semaphore that has enough left takes its threshold. -/
theorem exec_waits_takes (hg : s.guard g = true) (hok : s.bk.semOk n.toNat = true) (hk : s.bk.semPhys n.toNat = k) (h0 : k ≠ 0)
    (v : BitVec 8) (hv : v.toNat ≤ s.cr.semLeft k) :
    exec (.waits g n v) s = .next (s.modCr fun x => { x with semWait := x.semWait ++ [(k, v.toNat)] }) := by
  refine (State.guarded_semNeed_ok hg hok _).trans ?_
  simp only [hk, Core.semReady_of_ne _ h0, hv, decide_true, if_true, if_neg h0, Core.takeSem]
  rfl

/-- WAITS of a semaphore that has too little left blocks. -/
theorem exec_waits_blocks (hg : s.guard g = true) (hok : s.bk.semOk n.toNat = true) (hk : s.bk.semPhys n.toNat = k) (h0 : k ≠ 0)
    (v : BitVec 8) (hv : s.cr.semLeft k < v.toNat) : exec (.waits g n v) s = s.settle (.block (.sem k v.toNat) s) := by
  refine (State.guarded_semNeed_ok hg hok _).trans ?_
  simp [hk, Core.semReady_of_ne _ h0, Nat.not_le.2 hv]

theorem exec_sigs_window (hg : s.guard g = true) (hok : s.bk.semOk n.toNat = true) (hk : s.bk.semPhys n.toNat = k) (h0 : k ≠ 0)
    (v : BitVec 8) : exec (.sigs g n v) s = .next (s.modCr fun x => { x with semSig := x.semSig ++ [(k, v.toNat, s.bk.uid)] }) := by
  refine (State.guarded_semNeed_ok hg hok _).trans ?_
  simp only [hk, if_neg h0, Core.signal]
  rfl

theorem exec_semset_window (hg : s.guard g = true) (hok : s.bk.semOk n.toNat = true) (hk : s.bk.semPhys n.toNat = k) (h0 : k ≠ 0)
    (a : BitVec 6) :
    exec (.semset g a n) s = .next (s.modCr fun x => { x with semSet := x.semSet ++ [(k, min (s.sr a).toNat 65535)] }) := by
  refine (State.guarded_semNeed_ok hg hok _).trans ?_
  simp only [hk, if_neg h0]
  rfl

theorem exec_semrd (hg : s.guard g = true) (hok : s.bk.semOk n.toNat = true) (hk : s.bk.semPhys n.toNat = k) (d : BitVec 6) :
    exec (.semrd g d n) s = .next (s.landS d (BitVec.ofNat 64 (s.cr.semCount k)) 1) := by
  rw [← hk]
  exact State.guarded_semNeed_ok hg hok _

end

/-! ### The update at the end of a clk (R142) -/

/-- A read after writes, at the keys of a list, of values that depend on the key alone. -/
theorem mapGet_foldl_mapSet {α : Type} [DecidableEq α] {dflt : Nat → α} (f : Nat → α) (l : List Nat) (n : Nat) : ∀ m : SMap α,
    mapGet dflt (l.foldl (fun m k => mapSet dflt m k (f k)) m) n = if n ∈ l then f n else mapGet dflt m n := by
  induction l with
  | nil => exact fun m => by simp
  | cons k l ih =>
    intro m
    rw [List.foldl_cons, ih, mapGet_mapSet]
    by_cases hl : n ∈ l
    · simp [hl]
    · by_cases hk : n = k
      · simp [hk]
      · simp [hl, hk]

theorem not_mem_keys_iff {β : Type} (l : List (Nat × β)) (n : Nat) : n ∉ l.map (·.1) ↔ ∀ e ∈ l, ¬(e.1 == n) = true := by
  rw [List.mem_map, not_exists]
  exact forall_congr' fun e => by rw [not_and, beq_iff_eq]

/-- The count after the update: it changes where a SEMSET, a wait or a signal of this clk names it. -/
theorem Core.semUpdate_count (x : Core) (n : Nat) : mapGet (fun _ => 0) x.semUpdate.sem n =
    if x.semSet.find? (fun e => e.1 == n) = none ∧ x.semWait.filter (fun e => e.1 == n) = [] ∧ x.semSig.filter (fun e => e.1 == n) = []
    then mapGet (fun _ => 0) x.sem n else min (x.semNext n) 65535 := by
  refine (mapGet_foldl_mapSet (fun k => min (x.semNext k) 0xFFFF) _ n x.sem).trans ?_
  have huntouched : n ∉ (x.semSet.map (·.1) ++ x.semWait.map (·.1) ++ x.semSig.map (·.1)).eraseDups ↔
      x.semSet.find? (fun e => e.1 == n) = none ∧ x.semWait.filter (fun e => e.1 == n) = [] ∧ x.semSig.filter (fun e => e.1 == n) = [] := by
    rw [List.mem_eraseDups, List.mem_append, List.mem_append, not_or, not_or, not_mem_keys_iff, not_mem_keys_iff, not_mem_keys_iff,
      List.find?_eq_none, List.filter_eq_nil_iff, List.filter_eq_nil_iff, and_assoc]
  rw [← ite_not]
  exact ite_congr (propext huntouched) (fun _ => rfl) fun _ => rfl

/-- The count at the end of the clk before it is clamped, from what the waits leave of it. -/
theorem Core.semNext_of_left {x : Core} {n left : Nat} (h : x.semLeft n = left) : x.semNext n =
    (match x.semSet.find? (fun e => e.1 == n) with
      | some e => e.2
      | none => left) + ((x.semSig.filter (fun e => e.1 == n)).map (fun e => e.2.1)).sum := by
  subst h
  rfl

/-- A clamped signal sets SEMSAT in the bank of the task that issued it. -/
theorem Core.semUpdate_semsat {x : Core} {p : Nat} {b : Bank} {t : Task} (hb : (p, b) ∈ x.banks) (ht : b.task = some t)
    {e : Nat × Nat × Nat} (he : e ∈ x.semSig) (hu : e.2.2 = t.uid) (hn : 65535 < x.semNext e.1) :
    (p, b.putStatus 1 true) ∈ x.semUpdate.banks := by
  have hsat : ((x.semSig.filter (fun e => decide (0xFFFF < x.semNext e.1))).map (fun e => e.2.2)).contains t.uid = true :=
    List.contains_iff_mem.2 (List.mem_map.2 ⟨e, List.mem_filter.2 ⟨he, decide_eq_true hn⟩, hu⟩)
  refine List.mem_map.2 ⟨(p, b), hb, ?_⟩
  simp only [ht, hsat, if_true]

/-- Settles O39: a reference passes the window's check or raises its trap, and the update reads each count from what names it. -/
theorem semaphores : Obligations.Semaphores := by
  refine ⟨?_, ?_⟩
  · intro g d a n v s hg base legal k trap count taken
    have hlegal : s.bk.semOk n.toNat = true ↔ legal := s.bk.semOk_iff n
    refine ⟨fun hn => ?_, ?_, fun hl hn => ?_⟩
    · have hrange := State.guarded_semNeed_range hg (mt hlegal.1 hn)
      exact ⟨hrange _, hrange _, hrange _, hrange _⟩
    · rintro rfl
      have hnull := State.guarded_semNeed_ok (n := 0) hg rfl
      exact ⟨hnull _, hnull _, hnull _, hnull _⟩
    · have hok := hlegal.2 hl
      have hn' : n.toNat ≠ 0 := fun h => hn (BitVec.eq_of_toNat_eq h)
      have hk : s.bk.semPhys n.toNat = k := s.bk.semPhys_of_ne hn'
      have hk0 : k ≠ 0 := by omega
      have hleft : s.cr.semLeft k = count - taken := s.cr.semLeft_of_ne hk0
      refine ⟨fun hv => exec_waits_takes hg hok hk hk0 v (hleft ▸ hv), fun hv => exec_waits_blocks hg hok hk hk0 v (hleft ▸ hv),
        exec_sigs_window hg hok hk hk0 v, exec_semset_window hg hok hk hk0 a, ?_⟩
      rw [exec_semrd hg hok hk, s.cr.semCount_of_ne hk0]
  · intro x n hn count set waits sigs next
    have hnext : x.semNext n = next := Core.semNext_of_left (x.semLeft_of_ne hn)
    refine ⟨?_, ?_, rfl, rfl, rfl⟩
    · rw [x.semUpdate_count, hnext]
    · intro p t hb ht hsig hover
      obtain ⟨e, he, hu⟩ := List.any_eq_true.1 hsig
      obtain ⟨he, hen⟩ := List.mem_filter.1 he
      exact ⟨_, Core.semUpdate_semsat hb ht he (eq_of_beq hu) (by rw [eq_of_beq hen, hnext]; exact hover),
        Bank.putStatus_status_same _ (by decide) true⟩

end Sys2Proof.Machine
end

section
/-!
# Conversions and the transform slot

What the elements of a packed register hold (R102), what the checks on vector registers let through (R92, R95, R101), and with them VCVT and the
instructions of the transform slot (R112, R133, R134, R161).
-/

namespace Sys2Proof.Machine

/-! ### Elements of a register (R102) -/

theorem elems_eq_map (w : Nat) (v : VReg) : elems w v = (List.range (2048 / w)).map fun i => (v.extractLsb' (w * i) w).toNat := by
  simp [elems, bitsOf, BitVec.extractLsb'_toNat]

theorem elems_getD {w : Nat} (hw : w ∣ 2048) (v : VReg) (i : Nat) : (elems w v).getD i 0 = (v.extractLsb' (w * i) w).toNat := by
  by_cases hi : i < 2048 / w
  · simp [elems_eq_map, hi]
  · have hpast : 2048 ≤ w * i := by
      rw [← Nat.mul_div_cancel' hw]
      exact Nat.mul_le_mul_left w (Nat.not_lt.1 hi)
    have hzero : v.extractLsb' (w * i) w = 0#w := by
      ext j hj
      rw [BitVec.getElem_extractLsb', BitVec.getLsbD_of_ge _ _ (Nat.le_trans hpast (Nat.le_add_right _ _)), BitVec.getElem_zero]
    simp [elems_eq_map, hi, hzero]

/-- Element k of packed numbers stands at bit w · k. -/
theorem packBits_testBit {w j : Nat} (hj : j < w) : ∀ (xs : List Nat) (k : Nat),
    (packBits w xs).testBit (w * k + j) = (xs.getD k 0).testBit j
  | [], k => by simp [packBits]
  | x :: xs, 0 => by
    rw [packBits, Nat.add_comm, Nat.testBit_two_pow_mul_add _ (Nat.mod_lt _ (Nat.two_pow_pos w))]
    simp [hj]
  | x :: xs, k + 1 => by
    rw [packBits, Nat.add_comm, Nat.testBit_two_pow_mul_add _ (Nat.mod_lt _ (Nat.two_pow_pos w)),
      if_neg (by rw [Nat.mul_succ]; omega), show w * (k + 1) + j - w = w * k + j by rw [Nat.mul_succ]; omega,
      packBits_testBit hj xs k, List.getD_cons_succ]

theorem packV_extractLsb' {w k : Nat} (h : w * (k + 1) ≤ 2048) (xs : List Nat) :
    (packV w xs).extractLsb' (w * k) w = BitVec.ofNat w (xs.getD k 0) := by
  rw [Nat.mul_succ] at h
  ext j hj
  rw [BitVec.getElem_extractLsb', packV, BitVec.getLsbD_ofNat, packBits_testBit hj, ← BitVec.getLsbD_eq_getElem, BitVec.getLsbD_ofNat,
    decide_eq_true (by omega : w * k + j < 2048), decide_eq_true hj]

/-! ### What the checks on vector registers let through -/

theorem extractLsb'_allOnes_ne_zero {n lo len : Nat} (h : lo < n) (hl : 0 < len) : (BitVec.allOnes n).extractLsb' lo len ≠ 0#len := by
  intro h0
  have hbit := congrArg (·.getLsbD 0) h0
  simp [h, hl] at hbit

/-- A register none of whose words is uncorrectable is good for every mask (R101). -/
theorem State.VFree.vbad_eq_false {s : State} {n : Nat} (h : s.VFree n) (m : VReg) : s.cr.vbad (s.bk.vphys n) m = false := by
  have hall := h.good
  rw [Core.vbad, List.any_eq_false] at hall ⊢
  intro l hl
  cases l with
  | vector c w =>
    have hword : w / 32 ≠ s.bk.vphys n := fun hw =>
      hall _ hl (Bool.and_eq_true_iff.2 ⟨beq_iff_eq.2 hw, bne_iff_ne.2 (extractLsb'_allOnes_ne_zero (by omega) (by omega))⟩)
    simp [hword]
  | _ => exact Bool.false_ne_true

theorem State.vneed_of_free {s : State} {ns : List (Nat × VReg)} (h : ∀ n ∈ ns, s.VFree n.1) (r : Try) : s.vneed ns r = r := by
  have hrange : s.vRange (ns.map (·.1)) = none := by
    simpa [State.vRange] using fun n m hn => (h (n, m) hn).legal
  have haway : ns.find? (fun n => s.groupAway s.cur.core s.bk.uid (s.bk.vphys n.1 / 8)) = none := by
    simpa using fun n m hn => (h (n, m) hn).here
  have hbad : ns.find? (fun n => s.cr.vbad (s.bk.vphys n.1) n.2) = none := by
    simpa using fun n m hn => (h (n, m) hn).vbad_eq_false m
  simp only [State.vneed, hrange, haway, hbad]

/-- A vector slot whose registers can be used does what it comes to, and nothing without an active element (R124). -/
theorem State.vslot_of_free {s : State} {ns : List (Nat × VReg)} (h : ∀ n ∈ ns, s.VFree n.1) (g : Guard) (w : Nat) (t : State) :
    s.vslot g w (s.vneed ns (.ok t)) = .next (if (List.range (2048 / w)).any (fun i => s.active g w i) then t else s) := by
  rw [State.vneed_of_free h, State.vslot, apply_ite Host.Outcome.next]
  rfl

theorem State.settle_of_free {s : State} {ns : List (Nat × VReg)} (h : ∀ n ∈ ns, s.VFree n.1) (t : State) :
    s.settle (s.vneed ns (.ok t)) = .next t := by
  rw [State.vneed_of_free h]
  rfl

theorem State.free_pair {s : State} {a b : Nat} (ha : s.VFree a) (hb : s.VFree b) (m m' : VReg) : ∀ n ∈ [(a, m), (b, m')], s.VFree n.1 := by
  simp [ha, hb]

/-! ### VCVT (R133, R134) -/

theorem tyWidth_dvd (ty : BitVec 4) : tyWidth ty ∣ 2048 := by
  revert ty
  decide

theorem tyDx_of_tyAny {ty : BitVec 4} (h : tyAny ty = true) : tyDx ty = false := by
  revert ty
  decide

theorem tyDx_of_tyFlt {ty : BitVec 4} (h : tyFlt ty = true) : tyDx ty = false := by
  revert ty
  decide

theorem valuesOf_eq_map (ty : BitVec 4) (v : VReg) : valuesOf ty.toNat v =
    (List.range (2048 / tyWidth ty)).map fun j => (fmtOf ty.toNat).read (v.extractLsb' (tyWidth ty * j) (tyWidth ty)).toNat := by
  rw [valuesOf, BitVec.ofNat_toNat, BitVec.setWidth_eq, elems_eq_map, List.map_map]
  rfl

section
variable {s : State} {ty src : BitVec 4} {vd va : BitVec 11} (hd : s.VFree vd.toNat) (ha : s.VFree va.toNat)
include hd ha

theorem exec_vcvt_plain (ht : tyAny ty = true) (hs : tyAny src = true) (g : Guard) (m part : BitVec 3) (gap : BitVec 4) :
    exec (.vcvt g ty m vd va src part gap) s =
      .next (if (List.range (2048 / tyWidth ty)).any (fun i => s.active g (tyWidth ty) i) then
        s.elementwise g (tyWidth ty) vd 3 fun i =>
          match cvtSource (tyCount src) (tyCount ty) part.toNat i with
          | some j => convert src.toNat ty.toNat (s.rm m) s.satcvt ((s.vget va.toNat).extractLsb' (tyWidth src * j) (tyWidth src)).toNat
          | none => (((s.vget vd.toNat).extractLsb' (tyWidth ty * i) (tyWidth ty)).toNat, 0)
      else s) := by
  simp only [← elems_getD (tyWidth_dvd _)]
  have hplain : exec (.vcvt g ty m vd va src part gap) s = s.vslot g (tyWidth ty) (s.cvtPlain g ty (s.rm m) vd va src part.toNat) :=
    (if_neg (by simp [tyDx_of_tyAny ht])).trans (if_neg (by simp [tyDx_of_tyAny hs]))
  exact hplain.trans (State.vslot_of_free (State.free_pair hd ha _ _) g _ _)

theorem exec_vcvt_toDx (ht : tyDx ty = true) (hd' : s.VFree (vd.toNat + 1)) (g : Guard) (m part : BitVec 3) (gap : BitVec 4) :
    let r := dxStore (tyWidth ty) (s.rm m) gap.toNat (part.toNat * tyCount src / 32) (s.vget vd.toNat) (s.vget (vd.toNat + 1))
      ((List.range (tyCount src)).map fun j =>
        (fmtOf src.toNat).read ((s.vget va.toNat).extractLsb' (tyWidth src * j) (tyWidth src)).toNat)
    exec (.vcvt g ty m vd va src part gap) s =
      .next ((s.landV vd r.1.1 3 r.2).land (.v (s.bk.vphys (vd.toNat + 1)) r.1.2 (BitVec.allOnes 2048)) 3) := by
  rw [tyCount, ← valuesOf_eq_map]
  refine (if_pos ht).trans (State.settle_of_free ?_ _)
  simp [hd, ha, hd']

theorem exec_vcvt_fromDx (ht : tyFlt ty = true) (hs : tyDx src = true) (ha' : s.VFree (va.toNat + 1)) (g : Guard) (m part : BitVec 3)
    (gap : BitVec 4) :
    let r := dxPair (tyWidth src) (s.vget va.toNat) (s.vget (va.toNat + 1))
    let t := s.elementwise g (tyWidth ty) vd 3 fun i =>
      match cvtSource (tyCount src) (tyCount ty) part.toNat i with
      | some j => roundTo (fmtOf ty.toNat) (s.rm m) s.satcvt (r.1.getD j .nan)
      | none => (((s.vget vd.toNat).extractLsb' (tyWidth ty * i) (tyWidth ty)).toNat, 0)
    exec (.vcvt g ty m vd va src part gap) s =
      .next (if (List.range (2048 / tyWidth ty)).any (fun i => s.active g (tyWidth ty) i) then (if r.2 then t.land .none 3 0x80 else t)
      else s) := by
  simp only [← elems_getD (tyWidth_dvd _)]
  have hsource : exec (.vcvt g ty m vd va src part gap) s = s.vslot g (tyWidth ty) (s.cvtFromDx g ty (s.rm m) vd va src part.toNat) :=
    (if_neg (by simp [tyDx_of_tyFlt ht])).trans (if_pos hs)
  refine hsource.trans (State.vslot_of_free ?_ g _ _)
  simp [hd, ha, ha']

end

/-! ### The transform slot (R161) -/

/-- The value list that a transform writes is what the elements of its register hold. -/
theorem exists_landV_of_packV {s : State} {i : Instr} {vd : BitVec 11} {n lat : Nat} {rs : List (Flagged Nat)} (hn : n * rs.length ≤ 2048)
    (h : exec i s = .next (s.landV vd (packV n (rs.map (·.1))) lat (rs.foldl (fun f r => f ||| r.2) 0))) :
    ∃ v : VReg, exec i s = .next (s.landV vd v lat (rs.foldl (fun f r => f ||| r.2) 0)) ∧
      ∀ k, k < rs.length → v.extractLsb' (n * k) n = BitVec.ofNat n (rs.getD k (0, 0)).1 := by
  refine ⟨_, h, fun k hk => ?_⟩
  rw [packV_extractLsb' (Nat.le_trans (Nat.mul_le_mul_left n hk) hn)]
  simp [hk]

/-- Position i of run h lies inside m runs of n. -/
theorem mul_add_lt_mul {n m h i : Nat} (hh : h < m) (hi : i < n) : n * h + i < n * m :=
  Nat.lt_of_lt_of_le (Nat.add_lt_add_left hi _) (Nat.mul_le_mul_left n hh)

/-- The transpose reads element (c, r) of the block for element (r, c). -/
theorem transposeFrom_block {m row col : Nat} (hr : row < m) (hc : col < m) (block : Nat) :
    transposeFrom m (m * m * block + m * row + col) = m * m * block + m * col + row := by
  have hin : m * row + col < m * m := mul_add_lt_mul hr hc
  have hm : 0 < m := by omega
  have hblock : (m * m * block + (m * row + col)) / (m * m) = block := by
    rw [Nat.mul_add_div (Nat.mul_pos hm hm), Nat.div_eq_of_lt hin, Nat.add_zero]
  have hcol : (m * m * block + (m * row + col)) % m = col := by
    rw [Nat.mul_assoc, Nat.mul_add_mod, Nat.mul_add_mod, Nat.mod_eq_of_lt hc]
  have hrow : (m * m * block + (m * row + col)) % (m * m) / m = row := by
    rw [Nat.mul_add_mod, Nat.mod_eq_of_lt hin, Nat.mul_add_div hm, Nat.div_eq_of_lt hc, Nat.add_zero]
  rw [transposeFrom, Nat.add_assoc (m * m * block), hblock, hcol, hrow]

/-- What a register of transposed blocks holds. -/
theorem packV_transpose_extractLsb' {n m block row col : Nat} (v : VReg) (hr : row < m) (hc : col < m)
    (hin : m * m * (block + 1) ≤ 2048 / n) :
    (packV n ((List.range (2048 / n)).map fun i => (v.extractLsb' (n * transposeFrom m i) n).toNat)).extractLsb'
      (n * (m * m * block + m * row + col)) n = v.extractLsb' (n * (m * m * block + m * col + row)) n := by
  have hdest : m * m * block + m * row + col < 2048 / n := by
    rw [Nat.add_assoc]
    exact Nat.lt_of_lt_of_le (mul_add_lt_mul (Nat.lt_succ_self block) (mul_add_lt_mul hr hc)) hin
  rw [packV_extractLsb' (Nat.le_trans (Nat.mul_le_mul_left n hdest) (Nat.mul_div_le _ _)), List.getD_eq_getElem?_getD, List.getElem?_map,
    List.getElem?_range hdest, Option.map_some, transposeFrom_block hr hc, Option.getD_some, BitVec.ofNat_toNat, BitVec.setWidth_eq]

theorem runsOf_eq_map (n : Nat) : ∀ (m : Nat) (xs : List Nat), runsOf n m xs = (List.range m).map fun h => (xs.drop (n * h)).take n
  | 0, _ => rfl
  | m + 1, xs => by
    rw [runsOf, runsOf_eq_map n m, List.range_succ_eq_map]
    simp [Nat.mul_succ, Nat.add_comm]

theorem runsOf_map_range (n m : Nat) (f : Nat → Nat) :
    runsOf n m ((List.range (n * m)).map f) = (List.range m).map fun h => (List.range n).map fun i => f (n * h + i) := by
  rw [runsOf_eq_map]
  refine List.map_congr_left fun h hh => List.ext_getElem ?_ fun i _ _ => by simp
  have hrun := Nat.mul_le_mul_left n (List.mem_range.1 hh)
  rw [Nat.mul_succ] at hrun
  simp only [List.length_take, List.length_drop, List.length_map, List.length_range]
  omega

theorem getD_flatten_of_length {n : Nat} : ∀ (L : List (List Nat)), (∀ r ∈ L, r.length = n) → ∀ h i, i < n →
    L.flatten.getD (n * h + i) 0 = (L.getD h []).getD i 0
  | [], _, _, _, _ => rfl
  | r :: L, hL, 0, i, hi => by
    have hr := hL r List.mem_cons_self
    simp [List.getElem?_append_left (hr.symm ▸ hi : i < r.length)]
  | r :: L, hL, h + 1, i, hi => by
    have hr := hL r List.mem_cons_self
    rw [List.flatten_cons, List.getD_eq_getElem?_getD, List.getElem?_append_right (by rw [hr, Nat.mul_succ]; omega), hr,
      show n * (h + 1) + i - n = n * h + i by rw [Nat.mul_succ]; omega, List.getD_cons_succ, ← List.getD_eq_getElem?_getD]
    exact getD_flatten_of_length L (fun r hr => hL r (List.mem_cons_of_mem _ hr)) h i hi

/-- What a register holds that is written in runs of n elements. -/
theorem packV_runs_extractLsb' {w n m : Nat} {f : Nat → Flagged (List Nat)} (hf : ∀ h, (f h).1.length = n) (hw : w * (n * m) ≤ 2048)
    {h i : Nat} (hh : h < m) (hi : i < n) :
    (packV w (((List.range m).map f).map (·.1)).flatten).extractLsb' (w * (n * h + i)) w = BitVec.ofNat w ((f h).1.getD i 0) := by
  have hin : n * h + i < n * m := mul_add_lt_mul hh hi
  rw [packV_extractLsb' (Nat.le_trans (Nat.mul_le_mul_left w hin) hw), getD_flatten_of_length _ (by simpa using fun h _ => hf h) h i hi]
  simp [hh]

/-- The runs of the Hadamard stage fill 64 elements (R161). -/
theorem hadamardRuns_mul (b : BitVec 1) : (if b = 1 then 32 else 16) * (64 / (if b = 1 then 32 else 16)) = 64 := by
  revert b
  decide

theorem hadamard_length (xs : List Nat) : (hadamard xs).1.length = xs.length := by
  rw [hadamard]
  split <;> simp

theorem State.regsFrom_free {s : State} {n k : Nat} (h : ∀ i, i < k → s.VFree (n + i)) (mask : VReg) :
    ∀ r ∈ regsFrom n k mask, s.VFree r.1 := by
  simpa [regsFrom] using h

theorem State.regsFrom_pair_free {s : State} {n : Nat} (h : s.VFree n) (h' : s.VFree (n + 1)) (mask : VReg) :
    ∀ r ∈ regsFrom n 2 mask, s.VFree r.1 :=
  State.regsFrom_free (fun | 0, _ => h | 1, _ => h') mask

section
variable {s : State} {vd va : BitVec 11} (hd : s.VFree vd.toNat) (ha : s.VFree va.toNat)
include hd ha

theorem exec_xexp (b : BitVec 1) :
    let f := fmtOf (if b = 1 then 9 else 10)
    let w := if b = 1 then 16 else 32
    let rs := (List.range (2048 / w)).map fun i => roundTo f (s.rm 0) false (fExp (f.read ((s.vget va.toNat).extractLsb' (w * i) w).toNat))
    exec (.xexp vd va b) s = .next (s.landV vd (packV w (rs.map (·.1))) 6 (rs.foldl (fun f r => f ||| r.2) 0)) := by
  intro f w rs
  have hrs : (elems w (s.vget va.toNat)).map (fun a => roundTo f (s.rm 0) false (fExp (f.read a))) = rs := by
    rw [elems_eq_map, List.map_map]
    rfl
  rw [← hrs]
  exact State.settle_of_free (State.free_pair hd ha _ _) _

theorem exec_xtrn (w : BitVec 2) :
    let n := if w = 0 then 32 else if w = 1 then 8 else 16
    let r := if w = 1 then 16 else 8
    exec (.xtrn vd va w) s = .next (s.landV vd (packV n ((List.range (2048 / n)).map fun i =>
      ((s.vget va.toNat).extractLsb' (n * transposeFrom r i) n).toNat)) 4) := by
  intro n r
  have hn : n ∣ 2048 := by revert w; decide
  simp only [← elems_getD hn]
  have hw0 : w.toNat = 0 ↔ w = 0 := BitVec.toNat_inj (y := 0)
  have hw1 : w.toNat = 1 ↔ w = 1 := BitVec.toNat_inj (y := 1)
  change execXtrn vd va w s = _
  simp only [execXtrn, hw0, hw1]
  exact State.settle_of_free (State.free_pair hd ha _ _) _

theorem exec_xcvt_narrow {q : BitVec 3} {dest : Nat} (hq : xcvtPair q.toNat = (10, dest)) (b : BitVec 1) :
    let rs := (List.range 128).map fun i =>
      if 64 * b.toNat ≤ i ∧ i < 64 * b.toNat + 64 then
        convert 10 dest (s.rm 0) s.satcvt ((s.vget va.toNat).extractLsb' (32 * (i - 64 * b.toNat)) 32).toNat
      else (((s.vget vd.toNat).extractLsb' (16 * i) 16).toNat, 0)
    exec (.xcvt vd va q b) s = .next (s.landV vd (packV 16 (rs.map (·.1))) 3 (rs.foldl (fun f r => f ||| r.2) 0)) := by
  simp only [← elems_getD (show 32 ∣ 2048 by decide), ← elems_getD (show 16 ∣ 2048 by decide)]
  change execXcvt vd va q b s = _
  rw [execXcvt, hq]
  exact State.settle_of_free (State.free_pair hd ha _ _) _

theorem exec_xcvt_widen {q : BitVec 3} {src : Nat} (hq : xcvtPair q.toNat = (src, 10)) (hs : src ≠ 10) (b : BitVec 1) :
    let rs := (List.range 64).map fun i =>
      convert src 10 (s.rm 0) s.satcvt ((s.vget va.toNat).extractLsb' (16 * (64 * b.toNat + i)) 16).toNat
    exec (.xcvt vd va q b) s = .next (s.landV vd (packV 32 (rs.map (·.1))) 3 (rs.foldl (fun f r => f ||| r.2) 0)) := by
  simp only [← elems_getD (show 16 ∣ 2048 by decide)]
  change execXcvt vd va q b s = _
  rw [execXcvt, hq]
  simp only [if_neg hs]
  exact State.settle_of_free (State.free_pair hd ha _ _) _

theorem exec_xhad (b : BitVec 1) :
    let n := if b = 1 then 32 else 16
    let rs := (List.range (64 / n)).map fun h => hadamard ((List.range n).map fun i =>
      ((s.vget va.toNat).extractLsb' (32 * (n * h + i)) 32).toNat)
    exec (.xhad vd va b) s = .next (s.landV vd (packV 32 (rs.map (·.1)).flatten) 5 (rs.foldl (fun f r => f ||| r.2) 0)) := by
  intro n rs
  have hn : n * (64 / n) = 64 := hadamardRuns_mul b
  have hrs : (runsOf n (64 / n) (elems 32 (s.vget va.toNat))).map hadamard = rs := by
    rw [elems_eq_map, show 2048 / 32 = n * (64 / n) from hn.symm, runsOf_map_range, List.map_map]
    rfl
  rw [← hrs, ← List.flatMap_def]
  exact State.settle_of_free (State.free_pair hd ha _ _) _

end

section
variable {s : State} {vd va : BitVec 11}

theorem exec_xqnt (b : BitVec 1) (q : BitVec 3) (hd : s.VFree vd.toNat) (hd' : s.VFree (vd.toNat + 1))
    (hk : ∀ i, i < (if b = 1 then 8 else 4) → s.VFree (va.toNat + i)) :
    let xs := (List.range (if b = 1 then 8 else 4)).flatMap fun i =>
      (List.range 64).map fun l => F32.read ((s.vget (va.toNat + i)).extractLsb' (32 * l) 32).toNat
    let r := dxStore (if b = 1 then 4 else 8) (s.rm 0) q.toNat 0 0 0 xs
    exec (.xqnt vd va b q) s =
      .next ((s.landV vd r.1.1 4 r.2).land (.v (s.bk.vphys (vd.toNat + 1)) r.1.2 (BitVec.allOnes 2048)) 4) := by
  have hxs (v : VReg) : ((List.range 64).map fun l => F32.read (v.extractLsb' (32 * l) 32).toNat) = valuesOf 10 v :=
    (valuesOf_eq_map 10 v).symm
  simp only [hxs]
  exact State.settle_of_free
    (fun r hr => (List.mem_append.1 hr).elim (State.regsFrom_pair_free hd hd' 0 r) (State.regsFrom_free hk vAll r)) _

theorem exec_xdqn (b : BitVec 1) (ha : s.VFree va.toNat) (ha' : s.VFree (va.toNat + 1))
    (hk : ∀ i, i < (if b = 1 then 8 else 4) → s.VFree (vd.toNat + i)) :
    let r := dxPair (if b = 1 then 4 else 8) (s.vget va.toNat) (s.vget (va.toNat + 1))
    let bits := r.1.map fun x => (roundTo F32 0 false x).1
    let t := (List.range (if b = 1 then 8 else 4)).foldl (fun t i =>
      t.land (.v (s.bk.vphys (vd.toNat + i)) (packV 32 ((bits.drop (64 * i)).take 64)) (BitVec.allOnes 2048)) 3) s
    exec (.xdqn vd va b) s = .next (if r.2 then t.land .none 3 0x80 else t) :=
  State.settle_of_free
    (fun r hr => (List.mem_append.1 hr).elim (State.regsFrom_free hk 0 r) (State.regsFrom_pair_free ha ha' vAll r)) _

end

/-- Settles O50: with its registers usable, each form comes to what its own lemma says; the elements of a packed register are the numbers packed. -/
theorem conversionsAndTransforms : Obligations.ConversionsAndTransforms := by
  refine ⟨?_, ?_⟩
  · intro g ty src gap m part vd va s hd ha w ws nd ns p rm x old from_ act
    refine ⟨fun ht hs _ => exec_vcvt_plain hd ha ht hs g m part gap, fun ht _ hd' => exec_vcvt_toDx hd ha ht hd' g m part gap, ?_⟩
    intro ht hs ha' hact
    exact (exec_vcvt_fromDx hd ha ht hs ha' g m part gap).trans (congrArg _ (if_pos hact))
  · intro vd va b w q s hd ha e rm flags lands
    refine ⟨?_, ?_, fun hq => ?_, fun hq => ?_, ?_, fun hd' hk => exec_xqnt b q hd hd' hk, fun ha' hk => exec_xdqn b ha ha' hk⟩
    · have hcount : (if b = 1 then 128 else 64) = 2048 / (if b = 1 then 16 else 32) := by split <;> rfl
      rw [hcount]
      refine exists_landV_of_packV ?_ (exec_xexp hd ha b)
      rw [List.length_map, List.length_range]
      exact Nat.mul_div_le _ _
    · exact ⟨_, exec_xtrn hd ha w, fun block row col hr hc hin => packV_transpose_extractLsb' _ hr hc hin⟩
    · exact exists_landV_of_packV (by simp) (exec_xcvt_narrow hd ha (by rcases hq with rfl | rfl <;> rfl) b)
    · exact exists_landV_of_packV (by simp) (exec_xcvt_widen hd ha (by rcases hq with rfl | rfl <;> rfl) (by split <;> decide) b)
    · intro n
      have hn : 32 * (n * (64 / n)) ≤ 2048 := Nat.le_of_eq (congrArg (32 * ·) (hadamardRuns_mul b))
      have hlen (f : Nat → Nat) : (hadamard ((List.range n).map f)).1.length = n := by
        rw [hadamard_length, List.length_map, List.length_range]
      exact ⟨_, exec_xhad hd ha b, fun h i hh hi => packV_runs_extractLsb' (fun _ => hlen _) hn hh hi⟩

end Sys2Proof.Machine
end

section
/-!
# Element-wise vector writes

What an element-wise write merges, what its landing changes, and what the elements come to: integers modulo 2^w (R102, R126) and floating-point
encodings (R104, R107).
-/

namespace Sys2Proof.Machine

/-! ### The merge and the flags of an element-wise write (R124) -/

/-- A flag of a list of results is a flag of one of them. -/
theorem foldl_flags_getLsbD {α : Type} (k : Nat) : ∀ (rs : List (Flagged α)) (fl : BitVec 8),
    (rs.foldl (fun fl r => fl ||| r.2) fl).getLsbD k = (fl.getLsbD k || rs.any fun r => r.2.getLsbD k)
  | [], fl => by simp
  | r :: rs, fl => by rw [List.foldl_cons, foldl_flags_getLsbD k rs, List.any_cons, BitVec.getLsbD_or, Bool.or_assoc]

/-- What an element-wise write leaves in element i, and its flags. -/
def State.elementOf (s : State) (g : Guard) (w : Nat) (old : VReg) (f : Nat → Flagged Nat) (i : Nat) : Flagged Nat :=
  if s.active g w i then f i else ((old.extractLsb' (w * i) w).toNat, 0)

theorem State.elementwise_eq {w : Nat} (hw : w ∣ 2048) (s : State) (g : Guard) (vd : BitVec 11) (lat : Nat) (f : Nat → Flagged Nat) :
    s.elementwise g w vd lat f =
      let rs := (List.range (2048 / w)).map (s.elementOf g w (s.vget vd.toNat) f)
      s.landV vd (packV w (rs.map (·.1))) lat (rs.foldl (fun fl r => fl ||| r.2) 0) := by
  simp only [State.elementwise, elems_getD hw]
  rfl

/-- The element i of a register packed of n results. -/
theorem packV_map_range_extractLsb' {w n i : Nat} (hn : w * n ≤ 2048) (hi : i < n) (f : Nat → Nat) :
    (packV w ((List.range n).map f)).extractLsb' (w * i) w = BitVec.ofNat w (f i) := by
  rw [packV_extractLsb' (Nat.le_trans (Nat.mul_le_mul_left w hi) hn)]
  simp [hi]

theorem State.elementOf_bits (s : State) (g : Guard) (w : Nat) (old : VReg) (f : Nat → Flagged Nat) (i : Nat) :
    BitVec.ofNat w (s.elementOf g w old f i).1 = if s.active g w i then BitVec.ofNat w (f i).1 else old.extractLsb' (w * i) w := by
  rw [State.elementOf]
  split
  · rfl
  · rw [BitVec.ofNat_toNat, BitVec.setWidth_eq]

theorem State.elementOf_flag (s : State) (g : Guard) (w : Nat) (old : VReg) (f : Nat → Flagged Nat) (i k : Nat) :
    (s.elementOf g w old f i).2.getLsbD k = (s.active g w i && (f i).2.getLsbD k) := by
  cases ha : s.active g w i <;> simp [State.elementOf, ha]

/-- An element-wise write, element by element and flag by flag (R124). -/
theorem State.elementwise_elements {w : Nat} (hw : w ∣ 2048) (s : State) (g : Guard) (vd : BitVec 11) (lat : Nat) (f : Nat → Flagged Nat) :
    ∃ (v : VReg) (fl : BitVec 8), s.elementwise g w vd lat f = s.landV vd v lat fl ∧
      (∀ i, i < 2048 / w → v.extractLsb' (w * i) w =
        if s.active g w i then BitVec.ofNat w (f i).1 else (s.vget vd.toNat).extractLsb' (w * i) w) ∧
      (∀ k, k < 8 → fl.getLsbD k = (List.range (2048 / w)).any (fun i => s.active g w i && (f i).2.getLsbD k)) := by
  refine ⟨_, _, s.elementwise_eq hw g vd lat f, fun i hi => ?_, fun k _ => ?_⟩
  · rw [List.map_map, packV_map_range_extractLsb' (Nat.mul_div_le 2048 w) hi]
    exact s.elementOf_bits g w _ f i
  · rw [foldl_flags_getLsbD, List.any_map]
    simp [Function.comp_def, State.elementOf_flag]

/-! ### The landing of a vector register (R15, R16) -/

/-- One result that is due, with its flags. -/
theorem State.landDue_one {s : State} {c p : Nat} {x : Landing} (hf : (s.bank c p).flight = [x]) (hd : x.due ≤ s.clk) (hz : x.idz = false)
    (ho : ∀ r, x.write ≠ .openSpec r) :
    s.landDue c p = ((s.modBank c p fun b => b.undue s.clk).landOne c p x).modBank c p fun b => b.addFlags x.flags := by
  have hdue : (s.bank c p).flight.filter (fun x => decide (x.due ≤ s.clk)) = [x] := by simp [hf, hd]
  unfold State.landDue
  simp only [hdue, List.foldl_cons, List.foldl_nil, List.any_cons, List.any_nil, hz, Bool.or_false, Bool.false_eq_true, if_false]
  rfl

theorem Bank.addFlags_flags {b : Bank} (h : b.guarded = false) (f : BitVec 8) :
    (b.addFlags f).csrAt 0x009 = (b.csrAt 0x009 ||| f.setWidth 64) := by
  unfold Bank.addFlags
  split
  · next hf => simp [hf]
  · simp [h]

theorem Bank.addFlags_csrAt_other (b : Bank) (f : BitVec 8) {j : Nat} (hj : j ≠ 0x009) : (b.addFlags f).csrAt j = b.csrAt j := by
  unfold Bank.addFlags
  split
  · rfl
  · split
    · rfl
    · exact b.putCsr_csrAt_other _ hj

theorem Bank.addFlags_files (b : Bank) (f : BitVec 8) : (b.addFlags f).s = b.s ∧ (b.addFlags f).p = b.p := by
  unfold Bank.addFlags
  split
  · exact ⟨rfl, rfl⟩
  · split <;> exact ⟨rfl, rfl⟩

/-- The write of whole vector register i. -/
def Core.writeVector (x : Core) (i : Nat) (v : VReg) (uid ctx : Nat) : Core :=
  { x.healVector i (BitVec.allOnes 2048) with
    vfile := mapSet (fun _ => 0) x.vfile i (merge (x.vreg i) v (BitVec.allOnes 2048)) }.dirtyGroup (i / 8) uid ctx

theorem merge_allOnes {n : Nat} (old new : BitVec n) : merge old new (BitVec.allOnes n) = new := by
  simp [merge]

theorem Core.writeVector_vreg (x : Core) (i : Nat) (v : VReg) (uid ctx j : Nat) :
    (x.writeVector i v uid ctx).vreg j = if j = i then v else x.vreg j := by
  refine (mapGet_mapSet _ i j _).trans ?_
  rw [merge_allOnes]
  rfl

/-- A whole vector register that lands with flags: its bank loses it from its flight and takes the flags, and of the core's files the vector file
alone changes. -/
theorem State.landDue_vector {s : State} {c p due n i : Nat} {v : VReg} {fl : BitVec 8}
    (hf : (s.bank c p).flight = [⟨due, n, .v i v (BitVec.allOnes 2048), fl, false⟩]) (hd : due ≤ s.clk) :
    (s.landDue c p).bank c p = ((s.bank c p).undue s.clk).addFlags fl ∧
      (∀ j, ((s.landDue c p).core c).vreg j = if j = i then v else (s.core c).vreg j) ∧
      ((s.landDue c p).core c).scratch = (s.core c).scratch ∧ (s.landDue c p).mem = s.mem := by
  let r : RegWrite := .v i v (BitVec.allOnes 2048)
  let u := s.modBank c p fun b => b.undue s.clk
  let u' := u.noteUndo c n r
  obtain ⟨hbeside, hfiles, hbank⟩ := u.noteUndo_keeps c n p r
  have hfiles' := (s.modBank_keepsFiles c p fun b => b.undue s.clk).trans hfiles
  have hone : u.landOne c p ⟨due, n, r, fl, false⟩ = u'.modCore c fun x => x.writeVector i v (u'.bank c p).uid (u'.bank c p).ctx := rfl
  rw [State.landDue_one hf hd rfl nofun, hone]
  refine ⟨?_, fun j => ?_, ?_, ?_⟩
  · rw [State.modBank_bank_same, State.modCore_bank_of_banks _ c rfl, hbank, State.modBank_bank_same]
  · rw [Core.vreg, (State.modBank_keepsFiles _ c p _).vfile, State.modCore_core_same]
    refine (Core.writeVector_vreg _ i v _ _ j).trans ?_
    rw [Core.vreg, hfiles'.vfile]
    rfl
  · rw [(State.modBank_keepsFiles _ c p _).scratch, State.modCore_core_same]
    exact hfiles'.scratch
  · exact hbeside.mem

/-! ### Integer elements (R102, R126) -/

/-- An integer element stands for its number modulo 2^w. -/
theorem intOf_emod (ty : BitVec 4) (a : Nat) : intOf ty.toNat a % 2 ^ tyWidth ty = (a : Int) % 2 ^ tyWidth ty := by
  have hlow : ((a % 2 ^ tyWidth ty : Nat) : Int) % 2 ^ tyWidth ty = (a : Int) % 2 ^ tyWidth ty := by
    push_cast
    exact Int.emod_emod_of_dvd _ (Int.dvd_refl _)
  rw [intOf, BitVec.ofNat_toNat, BitVec.setWidth_eq]
  simp only [signedOf]
  split
  · split
    · exact hlow
    · rw [Int.sub_emod_right]
      exact hlow
  · exact hlow

theorem intOf_unsigned {ty : BitVec 4} (h : tySigned ty = false) {a : Nat} (ha : a < 2 ^ tyWidth ty) : intOf ty.toNat a = a := by
  rw [intOf, BitVec.ofNat_toNat, BitVec.setWidth_eq, h, Nat.mod_eq_of_lt ha]
  rfl

theorem wrapInt_of_emod {w n : Nat} {x : Int} (h : x % 2 ^ w = (n : Int) % 2 ^ w) : wrapInt w x = n % 2 ^ w := by
  rw [wrapInt, h]
  exact_mod_cast Int.toNat_natCast (n % 2 ^ w)

section
variable {w a b : Nat} {x y : Int} (hx : x % 2 ^ w = (a : Int) % 2 ^ w) (hy : y % 2 ^ w = (b : Int) % 2 ^ w)
include hx hy

theorem add_emod_two_pow : (x + y) % 2 ^ w = ((a + b : Nat) : Int) % 2 ^ w := by
  rw [Int.add_emod, hx, hy, ← Int.add_emod, Int.natCast_add]

theorem mul_emod_two_pow : (x * y) % 2 ^ w = ((a * b : Nat) : Int) % 2 ^ w := by
  rw [Int.mul_emod, hx, hy, ← Int.mul_emod, Int.natCast_mul]

/-- A difference modulo 2^w, from a number below it. -/
theorem sub_emod_two_pow (hb : b < 2 ^ w) : (x - y) % 2 ^ w = ((a + (2 ^ w - b) : Nat) : Int) % 2 ^ w := by
  have hcast : ((a + (2 ^ w - b) : Nat) : Int) = (a - b : Int) + 2 ^ w := by
    rw [Int.natCast_add, Int.natCast_sub (Nat.le_of_lt hb), Int.natCast_pow, Int.cast_ofNat_Int]
    omega
  rw [hcast, Int.add_emod_right, Int.sub_emod, hx, hy, ← Int.sub_emod]

end

section
variable {ty : BitVec 4} (h : tyInt ty = true)
include h

theorem tyInt_code : ty.toNat ≤ 5 := of_decide_eq_true h

theorem bin_int (rm : Nat) (fi : Int → Int → Int) (ff : FVal → FVal → Flagged FVal) (a b : Nat) :
    bin ty.toNat rm fi ff a b = (wrapInt (tyWidth ty) (fi (intOf ty.toNat a) (intOf ty.toNat b)), 0) := by
  rw [bin, if_pos (tyInt_code h), BitVec.ofNat_toNat, BitVec.setWidth_eq]

theorem mulAdd_int (rm : Nat) (minus : Bool) (a b c : Nat) : mulAdd ty.toNat rm minus a b c = (wrapInt (tyWidth ty)
    (if minus then intOf ty.toNat a * intOf ty.toNat b - intOf ty.toNat c else intOf ty.toNat a * intOf ty.toNat b + intOf ty.toNat c), 0) := by
  rw [mulAdd, if_pos (tyInt_code h), BitVec.ofNat_toNat, BitVec.setWidth_eq]

end

section
variable {ty : BitVec 4} (h : tySigned ty = false)
include h

theorem mulHi_unsigned {a b : Nat} (ha : a < 2 ^ tyWidth ty) (hb : b < 2 ^ tyWidth ty) :
    mulHi ty.toNat a b = a * b / 2 ^ tyWidth ty := by
  have hlt : a * b / 2 ^ tyWidth ty < 2 ^ tyWidth ty := Nat.div_lt_of_lt_mul (Nat.mul_lt_mul'' ha hb)
  rw [mulHi, BitVec.ofNat_toNat, BitVec.setWidth_eq, intOf_unsigned h ha, intOf_unsigned h hb]
  refine (wrapInt_of_emod (n := a * b / 2 ^ tyWidth ty) ?_).trans (Nat.mod_eq_of_lt hlt)
  push_cast
  rfl

/-- A saturating result of an unsigned code: the nearest number of its range (R126). -/
theorem satElem_unsigned (x : Int) : satElem ty.toNat x =
    if x < 0 then (0, 0x40) else if (2 ^ tyWidth ty : Nat) ≤ x then (2 ^ tyWidth ty - 1, 0x40) else (x.toNat, 0) := by
  have hpos : 0 < 2 ^ tyWidth ty := Nat.two_pow_pos _
  have hmax : wrapInt (tyWidth ty) ((2 ^ tyWidth ty : Nat) - 1 : Int) = 2 ^ tyWidth ty - 1 := by
    refine (wrapInt_of_emod (n := 2 ^ tyWidth ty - 1) ?_).trans (Nat.mod_eq_of_lt (by omega))
    exact congrArg (· % (2 ^ tyWidth ty : Int)) (by omega)
  simp only [satElem, clampInt, BitVec.ofNat_toNat, BitVec.setWidth_eq, h, Bool.false_eq_true, if_false]
  by_cases hneg : x < 0
  · simp [hneg, wrapInt, fSAT]
  · rw [if_neg hneg, if_neg hneg]
    by_cases hbig : ((2 ^ tyWidth ty : Nat) : Int) ≤ x
    · rw [if_pos (by omega), if_pos hbig]
      exact congrArg (·, fSAT) hmax
    · rw [if_neg (by omega), if_neg hbig]
      refine congrArg (·, 0#8) ((wrapInt_of_emod (n := x.toNat) ?_).trans (Nat.mod_eq_of_lt (by omega)))
      rw [Int.toNat_of_nonneg (by omega)]

theorem satElem_add_unsigned {a b : Nat} (ha : a < 2 ^ tyWidth ty) (hb : b < 2 ^ tyWidth ty) :
    satElem ty.toNat (intOf ty.toNat a + intOf ty.toNat b) = (min (a + b) (2 ^ tyWidth ty - 1), if a + b < 2 ^ tyWidth ty then 0 else 0x40) := by
  rw [satElem_unsigned h, intOf_unsigned h ha, intOf_unsigned h hb, if_neg (by omega)]
  by_cases hlt : a + b < 2 ^ tyWidth ty
  · rw [if_neg (by omega), if_pos hlt, Nat.min_eq_left (by omega)]
    rfl
  · rw [if_pos (by omega), if_neg hlt, Nat.min_eq_right (by omega)]

theorem satElem_sub_unsigned {a b : Nat} (ha : a < 2 ^ tyWidth ty) (hb : b < 2 ^ tyWidth ty) :
    satElem ty.toNat (intOf ty.toNat a - intOf ty.toNat b) = (a - b, if b ≤ a then 0 else 0x40) := by
  rw [satElem_unsigned h, intOf_unsigned h ha, intOf_unsigned h hb]
  by_cases hle : b ≤ a
  · rw [if_neg (by omega), if_neg (by omega), if_pos hle, Int.toNat_sub]
  · rw [if_pos (by omega), if_neg hle, Nat.sub_eq_zero_of_le (by omega)]

end

/-! ### Values that their format holds (R104, R107) -/

/-- A number that is a multiple of the unit of its place, and not too large, is rounded to itself. -/
theorem roundTo_of_unit {f : FFmt} {neg : Bool} {m n : Nat} {e : Int} (rm : Nat) (sat : Bool) (hm : m ≠ 0)
    (hq : max (Nat.log2 m + e) (1 - f.bias) - f.frac = e) (hn : (e + f.frac + f.bias - 1) * 2 ^ f.frac + m = n) (hmax : n ≤ f.maxFin false) :
    roundTo f rm sat (.fin neg m e false) = (f.signBit neg + n, 0) := by
  have hunits : roundUnits rm neg m e false e = (m, false) := by simp [roundUnits]
  simp only [roundTo, if_neg hm, hq, hunits, hn]
  rw [if_neg (by omega)]
  simp

theorem FFmt.maxFin_pos (f : FFmt) : f.maxFin false = if f.e4m3 then f.nan - 1 else (2 ^ f.exp - 1) * 2 ^ f.frac - 1 :=
  Nat.zero_add _

/-- The sign, the exponent and the fraction of an encoding. -/
theorem FFmt.fields (f : FFmt) {v : Nat} (hv : v < 2 ^ (1 + f.exp + f.frac)) :
    f.signBit (v.testBit (f.exp + f.frac)) + (bitsOf v f.frac f.exp * 2 ^ f.frac + bitsOf v 0 f.frac) = v := by
  have htop : v / 2 ^ f.frac / 2 ^ f.exp < 2 := by
    rw [Nat.div_div_eq_div_mul, ← Nat.pow_add]
    exact Nat.div_lt_of_lt_mul (by rwa [← Nat.pow_succ, show (f.frac + f.exp).succ = 1 + f.exp + f.frac by omega])
  have hsign : f.signBit (v.testBit (f.exp + f.frac)) = v / 2 ^ f.frac / 2 ^ f.exp * 2 ^ f.exp * 2 ^ f.frac := by
    rw [FFmt.signBit, Nat.testBit_eq_decide_div_mod_eq, Nat.add_comm f.exp, Nat.pow_add, ← Nat.div_div_eq_div_mul, Nat.mod_eq_of_lt htop,
      Nat.mul_assoc, Nat.mul_comm (2 ^ f.exp)]
    rcases Nat.lt_succ_iff_lt_or_eq.1 htop with h0 | h1
    · simp [Nat.lt_one_iff.1 h0]
    · simp [h1]
  rw [hsign, ← Nat.add_assoc, ← Nat.add_mul, bitsOf, bitsOf, Nat.shiftRight_eq_div_pow, Nat.shiftRight_zero,
    Nat.div_add_mod', Nat.div_add_mod']

/-- What an encoding other than a NaN holds (R104): an infinity, a number below the lowest power of two, or a number with its leading bit. -/
theorem FFmt.read_of_ne_nan {f : FFmt} (h4 : f.e4m3 = true → f.exp = 4 ∧ f.frac = 3) {v : Nat} (hn : f.read v ≠ .nan) :
    let neg := v.testBit (f.exp + f.frac)
    let e := bitsOf v f.frac f.exp
    let fr := bitsOf v 0 f.frac
    (f.read v = .inf neg ∧ f.e4m3 = false ∧ e = 2 ^ f.exp - 1 ∧ fr = 0) ∨
      (e * 2 ^ f.frac + fr ≤ f.maxFin false ∧
        ((e = 0 ∧ f.read v = .fin neg fr (1 - (f.bias : Int) - f.frac) false) ∨
          (e ≠ 0 ∧ f.read v = .fin neg (2 ^ f.frac + fr) ((e : Int) - f.bias - f.frac) false))) := by
  intro neg e fr
  have hfr : fr < 2 ^ f.frac := Nat.mod_lt _ (Nat.two_pow_pos _)
  have he : e < 2 ^ f.exp := Nat.mod_lt _ (Nat.two_pow_pos _)
  have hread : f.read v = if e = 2 ^ f.exp - 1 ∧ f.e4m3 = false then (if fr = 0 then .inf neg else .nan)
      else if f.e4m3 ∧ e = 15 ∧ fr = 7 then .nan
      else if e = 0 then .fin neg fr (1 - (f.bias : Int) - f.frac) false
      else .fin neg (2 ^ f.frac + fr) ((e : Int) - f.bias - f.frac) false := rfl
  rw [hread] at hn ⊢
  by_cases hinf : e = 2 ^ f.exp - 1 ∧ f.e4m3 = false
  · rw [if_pos hinf] at hn ⊢
    by_cases h0 : fr = 0
    · exact .inl ⟨if_pos h0, hinf.2, hinf.1, h0⟩
    · exact absurd (if_neg h0) hn
  · rw [if_neg hinf] at hn ⊢
    by_cases hnan : f.e4m3 ∧ e = 15 ∧ fr = 7
    · exact absurd (if_pos hnan) hn
    · rw [if_neg hnan]
      refine .inr ⟨?_, ?_⟩
      · rw [FFmt.maxFin_pos]
        cases h : f.e4m3 with
        | true =>
          obtain ⟨hexp, hfrac⟩ := h4 h
          rw [hexp] at he
          rw [hfrac] at hfr
          have hmax : f.nan = 127 := by rw [FFmt.nan, h, hexp, hfrac]; rfl
          rw [if_pos rfl, hmax, hfrac]
          have : ¬(e = 15 ∧ fr = 7) := fun hx => hnan ⟨h, hx⟩
          omega
        | false =>
          have hlt : e + 1 ≤ 2 ^ f.exp - 1 := by
            have : e ≠ 2 ^ f.exp - 1 := fun hx => hinf ⟨hx, h⟩
            omega
          have hmul := Nat.mul_le_mul_right (2 ^ f.frac) hlt
          rw [Nat.add_one_mul] at hmul
          simp only [Bool.false_eq_true, if_false]
          omega
      · by_cases h0 : e = 0
        · exact .inl ⟨h0, if_pos h0⟩
        · exact .inr ⟨h0, if_neg h0⟩

/-- A value that its format holds rounds to itself and raises no flag (R107). -/
theorem roundTo_read {f : FFmt} (h4 : f.e4m3 = true → f.exp = 4 ∧ f.frac = 3) (rm : Nat) (sat : Bool) {v : Nat}
    (hv : v < 2 ^ (1 + f.exp + f.frac)) (hn : f.read v ≠ .nan) : roundTo f rm sat (f.read v) = (v, 0) := by
  have hfields := f.fields hv
  have hfr : bitsOf v 0 f.frac < 2 ^ f.frac := Nat.mod_lt _ (Nat.two_pow_pos _)
  rcases FFmt.read_of_ne_nan h4 hn with ⟨hr, hx, he, h0⟩ | ⟨hmax, ⟨he, hr⟩ | ⟨he, hr⟩⟩
  · rw [he, h0] at hfields
    rw [hr, roundTo, if_neg (by simp [hx]), FFmt.inf, if_neg (by simp [hx])]
    exact congrArg (·, 0#8) hfields
  · rw [hr]
    rw [he, Nat.zero_mul, Nat.zero_add] at hfields hmax
    by_cases h0 : bitsOf v 0 f.frac = 0
    · rw [roundTo, if_pos h0]
      rw [h0] at hfields
      exact congrArg (·, 0#8) hfields
    · have hlog := (Nat.log2_lt h0).2 hfr
      rw [roundTo_of_unit rm sat h0 (by omega) _ hmax, hfields]
      rw [show (1 - (f.bias : Int) - f.frac + f.frac + f.bias - 1) = 0 by omega, Int.zero_mul, Int.zero_add]
  · have hlog : Nat.log2 (2 ^ f.frac + bitsOf v 0 f.frac) = f.frac := by
      refine (Nat.log2_eq_iff (by omega)).2 ⟨by omega, ?_⟩
      rw [Nat.pow_succ]
      omega
    rw [hr, roundTo_of_unit rm sat (by omega) (by omega) _ hmax, hfields]
    rw [show ((bitsOf v f.frac f.exp : Int) - f.bias - f.frac + f.frac + f.bias - 1) = bitsOf v f.frac f.exp - 1 by omega]
    rw [Int.sub_mul, Int.one_mul]
    push_cast
    omega

theorem formats_e4m3 {f : FFmt} (h : f ∈ [F32, F16, BF16, E4M3, E5M2]) : f.e4m3 = true → f.exp = 4 ∧ f.frac = 3 := by
  revert f
  decide

/-- Settles O48: the merge and the flags from the packed results, the landing from its one write, integers modulo 2^w, and each encoding from the
fields that its value is read from. -/
theorem vectorElementsAndFlags : Obligations.VectorElementsAndFlags := by
  refine ⟨?_, ?_, ?_, fun f rm v sat hf hv hn => roundTo_read (formats_e4m3 hf) rm sat hv hn⟩
  · intro g w lat vd f s hw
    exact State.elementwise_elements (by rcases hw with rfl | rfl | rfl <;> decide) s g vd lat f
  · intro s c p due n i v fl hf hd hg t
    obtain ⟨hbank, hvreg, hscratch, hmem⟩ := State.landDue_vector hf hd
    have hfiles := Bank.addFlags_files ((s.bank c p).undue s.clk) fl
    refine ⟨by rw [hvreg, if_pos rfl], fun j hj => by rw [hvreg, if_neg hj], ?_, fun j hj => ?_, ?_, ?_, hscratch, hmem⟩
    · exact hbank ▸ Bank.addFlags_flags (b := (s.bank c p).undue s.clk) hg fl
    · exact hbank ▸ Bank.addFlags_csrAt_other ((s.bank c p).undue s.clk) fl hj
    · exact hbank ▸ hfiles.1
    · exact hbank ▸ hfiles.2
  · intro ty rm a b c ff hty w t ha hb hc
    have hA := intOf_emod ty a
    have hB := intOf_emod ty b
    have hC := intOf_emod ty c
    refine ⟨?_, ?_, ?_, ?_, ?_,
      fun hu => ⟨mulHi_unsigned hu ha hb, satElem_add_unsigned hu ha hb, satElem_sub_unsigned hu ha hb⟩⟩
    · rw [bin_int hty, wrapInt_of_emod (add_emod_two_pow hA hB)]
    · rw [bin_int hty, wrapInt_of_emod (sub_emod_two_pow hA hB hb)]
    · rw [bin_int hty, wrapInt_of_emod (mul_emod_two_pow hA hB)]
    · rw [mulAdd_int hty, if_neg Bool.false_ne_true, wrapInt_of_emod (add_emod_two_pow (mul_emod_two_pow hA hB) hC)]
    · rw [mulAdd_int hty, if_pos rfl, wrapInt_of_emod (sub_emod_two_pow (mul_emod_two_pow hA hB) hC hc)]

end Sys2Proof.Machine
end

section
/-!
# The element-wise vector instructions

What a vector slot whose registers can be used comes to, form by form (R124), and with it each element-wise instruction (R126-R128, R130, R132).
-/

namespace Sys2Proof.Machine

/-! ### Elements of the window's registers -/

/-- Element i of vector register n as type ty. -/
def State.velem (s : State) (ty : BitVec 4) (n i : Nat) : Nat := ((s.vget n).extractLsb' (tyWidth ty * i) (tyWidth ty)).toNat

/-- What a slot comes to that gives element i of vD the result f(i), where an element is active (R124). -/
def State.vresult (s : State) (g : Guard) (ty : BitVec 4) (vd : BitVec 11) (lat : Nat) (f : Nat → Flagged Nat) :
    Host.Outcome State Fault Refusal :=
  .next (if (List.range (2048 / tyWidth ty)).any (fun i => s.active g (tyWidth ty) i) then s.elementwise g (tyWidth ty) vd lat f else s)

theorem State.elems_vget_getD (s : State) (ty : BitVec 4) (n i : Nat) :
    (elems (tyWidth ty) (s.vget n)).getD i 0 = s.velem ty n i :=
  elems_getD (tyWidth_dvd ty) _ i

theorem State.velem_lt (s : State) (ty : BitVec 4) (n i : Nat) : s.velem ty n i < 2 ^ tyWidth ty := BitVec.isLt _

theorem elems_length (w : Nat) (v : VReg) : (elems w v).length = 2048 / w := by simp [elems]

/-- Past the last element there is nothing to read. -/
theorem State.velem_past (s : State) (ty : BitVec 4) (n : Nat) {i : Nat} (h : ¬i < 2048 / tyWidth ty) : s.velem ty n i = 0 := by
  rw [← s.elems_vget_getD, List.getD_eq_getElem?_getD, List.getElem?_eq_none (by rw [elems_length]; exact Nat.not_lt.1 h), Option.getD_none]

/-- Element i of two registers in a row. -/
theorem State.elems_append_getD (s : State) (ty : BitVec 4) (n m i : Nat) :
    (elems (tyWidth ty) (s.vget n) ++ elems (tyWidth ty) (s.vget m)).getD i 0 =
      if i < 2048 / tyWidth ty then s.velem ty n i
      else if i < 2 * (2048 / tyWidth ty) then s.velem ty m (i - 2048 / tyWidth ty) else 0 := by
  by_cases hi : i < 2048 / tyWidth ty
  · rw [List.getD_eq_getElem?_getD, List.getElem?_append_left (by rw [elems_length]; exact hi), ← List.getD_eq_getElem?_getD,
      s.elems_vget_getD, if_pos hi]
  · rw [List.getD_eq_getElem?_getD, List.getElem?_append_right (by rw [elems_length]; exact Nat.not_lt.1 hi), elems_length,
      ← List.getD_eq_getElem?_getD, s.elems_vget_getD, if_neg hi]
    by_cases h2 : i < 2 * (2048 / tyWidth ty)
    · rw [if_pos h2]
    · rw [if_neg h2, s.velem_past ty m (by omega)]

/-! ### The forms of a slot (R124) -/

section
variable {s : State} {vd va vb vc : BitVec 11} {g : Guard} {ty : BitVec 4} {lat : Nat}

theorem State.v1_of_free (hd : s.VFree vd.toNat) (ha : s.VFree va.toNat) (f : Nat → Flagged Nat) :
    s.v1 g ty vd va lat f =
      s.vresult g ty vd lat (fun i => f (s.velem ty va.toNat i)) := by
  simp only [State.v1, s.elems_vget_getD]
  exact State.vslot_of_free (State.free_pair hd ha _ _) g _ _

theorem State.v2_of_free (hd : s.VFree vd.toNat) (ha : s.VFree va.toNat) (hb : s.VFree vb.toNat) (f : Nat → Nat → Flagged Nat) :
    s.v2 g ty vd va vb lat f =
      s.vresult g ty vd lat (fun i =>
        f (s.velem ty va.toNat i) (s.velem ty vb.toNat i)) := by
  simp only [State.v2, s.elems_vget_getD]
  exact State.vslot_of_free (by simp [hd, ha, hb]) g _ _

theorem State.v3_of_free (hd : s.VFree vd.toNat) (ha : s.VFree va.toNat) (hb : s.VFree vb.toNat) (hc : s.VFree vc.toNat)
    (f : Nat → Nat → Nat → Flagged Nat) :
    s.v3 g ty vd va vb vc lat f =
      s.vresult g ty vd lat (fun i =>
        f (s.velem ty va.toNat i) (s.velem ty vb.toNat i) (s.velem ty vc.toNat i)) := by
  simp only [State.v3, s.elems_vget_getD]
  exact State.vslot_of_free (by simp [hd, ha, hb, hc]) g _ _

theorem State.vshift_of_free (hd : s.VFree vd.toNat) (ha : s.VFree va.toNat) {c : ShiftCount} (hc : ∀ v, c = .vec v → s.VFree v.toNat)
    (f : Nat → Nat → Nat → Nat) :
    s.vshift g ty vd va c f =
      s.vresult g ty vd 2 (fun i => (f (tyWidth ty) (s.velem ty va.toNat i) (s.shiftCount (tyWidth ty) c i), 0)) := by
  simp only [State.vshift, s.elems_vget_getD]
  refine State.vslot_of_free ?_ g _ _
  cases c with
  | imm k => simp [hd, ha]
  | vec v => simp [hd, ha, hc v rfl]

end

/-! ### The functions of single elements -/

theorem tyInt_of_tyFlt {ty : BitVec 4} (h : tyFlt ty = true) : tyInt ty = false := by
  revert ty
  decide

/-- A two-operand form of a floating-point type (R126, R127). -/
theorem bin_float {ty : BitVec 4} (h : tyFlt ty = true) (rm : Nat) (fi : Int → Int → Int) (ff : FVal → FVal → Flagged FVal) (a b : Nat) :
    bin ty.toNat rm fi ff a b = deliver (fmtOf ty.toNat) rm false (ff ((fmtOf ty.toNat).read a) ((fmtOf ty.toNat).read b)) := by
  rw [bin, if_neg (of_decide_eq_false (tyInt_of_tyFlt h))]

theorem shlElem_eq (w a n : Nat) : shlElem w a n = a * 2 ^ n % 2 ^ w := by
  rw [shlElem, Nat.shiftLeft_eq]
  split
  · next h => exact (Nat.mod_eq_zero_of_dvd (Nat.dvd_mul_left_of_dvd (Nat.pow_dvd_pow 2 h) a)).symm
  · rfl

theorem shrElem_eq {w a : Nat} (ha : a < 2 ^ w) (n : Nat) : shrElem w a n = a / 2 ^ n := by
  rw [shrElem, Nat.shiftRight_eq_div_pow]
  split
  · next h => exact (Nat.div_eq_of_lt (Nat.lt_of_lt_of_le ha (Nat.pow_le_pow_right (by decide) h))).symm
  · rfl

theorem signedOf_range (w a : Nat) : -(2 ^ w : Int) ≤ signedOf w a ∧ signedOf w a < 2 ^ w := by
  have hlt : a % 2 ^ w < 2 ^ w := Nat.mod_lt _ (Nat.two_pow_pos _)
  have hcast : ((2 ^ w : Nat) : Int) = 2 ^ w := by push_cast; rfl
  rw [signedOf]
  split <;> omega

/-- A number from -2^n up to 2^n, divided by 2^n: its sign is left. -/
theorem ediv_two_pow_of_range {x : Int} {n : Nat} (hlo : -(2 ^ n : Int) ≤ x) (hhi : x < 2 ^ n) : x / (2 ^ n : Nat) = if x < 0 then -1 else 0 := by
  have hcast : ((2 ^ n : Nat) : Int) = 2 ^ n := by push_cast; rfl
  rw [hcast]
  split
  · next h => exact Int.ediv_eq_neg_one_of_neg_of_le h (by omega)
  · exact Int.ediv_eq_zero_of_lt (by omega) hhi

theorem sarElem_eq (w a n : Nat) : sarElem w a n = ((signedOf w a / (2 ^ n : Nat)) % (2 ^ w : Nat)).toNat := by
  have hdiv : signedOf w a / (2 ^ min n w : Nat) = signedOf w a / (2 ^ n : Nat) := by
    rcases Nat.le_total n w with h | h
    · rw [Nat.min_eq_left h]
    · obtain ⟨hlo, hhi⟩ := signedOf_range w a
      have hpow : (2 ^ w : Int) ≤ 2 ^ n := by exact_mod_cast Nat.pow_le_pow_right (n := 2) (by decide) h
      rw [Nat.min_eq_right h, ediv_two_pow_of_range hlo hhi, ediv_two_pow_of_range (by omega) (by omega)]
  rw [sarElem, hdiv, wrapInt]
  push_cast
  rfl

theorem toInt_emod {w : Nat} (hw : w ≤ 64) (x : Word) : x.toInt % 2 ^ w = (x.toNat : Int) % 2 ^ w := by
  have hdvd : (2 ^ w : Int) ∣ 2 ^ 64 := by exact_mod_cast Nat.pow_dvd_pow 2 hw
  have h64 : x.toInt % 2 ^ 64 = (x.toNat : Int) % 2 ^ 64 := by
    rw [BitVec.toInt_eq_toNat_bmod]
    exact Int.bmod_emod
  rw [← Int.emod_emod_of_dvd x.toInt hdvd, h64, Int.emod_emod_of_dvd _ hdvd]

theorem tyWidth_le (ty : BitVec 4) : tyWidth ty ≤ 64 := by
  revert ty
  decide

/-- VIOTA of an integer type: a start and a count, added modulo 2^w (R130). -/
theorem wrapInt_toInt_add (ty : BitVec 4) (x : Word) (i : Nat) : wrapInt (tyWidth ty) (x.toInt + i) = (x.toNat + i) % 2 ^ tyWidth ty :=
  wrapInt_of_emod (add_emod_two_pow (toInt_emod (tyWidth_le ty) x) rfl)

/-! ### The instructions -/

section
variable {s : State} {vd va vb vc : BitVec 11} {g : Guard} {ty : BitVec 4} (hd : s.VFree vd.toNat)
include hd

theorem exec_vbcast (a : BitVec 6) : exec (.vbcast g ty vd a) s =
    s.vresult g ty vd 2 (fun _ => ((s.sr a).toNat % 2 ^ tyWidth ty, 0)) :=
  State.vslot_of_free (by simp [hd]) g _ _

theorem exec_viota (m : BitVec 3) (a : BitVec 6) : exec (.viota g ty m vd a) s =
    s.vresult g ty vd 2 (fun i =>
      if tyInt ty then (((s.sr a).toNat + i) % 2 ^ tyWidth ty, 0)
      else roundTo (fmtOf ty.toNat) (s.rm m) false (fOfInt ((s.sr a).toInt + i))) := by
  simp only [← wrapInt_toInt_add]
  exact State.vslot_of_free (by simp [hd]) g _ _

variable (ha : s.VFree va.toNat)
include ha

theorem exec_vrot (j : ElemIndex) : exec (.vrot g ty vd va j) s =
    s.vresult g ty vd 4 (fun i =>
      (s.velem ty va.toNat ((i + s.elemIndex ty j) % (2048 / tyWidth ty)), 0)) := by
  simp only [← s.elems_vget_getD]
  exact State.vslot_of_free (State.free_pair hd ha _ _) g _ _

section
variable {c : ShiftCount} (hc : ∀ v, c = .vec v → s.VFree v.toNat)
include hc

theorem exec_vshl : exec (.vshl g ty vd va c) s =
    s.vresult g ty vd 2 (fun i => (s.velem ty va.toNat i * 2 ^ s.shiftCount (tyWidth ty) c i % 2 ^ tyWidth ty, 0)) := by
  simp only [← shlElem_eq]
  exact State.vshift_of_free hd ha hc shlElem

theorem exec_vshr : exec (.vshr g ty vd va c) s =
    s.vresult g ty vd 2 (fun i => (s.velem ty va.toNat i / 2 ^ s.shiftCount (tyWidth ty) c i, 0)) := by
  simp only [← shrElem_eq (s.velem_lt ty va.toNat _)]
  exact State.vshift_of_free hd ha hc shrElem

theorem exec_vsar : exec (.vsar g ty vd va c) s =
    s.vresult g ty vd 2 (fun i => (((signedOf (tyWidth ty) (s.velem ty va.toNat i) / (2 ^ s.shiftCount (tyWidth ty) c i : Nat)) %
      (2 ^ tyWidth ty : Nat)).toNat, 0)) := by
  simp only [← sarElem_eq]
  exact State.vshift_of_free hd ha hc sarElem

end

variable (hb : s.VFree vb.toNat)
include hb

theorem exec_vdiv (hf : tyFlt ty = true) (m : BitVec 3) : exec (.vdiv g ty m vd va vb) s =
    s.vresult g ty vd 12 (fun i => deliver (fmtOf ty.toNat) (s.rm m) false
      (fDiv ((fmtOf ty.toNat).read (s.velem ty va.toNat i)) ((fmtOf ty.toNat).read (s.velem ty vb.toNat i)))) := by
  simp only [← bin_float hf (s.rm m) (fun a _ => a)]
  exact State.v2_of_free hd ha hb _

theorem exec_vsel (pc : BitVec 4) : exec (.vsel g ty vd pc va vb) s =
    s.vresult g ty vd 2 (fun i => (if (s.pr pc).getLsbD (i * (tyWidth ty / 8))
      then s.velem ty va.toNat i else s.velem ty vb.toNat i, 0)) := by
  simp only [← s.elems_vget_getD]
  exact State.vslot_of_free (by simp [hd, ha, hb]) g _ _

theorem exec_vperm : exec (.vperm g ty vd va vb) s =
    s.vresult g ty vd 4 (fun i =>
      (if s.velem ty vb.toNat i < 2048 / tyWidth ty
        then s.velem ty va.toNat (s.velem ty vb.toNat i) else 0, 0)) := by
  have hpast (i : Nat) : (if i < 2048 / tyWidth ty then s.velem ty va.toNat i else 0) = s.velem ty va.toNat i :=
    ite_eq_left_iff.2 fun h => (s.velem_past ty _ h).symm
  simp only [hpast]
  simp only [← s.elems_vget_getD]
  exact State.vslot_of_free (by simp [hd, ha, hb]) g _ _

theorem exec_vshuf (hc : s.VFree vc.toNat) : exec (.vshuf g ty vd va vb vc) s =
    s.vresult g ty vd 4 (fun i =>
      (if s.velem ty vc.toNat i < 2048 / tyWidth ty then s.velem ty va.toNat (s.velem ty vc.toNat i)
        else if s.velem ty vc.toNat i < 2 * (2048 / tyWidth ty)
        then s.velem ty vb.toNat (s.velem ty vc.toNat i - 2048 / tyWidth ty) else 0, 0)) := by
  simp only [← s.elems_append_getD]
  simp only [← s.elems_vget_getD]
  exact State.vslot_of_free (by simp [hd, ha, hb, hc]) g _ _

end

/-- Settles O47: each instruction is one form of a slot, whose registers can be used, with its own function of the elements. -/
theorem vectorElementwise : Obligations.VectorElementwise := by
  intro g ty pc m vd va vb vc a k s hd ha hb hc w t rm x y z act does
  have h1 {lat : Nat} (f : Nat → Flagged Nat) := State.v1_of_free (g := g) (ty := ty) (lat := lat) hd ha f
  have h2 {lat : Nat} (f : Nat → Nat → Flagged Nat) := State.v2_of_free (g := g) (ty := ty) (lat := lat) hd ha hb f
  have h3 {lat : Nat} (f : Nat → Nat → Nat → Flagged Nat) := State.v3_of_free (g := g) (ty := ty) (lat := lat) hd ha hb hc f
  refine ⟨h2 (bin t rm (· + ·) (fAdd rm)), h2 (bin t rm (· - ·) fun a b => fAdd rm a b.flip), h2 (bin t rm (· * ·) fMul),
    h2 fun a b => (mulHi t a b, 0), h3 (mulAdd t rm false), h3 (mulAdd t rm true), h2 fun a b => (pick t false a b, 0),
    h2 fun a b => (pick t true a b, 0), h1 fun a => (absElem t a, 0), h1 fun a => (negElem t a, 0),
    fun hf => ⟨exec_vdiv hd ha hb hf m, h1 (un t rm fSqrt), h1 (un t rm (fDiv (.fin false 1 0 false))), h1 (un t rm fRsqrt),
      h1 (un t rm fun a => (fExp2 a, 0)), h1 (un t rm fLog2)⟩,
    h2 fun a b => satElem t (intOf t a + intOf t b), h2 fun a b => satElem t (intOf t a - intOf t b), h2 fun a b => (a &&& b, 0),
    h2 fun a b => (a ||| b, 0), h2 fun a b => (a ^^^ b, 0), h1 fun a => (2 ^ w - 1 - a, 0), ?_, exec_vsel hd ha hb pc, h1 fun a => (a, 0),
    exec_vbcast hd a, fun hi => ?_, fun hf => ?_, exec_vperm hd ha hb, exec_vshuf hd ha hb hc, exec_vrot hd ha⟩
  · intro c hcnt n
    have hn : s.shiftCount (tyWidth ty) c = n := by
      rcases hcnt with rfl | rfl
      · exact funext fun i => (if_pos rfl).symm
      · exact funext fun i => (s.elems_vget_getD ty vb.toNat i).trans (if_neg nofun).symm
    have hfree : ∀ v, c = .vec v → s.VFree v.toNat := by
      rcases hcnt with rfl | rfl
      · exact nofun
      · rintro _ ⟨⟩
        exact hb
    clear_value n
    subst hn
    exact ⟨exec_vshl hd ha hfree, exec_vshr hd ha hfree, exec_vsar hd ha hfree⟩
  · exact (exec_viota hd m a).trans (by simp only [hi, if_true]; rfl)
  · exact (exec_viota hd m a).trans (by simp only [tyInt_of_tyFlt hf]; rfl)

end Sys2Proof.Machine
end

section
/-!
# Vector compares, reductions and moves

The predicate that a compare writes, the register that a reduction writes (R129, R131), and the moves of one element (R138).
-/

namespace Sys2Proof.Machine

/-! ### Compares (R129) -/

/-- The predicate that a compare writes. -/
def State.compared (s : State) (g : Guard) (ty pd : BitVec 4) (va vb : BitVec 11) (kind : Nat) : Pred :=
  BitVec.ofNat 256 (packBits (tyWidth ty / 8) ((List.range (2048 / tyWidth ty)).map fun i =>
    if s.active g (tyWidth ty) i then (if cmpElem ty.toNat kind (s.velem ty va.toNat i) (s.velem ty vb.toNat i) then 2 ^ (tyWidth ty / 8) - 1 else 0)
    else bitsOf (s.pr pd).toNat (tyWidth ty / 8 * i) (tyWidth ty / 8)))

theorem State.vcompare_of_free {s : State} {va vb : BitVec 11} (ha : s.VFree va.toNat) (hb : s.VFree vb.toNat) (g : Guard) (ty pd : BitVec 4)
    (kind : Nat) : s.vcompare g ty pd va vb kind =
      .next (if (List.range (2048 / tyWidth ty)).any (fun i => s.active g (tyWidth ty) i)
        then s.landP pd (s.compared g ty pd va vb kind) 2 else s) := by
  simp only [State.vcompare, s.elems_vget_getD]
  exact State.vslot_of_free (State.free_pair ha hb _ _) g _ _

theorem bitsOf_testBit (v lo : Nat) {n j : Nat} (hj : j < n) : (bitsOf v lo n).testBit j = v.testBit (lo + j) := by
  simp [bitsOf, Nat.testBit_mod_two_pow, hj]

theorem tyWidth_bytes {ty : BitVec 4} (h : tyAny ty = true) : tyWidth ty / 8 * (2048 / tyWidth ty) = 256 := by
  revert ty
  decide

/-- Bit j of the bytes of element i (R129). -/
theorem State.compared_getLsbD (s : State) (g : Guard) {ty : BitVec 4} (h : tyAny ty = true) (pd : BitVec 4) (va vb : BitVec 11) (kind : Nat)
    {i j : Nat} (hi : i < 2048 / tyWidth ty) (hj : j < tyWidth ty / 8) :
    (s.compared g ty pd va vb kind).getLsbD (i * (tyWidth ty / 8) + j) =
      if s.active g (tyWidth ty) i then cmpElem ty.toNat kind (s.velem ty va.toNat i) (s.velem ty vb.toNat i)
      else (s.pr pd).getLsbD (i * (tyWidth ty / 8) + j) := by
  have hin : tyWidth ty / 8 * i + j < 256 := tyWidth_bytes h ▸ mul_add_lt_mul hi hj
  rw [Nat.mul_comm i, State.compared, BitVec.getLsbD_ofNat, decide_eq_true hin, Bool.true_and, packBits_testBit hj,
    List.getD_eq_getElem?_getD, List.getElem?_map, List.getElem?_range hi, Option.map_some, Option.getD_some]
  split
  · split
    · next hc => rw [Nat.testBit_two_pow_sub_one, decide_eq_true hj, hc]
    · next hc => rw [Nat.zero_testBit, eq_false_of_ne_true hc]
  · exact bitsOf_testBit _ _ hj

theorem cmpElem_int {ty : BitVec 4} (h : tyInt ty = true) (a b : Nat) :
    cmpElem ty.toNat 0 a b = (intOf ty.toNat a == intOf ty.toNat b) ∧
      cmpElem ty.toNat 1 a b = decide (intOf ty.toNat a < intOf ty.toNat b) ∧
      cmpElem ty.toNat 2 a b = decide (intOf ty.toNat a ≤ intOf ty.toNat b) ∧
      cmpElem ty.toNat 3 a b = (intOf ty.toNat a != intOf ty.toNat b) := by
  simp only [cmpElem, if_pos (tyInt_code h), and_self]

/-- A NaN is unordered: it differs from every value, and that is all (R129). -/
theorem cmpElem_nan {ty : BitVec 4} (h : tyInt ty = false) {a b : Nat} (hn : (fmtOf ty.toNat).read a = .nan ∨ (fmtOf ty.toNat).read b = .nan)
    (kind : Nat) : cmpElem ty.toNat kind a b = (kind == 3) := by
  have hnan : (((fmtOf ty.toNat).read a).isNan || ((fmtOf ty.toNat).read b).isNan) = true := by
    rcases hn with hn | hn <;> simp [hn, FVal.isNan]
  unfold cmpElem
  exact (if_neg (of_decide_eq_false h)).trans (if_pos hnan)

/-! ### Reductions (R131) -/

theorem State.vreduce_of_free {s : State} {vd va : BitVec 11} (hd : s.VFree vd.toNat) (ha : s.VFree va.toNat) (g : Guard) (ty : BitVec 4)
    (op : Nat → Nat → Flagged Nat) :
    let r := treeReduce op (Nat.log2 (2048 / tyWidth ty)) ((List.range (2048 / tyWidth ty)).map fun i =>
      if s.active g (tyWidth ty) i then some (s.velem ty va.toNat i) else none)
    s.vreduce g ty vd va op = .next (if (List.range (2048 / tyWidth ty)).any (fun i => s.active g (tyWidth ty) i)
      then s.landV vd (BitVec.ofNat 2048 (r.1.getD 0)) 6 r.2 else s) := by
  have hleaves : (elems (tyWidth ty) (s.vget va.toNat)).mapIdx (fun i x => if s.active g (tyWidth ty) i then some x else none) =
      (List.range (2048 / tyWidth ty)).map fun i => if s.active g (tyWidth ty) i then some (s.velem ty va.toNat i) else none := by
    rw [elems_eq_map]
    exact List.ext_getElem (by simp) fun i _ _ => by simp [State.velem]
  rw [← hleaves]
  exact State.vslot_of_free (State.free_pair hd ha _ _) g _ _

/-! ### Moves of one element (R138) -/

theorem State.settle_of_free_one {s : State} {n : Nat} (h : s.VFree n) (m : VReg) (t : State) : s.settle (s.vneed [(n, m)] (.ok t)) = .next t :=
  State.settle_of_free (by simp [h]) t

section
variable {s : State} {g : Guard} {ty : BitVec 4} {j : ElemIndex}

theorem exec_vmvs {va : BitVec 11} (ha : s.VFree va.toNat) (hact : s.active g (tyWidth ty) (s.elemIndex ty j) = true) (d : BitVec 6) :
    exec (.vmvs g ty d va j) s = .next (s.landS d
      (if tySigned ty then BitVec.ofInt 64 (signedOf (tyWidth ty) (s.velem ty va.toNat (s.elemIndex ty j)))
      else BitVec.ofNat 64 (s.velem ty va.toNat (s.elemIndex ty j))) 3) := by
  rw [← s.elems_vget_getD]
  exact (if_pos hact).trans (State.settle_of_free_one ha _ _)

/-- A register whose element k takes a word. -/
def insertElem (w k : Nat) (v : VReg) (x : Word) : VReg :=
  packV w ((elems w v).mapIdx fun i e => if i = k then x.toNat % 2 ^ w else e)

theorem insertElem_extractLsb' {w i : Nat} (hi : i < 2048 / w) (k : Nat) (v : VReg) (x : Word) :
    (insertElem w k v x).extractLsb' (w * i) w = if i = k then x.setWidth w else v.extractLsb' (w * i) w := by
  have hin : w * (i + 1) ≤ 2048 := Nat.le_trans (Nat.mul_le_mul_left w hi) (Nat.mul_div_le _ _)
  have hget : ((elems w v).mapIdx fun i e => if i = k then x.toNat % 2 ^ w else e).getD i 0 =
      if i = k then x.toNat % 2 ^ w else (v.extractLsb' (w * i) w).toNat := by
    simp [elems_eq_map, hi]
  rw [insertElem, packV_extractLsb' hin, hget]
  split
  · exact BitVec.eq_of_toNat_eq (by simp)
  · rw [BitVec.ofNat_toNat, BitVec.setWidth_eq]

theorem exec_vins {vd : BitVec 11} (hd : s.VFree vd.toNat) (hact : s.active g (tyWidth ty) (s.elemIndex ty j) = true) (a : BitVec 6) :
    exec (.vins g ty vd a j) s =
      .next (s.landV vd (insertElem (tyWidth ty) (s.elemIndex ty j) (s.vget vd.toNat) (s.sr a)) 3) :=
  (if_pos hact).trans (State.settle_of_free_one hd _ _)

/-- Where the element is not active a move is a no-op. -/
theorem exec_move_inactive (hact : s.active g (tyWidth ty) (s.elemIndex ty j) = false) (d a : BitVec 6) (vd va : BitVec 11) :
    exec (.vmvs g ty d va j) s = .next s ∧ exec (.vins g ty vd a j) s = .next s :=
  ⟨if_neg (by simp [hact]), if_neg (by simp [hact])⟩

end

/-- Settles O49: the bits of the predicate that a compare lands, the tree that a reduction lands, and the moves by their element's guard. -/
theorem vectorComparesReductionsMoves : Obligations.VectorComparesReductionsMoves := by
  intro g ty pd m d a vd va vb j s hd ha hb hty w n t rm x y act compares reduces
  have hcompares (kind : Nat) := State.vcompare_of_free ha hb g ty pd kind
  have hbits (kind e : Nat) (he : e < n) (k : Nat) (hk : k < w / 8) := s.compared_getLsbD g hty pd va vb kind he hk
  have hreduces := State.vreduce_of_free hd ha g ty
  refine ⟨⟨_, hcompares 0, hbits 0⟩, ⟨_, hcompares 1, hbits 1⟩, ⟨_, hcompares 2, hbits 2⟩, ⟨_, hcompares 3, hbits 3⟩,
    fun hi p q => cmpElem_int hi p q, fun hi p q hn k _ => cmpElem_nan hi hn k, hreduces (bin t rm (· + ·) (fAdd rm)),
    hreduces fun p q => (pick t true p q, 0), hreduces fun p q => (pick t false p q, 0), fun _ => ⟨fun hact => ?_, fun hact => ?_⟩⟩
  · exact ⟨exec_vmvs ha hact d, _, exec_vins hd hact a, fun i hi => insertElem_extractLsb' hi _ _ _⟩
  · exact exec_move_inactive hact d a vd va

end Sys2Proof.Machine
end

section
/-!
# Scratchpad accesses

The checks of a scratchpad access, what a load takes and what a store leaves in flight, for the scalar forms (R137, R139, R140) and the vector
forms (R135).
-/

namespace Sys2Proof.Machine

/-! ### The checks of an access (R135, R140) -/

section
variable {align n : Nat} {x : Int}

theorem scratchCheck_misaligned (h : x % (align : Int) ≠ 0) :
    scratchCheck align n x = some (alignTrap align ((BitVec.ofInt 64 x).setWidth 80)) := if_pos h

theorem scratchCheck_outside (h : x % (align : Int) = 0) (hx : ¬(0 ≤ x ∧ x + n ≤ 786432)) :
    scratchCheck align n x = some (causeTrap 0x09 (BitVec.ofInt 64 x)) := by
  rw [scratchCheck, if_neg (fun hne => hne h), if_pos]
  simp only [Config.scratchBytes]
  omega

theorem scratchCheck_ok (h : x % (align : Int) = 0) (hx : 0 ≤ x ∧ x + n ≤ 786432) : scratchCheck align n x = none := by
  rw [scratchCheck, if_neg (fun hne => hne h), if_neg]
  simp only [Config.scratchBytes]
  omega

end

/-! ### Bytes -/

theorem Core.scratchBytes_eq (x : Core) (o n : Nat) :
    x.scratchBytes o n = (List.range n).map fun k => mapGet (fun _ => (0 : Byte)) x.scratch (o + k) :=
  mapGetList_eq_map x.scratch n o

/-- The low bytes of a number, the lowest first (R5). -/
theorem bytesOfNat_eq_map (n v : Nat) : bytesOfNat n v = (List.range n).map fun k => BitVec.ofNat 8 (v / 256 ^ k) := by
  refine List.ext_getElem (by simp [bytesOfNat_length]) fun k hk _ => ?_
  rw [bytesOfNat_length] at hk
  have h := bytesOfNat_getD n v k hk
  rw [List.getD_eq_getElem?_getD, List.getElem?_eq_getElem (by rwa [bytesOfNat_length]), Option.getD_some] at h
  simpa using h

theorem bytesOfNat_word (n : Nat) (w : Word) : bytesOfNat n w.toNat = (List.range n).map fun k => w.extractLsb' (8 * k) 8 := by
  rw [bytesOfNat_eq_map]
  exact List.map_congr_left fun k _ => (extractLsb'_eq_byte w k).symm

/-! ### LDS and STS (R140) -/

section
variable {s : State} {g : Guard} (hg : s.guard g = true) {d a b : BitVec 6} {imm : BitVec 17} {n : Nat}
include hg

theorem State.lds_trapped {t : Trap} (h : scratchCheck n n (s.scratchOff a imm) = some t) :
    s.guarded g (s.lds d a imm n) = s.settle (.trap t) := by
  rw [State.guarded_on hg, State.lds]
  simp only [h]

theorem State.sts_trapped {t : Trap} (h : scratchCheck n n (s.scratchOff a imm) = some t) :
    s.guarded g (s.sts a b imm n) = s.settle (.trap t) := by
  rw [State.guarded_on hg, State.sts]
  simp only [h]

theorem State.lds_loads (h : scratchCheck n n (s.scratchOff a imm) = none) (hbad : s.cr.scratchBad (s.scratchOff a imm).toNat n = none) :
    s.guarded g (s.lds d a imm n) = .next (s.landS d (BitVec.ofNat 64 (natOfBytes
      ((List.range n).map fun k => mapGet (fun _ => (0 : Byte)) s.cr.scratch ((s.scratchOff a imm).toNat + k)))) 5) := by
  rw [State.guarded_on hg, State.lds, ← Core.scratchBytes_eq]
  simp only [h, hbad]
  rfl

theorem State.sts_stores (h : scratchCheck n n (s.scratchOff a imm) = none) :
    s.guarded g (s.sts a b imm n) = .next (s.storeScratch (s.scratchOff a imm).toNat
      ((List.range n).map fun k => some ((s.sr b).extractLsb' (8 * k) 8))) := by
  rw [State.guarded_on hg, State.sts, bytesOfNat_word, List.map_map]
  simp only [h]
  rfl

end

/-- LDS and STS of n bytes. -/
def ldsOf (n : Nat) (g : Guard) (d a : BitVec 6) (imm : BitVec 17) : Instr := if n = 4 then .ldsW g d a imm else .ldsD g d a imm
def stsOf (n : Nat) (g : Guard) (a b : BitVec 6) (imm : BitVec 17) : Instr := if n = 4 then .stsW g a b imm else .stsD g a b imm

section
variable {n : Nat} (h : n = 4 ∨ n = 8) (g : Guard) (d a b : BitVec 6) (imm : BitVec 17) (s : State)
include h

theorem exec_ldsOf : exec (ldsOf n g d a imm) s = s.guarded g (s.lds d a imm n) := by
  rcases h with rfl | rfl <;> rfl

theorem exec_stsOf : exec (stsOf n g a b imm) s = s.guarded g (s.sts a b imm n) := by
  rcases h with rfl | rfl <;> rfl

theorem mem_scratchForms {i : Instr}
    (hi : i ∈ if n = 4 then [Instr.ldsW g d a imm, .stsW g a b imm] else [.ldsD g d a imm, .stsD g a b imm]) :
    i = ldsOf n g d a imm ∨ i = stsOf n g a b imm := by
  rcases h with rfl | rfl <;> simpa [ldsOf, stsOf] using hi

end

/-- Settles O40: both forms of n bytes pass or fail one check, and then take or leave their bytes. -/
theorem scalarScratchpadAccess : Obligations.ScalarScratchpadAccess := by
  intro g d a b imm s hg x forms n hn
  have hlds := exec_ldsOf hn g d a imm s
  have hsts := exec_stsOf hn g a b imm s
  have htraps {t : Trap} (h : scratchCheck n n x = some t) : ∀ i ∈ forms n, exec i s = s.settle (.trap t) := by
    intro i hi
    rcases mem_scratchForms hn g d a b imm hi with rfl | rfl
    · exact hlds.trans (State.lds_trapped hg h)
    · exact hsts.trans (State.sts_trapped hg h)
  refine ⟨fun i hi hx => htraps (scratchCheck_misaligned hx) i hi,
    fun i hi hx hout => htraps (scratchCheck_outside hx (by omega)) i hi, fun hx hlo hhi => ⟨fun hbad => ?_, ?_⟩⟩
  · exact hlds.trans (State.lds_loads hg (scratchCheck_ok hx ⟨hlo, hhi⟩) hbad)
  · exact hsts.trans (State.sts_stores hg (scratchCheck_ok hx ⟨hlo, hhi⟩))

end Sys2Proof.Machine
end

section
/-!
# Vector scratchpad accesses

The first failing check over the active elements, what a load takes and what a store leaves in flight (R135, R137).
-/

namespace Sys2Proof.Machine

/-! ### The active elements, in increasing order -/

/-- The active elements (R124). -/
def State.live (s : State) (g : Guard) (w : Nat) : List Nat := (List.range (2048 / w)).filter fun i => s.active g w i

theorem State.any_active_iff (s : State) (g : Guard) (w : Nat) :
    (List.range (2048 / w)).any (fun i => s.active g w i) = true ↔ s.live g w ≠ [] := by
  simp [State.live, List.filter_eq_nil_iff]

theorem State.mem_live {s : State} {g : Guard} {w i : Nat} : i ∈ s.live g w ↔ i < 2048 / w ∧ s.active g w i = true := by
  simp [State.live]

/-- Over rising indices, the result at the first index that has one. -/
theorem findSome?_of_first {α : Type} {f : Nat → Option α} {l : List Nat} (hl : l.Pairwise (· < ·)) {i : Nat} {t : α} (hi : i ∈ l)
    (hbefore : ∀ k ∈ l, k < i → f k = none) (ht : f i = some t) : l.findSome? f = some t := by
  obtain ⟨as, bs, rfl⟩ := List.append_of_mem hi
  refine List.findSome?_eq_some_iff.2 ⟨as, i, bs, rfl, ht, fun k hk => hbefore k (List.mem_append_left _ hk) ?_⟩
  exact (List.pairwise_append.1 hl).2.2 k hk i List.mem_cons_self

theorem State.live_pairwise (s : State) (g : Guard) (w : Nat) : (s.live g w).Pairwise (· < ·) :=
  List.pairwise_lt_range.filter _

/-! ### The checks (R135) -/

section
variable {s : State} {g : Guard} {w : Nat} {x : Nat → Int}

theorem State.vectorCheck_whole (h : x 0 % 16 = 0) : s.vectorCheck g w true x = (s.live g w).findSome? fun i => scratchCheck 1 (w / 8) (x i) := by
  have hok : scratchCheck 16 0 (x 0 % 16) = none := by
    rw [h]
    rfl
  simp only [State.vectorCheck, hok, if_true]
  rfl

/-- An access of n bytes at offset x lies in the scratchpad. -/
def InScratch (n : Nat) (x : Int) : Prop := 0 ≤ x ∧ x + n ≤ 786432

theorem State.vectorCheck_elements_ok (ha : ∀ i ∈ s.live g w, x i % ((w / 8 : Nat) : Int) = 0)
    (hin : ∀ i ∈ s.live g w, InScratch (w / 8) (x i)) : s.vectorCheck g w false x = none :=
  List.findSome?_eq_none_iff.2 fun i hi => scratchCheck_ok (ha i hi) (hin i hi)

/-- The first element of a form of single elements that fails its check decides. -/
theorem State.vectorCheck_elements_first {i : Nat} {t : Trap} (hi : i ∈ s.live g w)
    (hbefore : ∀ k ∈ s.live g w, k < i → x k % ((w / 8 : Nat) : Int) = 0 ∧ InScratch (w / 8) (x k))
    (ht : scratchCheck (w / 8) (w / 8) (x i) = some t) : s.vectorCheck g w false x = some t :=
  findSome?_of_first (s.live_pairwise g w) hi (fun k hk hki => scratchCheck_ok (hbefore k hk hki).1 (hbefore k hk hki).2) ht

theorem State.vectorCheck_whole_ok (h : x 0 % 16 = 0) (hin : ∀ i ∈ s.live g w, InScratch (w / 8) (x i)) : s.vectorCheck g w true x = none := by
  rw [State.vectorCheck_whole h]
  exact List.findSome?_eq_none_iff.2 fun i hi => scratchCheck_ok (Int.emod_one _) (hin i hi)

/-- The first element of an aligned whole access that lies outside decides. -/
theorem State.vectorCheck_whole_first {i : Nat} (h : x 0 % 16 = 0) (hi : i ∈ s.live g w)
    (hbefore : ∀ k ∈ s.live g w, k < i → InScratch (w / 8) (x k)) (hout : ¬InScratch (w / 8) (x i)) :
    s.vectorCheck g w true x = some (causeTrap 0x09 (BitVec.ofInt 64 (x i))) := by
  rw [State.vectorCheck_whole h]
  exact findSome?_of_first (s.live_pairwise g w) hi (fun k hk hki => scratchCheck_ok (Int.emod_one _) (hbefore k hk hki))
    (scratchCheck_outside (Int.emod_one _) hout)

theorem State.vectorCheck_whole_misaligned (h : x 0 % 16 ≠ 0) :
    s.vectorCheck g w true x = some (alignTrap 16 ((BitVec.ofInt 64 (x 0)).setWidth 80)) := by
  have hbad : scratchCheck 16 0 (x 0 % 16) = some _ := scratchCheck_misaligned (by simpa using h)
  simp only [State.vectorCheck, hbad, if_true]

end

/-! ### A slot with an active element -/

section
variable {s : State} {g : Guard} {w : Nat} {ns : List (Nat × VReg)}

theorem State.vslot_live (hl : s.live g w ≠ []) (hn : ∀ n ∈ ns, s.VFree n.1) (r : Try) : s.vslot g w (s.vneed ns r) = s.settle r := by
  rw [State.vneed_of_free hn, State.vslot, if_pos (s.any_active_iff g w |>.2 hl)]

theorem State.vslot_none (hl : s.live g w = []) (r : Try) : s.vslot g w r = .next s :=
  if_neg (fun h => (s.any_active_iff g w).1 h hl)

variable {ty : BitVec 4} {v : BitVec 11} {whole : Bool} {lat : Nat} {x : Nat → Int} (hl : s.live g (tyWidth ty) ≠ [])
  (hn : ∀ n ∈ ns, s.VFree n.1)
include hl hn

theorem State.vslot_vload_trapped {t : Trap} (h : s.vectorCheck g (tyWidth ty) whole x = some t) :
    s.vslot g (tyWidth ty) (s.vneed ns (s.vload g ty v whole lat x)) = s.settle (.trap t) := by
  rw [State.vslot_live hl hn, State.vload]
  simp only [h]

theorem State.vslot_vstore_trapped {t : Trap} (h : s.vectorCheck g (tyWidth ty) whole x = some t) :
    s.vslot g (tyWidth ty) (s.vneed ns (s.vstore g ty v whole x)) = s.settle (.trap t) := by
  rw [State.vslot_live hl hn, State.vstore]
  simp only [h]

/-- A load of elements that pass their checks, from words that are good (R135, R137). -/
theorem State.vslot_vload (h : s.vectorCheck g (tyWidth ty) whole x = none)
    (hbad : ∀ i ∈ s.live g (tyWidth ty), s.cr.scratchBad (x i).toNat (tyWidth ty / 8) = none) :
    s.vslot g (tyWidth ty) (s.vneed ns (s.vload g ty v whole lat x)) = .next (s.elementwise g (tyWidth ty) v lat fun i =>
      (natOfBytes ((List.range (tyWidth ty / 8)).map fun k => mapGet (fun _ => (0 : Byte)) s.cr.scratch ((x i).toNat + k)), 0)) := by
  have hgood : (List.range (2048 / tyWidth ty)).findSome? (fun i =>
      if s.active g (tyWidth ty) i then s.cr.scratchBad (x i).toNat (tyWidth ty / 8) else none) = none := by
    refine List.findSome?_eq_none_iff.2 fun i hi => ?_
    split
    · next ha => exact hbad i (State.mem_live.2 ⟨List.mem_range.1 hi, ha⟩)
    · rfl
  rw [State.vslot_live hl hn, State.vload]
  simp only [h, hgood, Core.scratchBytes_eq]
  rfl

end

/-! ### Bytes of an element -/

/-- Byte k of element i. -/
theorem byte_of_elem {w k : Nat} (hk : 8 * k + 8 ≤ w) (v : VReg) (i : Nat) :
    BitVec.ofNat 8 (bitsOf (v.extractLsb' (w * i) w).toNat (8 * k) 8) = v.extractLsb' (w * i + 8 * k) 8 := by
  ext j hj
  rw [← BitVec.getLsbD_eq_getElem, BitVec.getLsbD_ofNat, bitsOf_testBit _ _ hj, BitVec.testBit_toNat, BitVec.getLsbD_extractLsb',
    BitVec.getElem_extractLsb', decide_eq_true hj, decide_eq_true (by omega : 8 * k + j < w), Nat.add_assoc]
  rfl

theorem bytesOfNat_elem {w : Nat} (v : VReg) (i : Nat) :
    bytesOfNat (w / 8) (v.extractLsb' (w * i) w).toNat = (List.range (w / 8)).map fun k => v.extractLsb' (w * i + 8 * k) 8 := by
  rw [bytesOfNat_eq_map]
  refine List.map_congr_left fun k hk => ?_
  rw [← byte_of_elem (by have := List.mem_range.1 hk; omega), bitsOf, Nat.shiftRight_eq_div_pow, Nat.pow_mul]
  exact BitVec.eq_of_toNat_eq (by simp)

/-- Byte k of a register, as a byte of its element. -/
theorem byte_of_register {w : Nat} (hw : 8 * (w / 8) = w) (h0 : 0 < w) (v : VReg) (k : Nat) :
    BitVec.ofNat 8 (bitsOf (v.extractLsb' (w * (k / (w / 8))) w).toNat (8 * (k % (w / 8))) 8) = v.extractLsb' (8 * k) 8 := by
  have hmod : k % (w / 8) < w / 8 := Nat.mod_lt _ (by omega)
  have hpos : w * (k / (w / 8)) + 8 * (k % (w / 8)) = 8 * k := by
    calc w * (k / (w / 8)) + 8 * (k % (w / 8)) = 8 * (w / 8 * (k / (w / 8)) + k % (w / 8)) := by rw [Nat.mul_add, ← Nat.mul_assoc, hw]
      _ = 8 * k := by rw [Nat.div_add_mod]
  rw [byte_of_elem (by omega), hpos]

theorem tyWidth_whole_bytes {ty : BitVec 4} (h : tyAny ty = true) : 8 * (tyWidth ty / 8) = tyWidth ty ∧ 0 < tyWidth ty := by
  revert ty
  decide

/-! ### What a store leaves (R137) -/

/-- Between s and t the acting strand has stored: results are in flight after those of s, and memory, the scratchpad and the strand's scalars and
control registers are kept. -/
structure State.Stored (s t : State) (l : List Landing) : Prop where
  flight : t.bk.flight = s.bk.flight ++ l
  scalars : t.bk.s = s.bk.s
  csr : t.bk.csr = s.bk.csr
  mem : t.mem = s.mem
  scratch : t.cr.scratch = s.cr.scratch
  clk : t.clk = s.clk
  order : t.order = s.order
  cur : t.cur = s.cur

theorem State.Stored.refl (s : State) : s.Stored s [] := ⟨(List.append_nil _).symm, rfl, rfl, rfl, rfl, rfl, rfl, rfl⟩

theorem State.Stored.trans {s t u : State} {l m : List Landing} (h : s.Stored t l) (h' : t.Stored u m) : s.Stored u (l ++ m) :=
  ⟨by rw [h'.flight, h.flight, List.append_assoc], h'.scalars.trans h.scalars, h'.csr.trans h.csr, h'.mem.trans h.mem,
    h'.scratch.trans h.scratch, h'.clk.trans h.clk, h'.order.trans h.order, h'.cur.trans h.cur⟩

/-- What a strand keeps for EFENCE changes nothing else of its bank (R253). -/
theorem State.noteOld_bk (s : State) (x : Nat) (v : List (Option Byte)) : ∃ o, (s.noteOld x v).bk = { s.bk with old := o } := by
  have hfold (l : List Nat) : ∀ b : Bank, ∃ o, (l.foldl (fun b c => if b.old.any (fun e => e.1 == c) then b
      else { b with old := mapSet (fun _ => 2 ^ 128) b.old c (natOfBytes (s.cr.scratchBytes (16 * c) 16)) }) b) = { b with old := o } := by
    induction l with
    | nil => exact fun b => ⟨b.old, rfl⟩
    | cons c l ih =>
      intro b
      rw [List.foldl_cons]
      split
      · exact ih b
      · exact ih _
  rw [State.noteOld, State.modBk_bk]
  exact hfold _ _

/-- The landing of a store. -/
def State.storeLanding (s : State) (x : Nat) (v : List (Option Byte)) : Landing :=
  ⟨s.clk + (if s.tripled then 2 else 0), s.order, .scratch x v, 0, false⟩

theorem State.storeScratch_bk (s : State) (x : Nat) (v : List (Option Byte)) :
    ∃ o, (s.storeScratch x v).bk = { s.bk with old := o, flight := s.bk.flight ++ [s.storeLanding x v] } := by
  obtain ⟨o, ho⟩ := s.noteOld_bk x v
  refine ⟨o, ?_⟩
  rw [State.storeScratch, State.land, State.modBk_bk, ho]
  rfl

theorem State.modBk_scratch (s : State) (f : Bank → Bank) : (s.modBk f).cr.scratch = s.cr.scratch :=
  (s.modBank_keepsFiles s.cur.core s.cur.pos f).scratch

theorem State.storeScratch_stored (s : State) (x : Nat) (v : List (Option Byte)) : s.Stored (s.storeScratch x v) [s.storeLanding x v] := by
  obtain ⟨o, ho⟩ := s.storeScratch_bk x v
  refine ⟨by rw [ho], by rw [ho], by rw [ho], rfl, ?_, rfl, rfl, rfl⟩
  exact (State.modBk_scratch _ _).trans (State.modBk_scratch _ _)

/-- Stores one after the other leave their landings one after the other. -/
theorem State.foldl_stored (x : Nat → Nat) (v : Nat → List (Option Byte)) (l : List Nat) : ∀ s : State,
    s.Stored (l.foldl (fun t i => t.storeScratch (x i) (v i)) s) (l.map fun i => s.storeLanding (x i) (v i)) := by
  induction l with
  | nil => exact State.Stored.refl
  | cons i l ih =>
    intro s
    have hone := s.storeScratch_stored (x i) (v i)
    have hsame : (fun k => (s.storeScratch (x i) (v i)).storeLanding (x k) (v k)) = fun k => s.storeLanding (x k) (v k) := rfl
    have hrest := ih (s.storeScratch (x i) (v i))
    rw [hsame] at hrest
    exact hone.trans hrest

section
variable {s : State} {g : Guard} {ty : BitVec 4} {v : BitVec 11} {ns : List (Nat × VReg)} {x : Nat → Int} (hl : s.live g (tyWidth ty) ≠ [])
  (hn : ∀ n ∈ ns, s.VFree n.1)
include hl hn

/-- A store of elements at offsets of their own that pass their checks: the landings stand in element order (R135). -/
theorem State.vslot_vstore_elements (h : s.vectorCheck g (tyWidth ty) false x = none) :
    ∃ t, s.vslot g (tyWidth ty) (s.vneed ns (s.vstore g ty v false x)) = .next t ∧
      s.Stored t ((s.live g (tyWidth ty)).map fun i => s.storeLanding (x i).toNat
        (((List.range (tyWidth ty / 8)).map fun k => (s.vget v.toNat).extractLsb' (tyWidth ty * i + 8 * k) 8).map some)) := by
  refine ⟨_, ?_, State.foldl_stored _ _ _ s⟩
  rw [State.vslot_live hl hn, State.vstore]
  simp only [h, Bool.false_eq_true, if_false, elems_getD (tyWidth_dvd ty), bytesOfNat_elem, State.live, List.foldl_filter]
  rfl

/-- A store of a whole register that passes its checks: the bytes of the active elements from the first offset on (R135). -/
theorem State.vslot_vstore_whole (ht : tyAny ty = true) (h : s.vectorCheck g (tyWidth ty) true x = none) :
    s.vslot g (tyWidth ty) (s.vneed ns (s.vstore g ty v true x)) = .next (s.storeScratch (x 0).toNat
      (((List.range 256).map fun k => if s.active g (tyWidth ty) (k / (tyWidth ty / 8)) then some ((s.vget v.toNat).extractLsb' (8 * k) 8)
        else none).drop (-(x 0)).toNat)) := by
  obtain ⟨hw, h0⟩ := tyWidth_whole_bytes ht
  rw [State.vslot_live hl hn, State.vstore]
  simp only [h, if_true, elems_getD (tyWidth_dvd ty), byte_of_register hw h0]
  rfl

end

/-! ### The forms (R135) -/

theorem State.gatherIndex_eq (s : State) (vd : BitVec 11) :
    s.gatherIndex vd = fun i => (((s.vget (vd.toNat + 1)).extractLsb' (32 * i) 32).toNat : Int) :=
  funext fun i => congrArg Nat.cast (elems_getD (by decide) _ i)

section
variable {ty : BitVec 4} (h : tyWidth ty = 32) (g : Guard) (vd : BitVec 11) (a : BitVec 6) (off : BitVec 22) (s : State)
include h

theorem exec_vgath : exec (.vgath g ty vd a off) s = s.vslot g (tyWidth ty) (s.vneed
    [(vd.toNat, s.keepMask g 32), (vd.toNat + 1, s.activeMask g 32)]
    (s.vload g ty vd false 10 (s.elemOff a off fun i => (((s.vget (vd.toNat + 1)).extractLsb' (32 * i) 32).toNat : Int)))) := by
  rw [h, ← State.gatherIndex_eq]
  rfl

theorem exec_vscat : exec (.vscat g ty vd a off) s = s.vslot g (tyWidth ty) (s.vneed
    [(vd.toNat, s.activeMask g 32), (vd.toNat + 1, s.activeMask g 32)]
    (s.vstore g ty vd false (s.elemOff a off fun i => (((s.vget (vd.toNat + 1)).extractLsb' (32 * i) 32).toNat : Int)))) := by
  rw [h, ← State.gatherIndex_eq]
  rfl

end

/-- Settles O51: each form is a load or a store of elements at offsets of its own, whose first failing check decides. -/
theorem vectorScratchpadAccess : Obligations.VectorScratchpadAccess := by
  intro g ty vd a off s hd hty w size n base index live inside load good stored stores x0 xi xs
  have hone (m : VReg) : ∀ r ∈ [(vd.toNat, m)], s.VFree r.1 := by simp [hd]
  have hbase : x0 0 = base := by simp [x0]
  have hstored {i : Instr} {x : Nat → Int} (h : ∃ t, exec i s = .next t ∧
      s.Stored t (live.map fun i => s.storeLanding (x i).toNat ((stored i).map some))) : stores i x := by
    obtain ⟨t, ht, hs⟩ := h
    exact ⟨t, ht, hs.flight, hs.scalars, hs.csr, hs.mem, hs.scratch⟩
  have hfour (hw : w = 32) : ((w / 8 : Nat) : Int) = 4 := by rw [hw]; rfl
  refine ⟨fun t x v => t.storeScratch_bk x v, fun hl => ?_, fun hl => ⟨fun hb hg => ?_, fun hb => ?_, fun ha hg => ?_, fun hw hd' ha hg => ?_,
    fun i hi hbefore hout hb => ?_, fun i hi hbefore => ?_, fun hw hd' i hi hbefore => ?_⟩⟩
  · have hnone (r : Try) : s.vslot g w r = .next s := State.vslot_none hl r
    exact ⟨hnone _, hnone _, hnone _, hnone _,
      fun hw => ⟨(exec_vgath hw g vd a off s).trans (hnone _), (exec_vscat hw g vd a off s).trans (hnone _)⟩⟩
  · have hcheck : s.vectorCheck g w true x0 = none := State.vectorCheck_whole_ok (hbase ▸ hb) fun i hi => (hg i hi).1
    refine ⟨State.vslot_vload hl (hone _) hcheck fun i hi => (hg i hi).2, ?_⟩
    rw [← hbase]
    exact State.vslot_vstore_whole hl (hone _) hty hcheck
  · have hcheck := State.vectorCheck_whole_misaligned (s := s) (g := g) (w := w) (x := x0) (hbase ▸ hb)
    rw [hbase] at hcheck
    rintro i (rfl | rfl)
    · exact State.vslot_vload_trapped hl (hone _) hcheck
    · exact State.vslot_vstore_trapped hl (hone _) hcheck
  · have hcheck : s.vectorCheck g w false xs = none := State.vectorCheck_elements_ok ha fun i hi => (hg i hi).1
    exact ⟨State.vslot_vload hl (hone _) hcheck fun i hi => (hg i hi).2, hstored (State.vslot_vstore_elements hl (hone _) hcheck)⟩
  · have hcheck : s.vectorCheck g w false xi = none :=
      State.vectorCheck_elements_ok (by rw [hfour hw]; exact ha) fun i hi => (hg i hi).1
    refine ⟨(exec_vgath hw g vd a off s).trans (State.vslot_vload hl (State.free_pair hd hd' _ _) hcheck fun i hi => (hg i hi).2), hstored ?_⟩
    rw [exec_vscat hw g vd a off s]
    exact State.vslot_vstore_elements hl (State.free_pair hd hd' _ _) hcheck
  · have hcheck : s.vectorCheck g w true x0 = some _ := State.vectorCheck_whole_first (hbase ▸ hb) hi hbefore hout
    rintro v (rfl | rfl)
    · exact State.vslot_vload_trapped hl (hone _) hcheck
    · exact State.vslot_vstore_trapped hl (hone _) hcheck
  · have htraps {t : Trap} (ht : scratchCheck (w / 8) (w / 8) (xs i) = some t) :
        ∀ v, v = .vlds g ty vd a off ∨ v = .vsts g ty vd a off → exec v s = s.settle (.trap t) := by
      have hcheck := State.vectorCheck_elements_first hi hbefore ht
      rintro v (rfl | rfl)
      · exact State.vslot_vload_trapped hl (hone _) hcheck
      · exact State.vslot_vstore_trapped hl (hone _) hcheck
    exact fun v hv => ⟨fun hx => htraps (scratchCheck_misaligned hx) v hv, fun hx hout => htraps (scratchCheck_outside hx hout) v hv⟩
  · have htraps {t : Trap} (ht : scratchCheck (w / 8) (w / 8) (xi i) = some t) :
        ∀ v, v = .vgath g ty vd a off ∨ v = .vscat g ty vd a off → exec v s = s.settle (.trap t) := by
      have hcheck := State.vectorCheck_elements_first hi (by rw [hfour hw]; exact hbefore) ht
      rintro v (rfl | rfl)
      · exact (exec_vgath hw g vd a off s).trans (State.vslot_vload_trapped hl (State.free_pair hd hd' _ _) hcheck)
      · exact (exec_vscat hw g vd a off s).trans (State.vslot_vstore_trapped hl (State.free_pair hd hd' _ _) hcheck)
    refine fun v hv => ⟨fun hx => ?_, fun hx hout => htraps (scratchCheck_outside (by rwa [hfour hw]) hout) v hv⟩
    rw [htraps (scratchCheck_misaligned (by rwa [hfour hw])) v hv, hw]
    rfl

end Sys2Proof.Machine
end

section
/-!
# Shapes of tiles

The fields of a shape word, and TCFG and TRD (R166, R167).
-/

namespace Sys2Proof.Machine

/-! ### The fields of a shape word (R14) -/

/-- A write of bit k leaves the other bits. -/
theorem putField_getLsbD_other (w : Word) {k i : Nat} (hi : i ≠ k) (v : Nat) : (putField w k 1 v).getLsbD i = w.getLsbD i := by
  refine (merge_getLsbD w _ _ i).trans (if_neg ?_)
  rw [BitVec.getLsbD_ofNat, Nat.pow_one, Nat.one_shiftLeft, Nat.testBit_two_pow_of_ne (Ne.symm hi), Bool.and_false]
  exact Bool.false_ne_true

/-- A write of bit k leaves the fields beside it. -/
theorem putField_extractLsb'_other (w : Word) {k lo n : Nat} (h : lo + n ≤ k ∨ k < lo) (v : Nat) :
    (putField w k 1 v).extractLsb' lo n = w.extractLsb' lo n := by
  ext i hi
  rw [BitVec.getElem_extractLsb', BitVec.getElem_extractLsb', putField_getLsbD_other w (by omega)]

/-- Setting bit k. -/
theorem putField_one_eq_or (w : Word) {k : Nat} (hk : k < 64) : putField w k 1 1 = w ||| BitVec.twoPow 64 k := by
  refine BitVec.eq_of_getLsbD_eq fun i hi => ?_
  rw [BitVec.getLsbD_or, BitVec.getLsbD_twoPow]
  by_cases hik : i = k
  · subst hik
    exact (putField_getLsbD_bit w hk true).trans (by simp [hk])
  · rw [putField_getLsbD_other w hik]
    simp [Ne.symm hik]

/-- A number below a shape word in the information of a trap (R25). -/
theorem shapeInfo_eq (w : Word) {x : Nat} (hx : x < 2 ^ 32) :
    BitVec.ofNat 64 (x + w.toNat % 2 ^ 32 * 2 ^ 32) = w <<< 32 ||| BitVec.ofNat 64 x := by
  have hlow : w.toNat * 2 ^ 32 % 2 ^ 64 = 2 ^ 32 * (w.toNat % 2 ^ 32) := by omega
  refine BitVec.eq_of_toNat_eq ?_
  rw [BitVec.toNat_ofNat, BitVec.toNat_or, BitVec.toNat_shiftLeft, BitVec.toNat_ofNat, Nat.shiftLeft_eq, hlow,
    Nat.mod_eq_of_lt (by omega : x < 2 ^ 64), ← Nat.two_pow_add_eq_or_of_lt hx]
  omega

theorem shapeTrap_eq {t : Nat} (ht : t < 2 ^ 32) (w : Word) : shapeTrap t w = { code := 0x08, info := w <<< 32 ||| BitVec.ofNat 64 t } := by
  rw [shapeTrap, shapeInfo_eq w ht]

/-! ### Legal shapes (R166) -/

theorem shFmt_eq_iff (w : Word) (f : BitVec 4) : shFmt w = f.toNat ↔ w.extractLsb' 16 4 = f := by
  rw [shFmt, fieldOf_eq_extractLsb', BitVec.toNat_inj]

theorem shSize_eq (w : Word) : shSize w = if w.extractLsb' 16 4 = 0xB then 8 else 4 :=
  ite_congr (propext (shFmt_eq_iff w 0xB)) (fun _ => rfl) fun _ => rfl

theorem Bank.frameGranted_field (b : Bank) (w : Word) :
    b.frameGranted (fieldOf w 20 4) = (b.csrAt 0x014).getLsbD (16 + (w.extractLsb' 20 4).toNat) := by
  rw [fieldOf_eq_extractLsb', Bank.frameGranted, decide_eq_true (BitVec.isLt _), Bool.true_and]

/-- Whether a word is a legal shape of the strand, condition by condition. -/
theorem Bank.shapeOk_iff (b : Bank) (w : Word) : b.shapeOk w = true ↔
    w.extractLsb' 26 38 = 0 ∧ w.getLsbD 24 = false ∧ 1 ≤ shCols w ∧ shCols w ≤ 128 ∧ shRows w ≤ 128 ∧
      (w.extractLsb' 16 4 = 0x4 ∨ w.extractLsb' 16 4 = 0xA ∨ w.extractLsb' 16 4 = 0xB) ∧
      (b.csrAt 0x014).getLsbD (16 + (w.extractLsb' 20 4).toNat) = true ∧ shRows w * shCols w * shSize w ≤ 65536 := by
  have hzero : fieldOf w 26 38 = 0 ↔ w.extractLsb' 26 38 = 0 := by rw [fieldOf_eq_extractLsb', ← BitVec.toNat_inj]; rfl
  have h4 := shFmt_eq_iff w 0x4
  have hA := shFmt_eq_iff w 0xA
  have hB := shFmt_eq_iff w 0xB
  simp only [Bank.shapeOk, Bank.frameGranted_field, Bool.and_eq_true, Bool.or_eq_true, Bool.not_eq_true', beq_iff_eq, bne_iff_ne,
    decide_eq_true_eq, and_assoc, or_assoc, hzero, Nat.one_le_iff_ne_zero]
  rw [← h4, ← hA, ← hB]
  rfl

/-- Which value VALID has is no matter for a legal shape. -/
theorem Bank.shapeOk_putField (b : Bank) (w : Word) (v : Nat) : b.shapeOk (putField w 25 1 v) = b.shapeOk w := by
  have hfield {lo n : Nat} (h : lo + n ≤ 25 ∨ 25 < lo) : fieldOf (putField w 25 1 v) lo n = fieldOf w lo n := by
    rw [fieldOf_eq_extractLsb', putField_extractLsb'_other w h, fieldOf_eq_extractLsb']
  have hrows : shRows (putField w 25 1 v) = shRows w := hfield (by decide)
  have hcols : shCols (putField w 25 1 v) = shCols w := hfield (by decide)
  have hfmt : shFmt (putField w 25 1 v) = shFmt w := hfield (by decide)
  rw [Bank.shapeOk, Bank.shapeOk, shSize, shSize, hrows, hcols, hfmt, hfield (by decide : 26 + 38 ≤ 25 ∨ 25 < 26),
    hfield (by decide : 20 + 4 ≤ 25 ∨ 25 < 20), putField_getLsbD_other w (by decide)]

/-! ### TCFG and TRD -/

section
variable {s : State} {g : Guard} {t : BitVec 4} (hg : s.guard g = true)
include hg

theorem exec_tcfg_range (h : s.bk.tileOk t.toNat = false) (a : BitVec 6) : exec (.tcfg g t a) s = s.settle (.trap (rangeTrap 1 t.toNat)) :=
  (State.guarded_on hg _).trans (congrArg s.settle (if_pos h))

theorem exec_trd_range (h : s.bk.tileOk t.toNat = false) (d : BitVec 6) : exec (.trd g d t) s = s.settle (.trap (rangeTrap 1 t.toNat)) :=
  (State.guarded_on hg _).trans (congrArg s.settle (if_neg (by simp [h])))

theorem exec_trd (h : s.bk.tileOk t.toNat = true) (d : BitVec 6) : exec (.trd g d t) s = .next (s.landS d (s.bk.tshape t.toNat) 1) :=
  (State.guarded_on hg _).trans (congrArg s.settle (if_pos h))

/-- TCFG of a granted tile that no command of the array names: the shape word decides. -/
theorem exec_tcfg_idle (h : s.bk.tileOk t.toNat = true)
    (hold : (shValid (s.bk.tshape t.toNat) && s.cr.frameBusy (shFrame (s.bk.tshape t.toNat))) = false)
    (hnamed : s.cr.tileNamed s.bk.uid t.toNat = false) (a : BitVec 6) :
    exec (.tcfg g t a) s = s.settle
      (if shRows (s.sr a) = 0 then .ok (s.landCsr (0x040 + t.toNat) 0 (BitVec.allOnes 64))
      else if s.bk.shapeOk (s.sr a) then .ok (s.landCsr (0x040 + t.toNat) (putField (s.sr a) 25 1 1) (BitVec.allOnes 64))
      else .trap (shapeTrap t.toNat (s.sr a))) := by
  refine (State.guarded_on hg _).trans (congrArg s.settle ?_)
  simp only [h, hold, hnamed, Bank.shapeOk_putField, Bool.true_eq_false, Bool.or_self, Bool.false_eq_true, if_false]

end

/-- Settles O43: a tile that is not granted traps first; otherwise the word that TCFG is given decides, condition by condition. -/
theorem tileShapes : Obligations.TileShapes := by
  intro g d a t s hg b w old granted size rows cols legal idle range
  have hungranted (h : ¬granted) : s.bk.tileOk t.toNat = false := eq_false_of_ne_true h
  have hlegal : b.shapeOk w = true ↔ legal := by
    rw [Bank.shapeOk_iff, shSize_eq]
    rfl
  have htcfg (h : granted) (hi : idle) := exec_tcfg_idle hg h (Bool.and_eq_false_iff.2 hi.1) hi.2 a
  have hrows : shRows w = rows := fieldOf_eq_extractLsb' _ _ _
  refine ⟨fun h => ⟨exec_tcfg_range hg (hungranted h) a, exec_trd_range hg (hungranted h) d⟩, fun h => exec_trd hg h d,
    fun h hi h0 => ?_, fun h hi h0 hl => ?_, fun h hi h0 hl => ?_⟩
  · rw [htcfg h hi, if_pos (hrows.trans h0)]
    rfl
  · rw [htcfg h hi, if_neg (hrows ▸ h0), if_pos (hlegal.2 hl), putField_one_eq_or _ (by decide)]
    rfl
  · rw [htcfg h hi, if_neg (hrows ▸ h0), if_neg (mt hlegal.1 hl), shapeTrap_eq (by omega)]

end Sys2Proof.Machine
end

section
/-!
# Tile slices, whole tiles, carries and affine pairs

What the checks on tiles let through (R92, R165-R168, R172), and with them the slices (R169), the whole tiles (R170), the carries (R171) and the
affine pairs (R195-R197).
-/

namespace Sys2Proof.Machine

/-! ### Bytes of the accumulator store (R162), lanes and pairs -/

theorem Core.accumBytes_eq (x : Core) (o n : Nat) :
    x.accumBytes o n = (List.range n).map fun k => mapGet (fun _ => (0 : Byte)) x.accum (o + k) :=
  mapGetList_eq_map x.accum n o

theorem Core.tileElem_eq (x : Core) (w : Word) (r c : Nat) : x.tileElem w r c =
    natOfBytes ((List.range (shSize w)).map fun i => mapGet (fun _ => (0 : Byte)) x.accum (tileAt w r c + i)) := by
  rw [Core.tileElem, Core.accumBytes_eq]

theorem bitsOf_eq_mod (v lo n : Nat) : bitsOf v lo n = v / 2 ^ lo % 2 ^ n := by
  rw [bitsOf, Nat.shiftRight_eq_div_pow]

theorem bitsOf_lt (v lo n : Nat) : bitsOf v lo n < 2 ^ n := Nat.mod_lt _ (Nat.two_pow_pos n)

theorem State.lane_lt (s : State) (v i : Nat) : s.lane v i < 2 ^ 32 := bitsOf_lt _ _ _

theorem State.lane_eq (s : State) (v i : Nat) : s.lane v i = ((s.vget v).extractLsb' (32 * i) 32).toNat :=
  (BitVec.extractLsb'_toNat _ _ _).symm

theorem carryPair_lt (k : Carry) (i : Nat) : carryPair k i < 2 ^ 64 := bitsOf_lt _ _ _

theorem carryPair_eq (k : Carry) (i : Nat) : carryPair k i = (k.extractLsb' (64 * i) 64).toNat :=
  (BitVec.extractLsb'_toNat _ _ _).symm

/-- Element k of a bit vector packed of n results. -/
theorem packBits_map_range_extractLsb' {N w n k : Nat} (hn : w * n ≤ N) (hk : k < n) (f : Nat → Nat) :
    (BitVec.ofNat N (packBits w ((List.range n).map f))).extractLsb' (w * k) w = BitVec.ofNat w (f k) := by
  have hin : w * k + w ≤ N := Nat.le_trans (Nat.mul_le_mul_left w hk) hn
  ext j hj
  rw [BitVec.getElem_extractLsb', BitVec.getLsbD_ofNat, packBits_testBit hj, decide_eq_true (by omega : w * k + j < N),
    ← BitVec.getLsbD_eq_getElem, BitVec.getLsbD_ofNat, decide_eq_true hj]
  simp [hk]

/-- Lane l of a register packed of 64 numbers of 32 bits. -/
theorem packV_lane {l : Nat} (hl : l < 64) {f : Nat → Nat} (hf : f l < 2 ^ 32) :
    ((packV 32 ((List.range 64).map f)).extractLsb' (32 * l) 32).toNat = f l := by
  rw [packV_map_range_extractLsb' (by decide) hl, BitVec.toNat_ofNat, Nat.mod_eq_of_lt hf]

/-! ### Results that join the flight -/

/-- The landing of a write at latency n (R6, R16, R100). -/
def State.landing (s : State) (w : RegWrite) (n : Nat) (flags : BitVec 8 := 0) : Landing :=
  ⟨s.clk + n - 1 + (if s.tripled then 2 else 0), s.order, w, flags, false⟩

/-- Between s and t the acting strand has put results in flight after those of s; its registers, the files that its core's strands share and
memory are kept, and a result lands from t as from s. -/
structure State.Adds (s t : State) (l : List Landing) : Prop where
  flight : t.bk.flight = s.bk.flight ++ l
  scalars : t.bk.s = s.bk.s
  preds : t.bk.p = s.bk.p
  csr : t.bk.csr = s.bk.csr
  accum : t.cr.accum = s.cr.accum
  vfile : t.cr.vfile = s.cr.vfile
  mem : t.mem = s.mem
  landing : ∀ w n fl, t.landing w n fl = s.landing w n fl

theorem State.Adds.refl (s : State) : s.Adds s [] := ⟨(List.append_nil _).symm, rfl, rfl, rfl, rfl, rfl, rfl, fun _ _ _ => rfl⟩

theorem State.Adds.trans {s t u : State} {l m : List Landing} (h : s.Adds t l) (h' : t.Adds u m) : s.Adds u (l ++ m) :=
  ⟨by rw [h'.flight, h.flight, List.append_assoc], h'.scalars.trans h.scalars, h'.preds.trans h.preds, h'.csr.trans h.csr,
    h'.accum.trans h.accum, h'.vfile.trans h.vfile, h'.mem.trans h.mem, fun w n fl => (h'.landing w n fl).trans (h.landing w n fl)⟩

theorem State.modBk_keepsFiles (s : State) (f : Bank → Bank) : s.KeepsFiles (s.modBk f) s.cur.core :=
  s.modBank_keepsFiles s.cur.core s.cur.pos f

theorem State.land_adds (s : State) (w : RegWrite) (n : Nat) (fl : BitVec 8 := 0) : s.Adds (s.land w n fl) [s.landing w n fl] := by
  have hfiles : s.KeepsFiles (s.land w n fl) s.cur.core := s.modBk_keepsFiles _
  have hbk : (s.land w n fl).bk = { s.bk with flight := s.bk.flight ++ [s.landing w n fl] } := State.modBk_bk _ _
  exact ⟨by rw [hbk], by rw [hbk], by rw [hbk], by rw [hbk], hfiles.accum, hfiles.vfile, rfl, fun _ _ _ => rfl⟩

theorem State.land_land_adds (s : State) (w w' : RegWrite) (n n' : Nat) (fl fl' : BitVec 8 := 0) :
    s.Adds ((s.land w n fl).land w' n' fl') [s.landing w n fl, s.landing w' n' fl'] :=
  (s.land_adds w n fl).trans ((s.land w n fl).land_adds w' n' fl')

/-- Results that are put in flight one after the other stand there one after the other. -/
theorem State.foldl_land_adds (w : Nat → RegWrite) (n : Nat) (l : List Nat) : ∀ s : State,
    s.Adds (l.foldl (fun t i => t.land (w i) n) s) (l.map fun i => s.landing (w i) n) := by
  induction l with
  | nil => exact State.Adds.refl
  | cons i l ih =>
    intro s
    have hone := s.land_adds (w i) n
    have hrest := ih (s.land (w i) n)
    simp only [hone.landing] at hrest
    exact hone.trans hrest

/-! ### What the checks on tiles let through -/

/-- Where the registers and the tiles of a slot can be used, the checks of its entry alone decide (R168). -/
theorem State.tneed_of_free {s : State} {vs : List (Nat × VReg)} {t : Nat} {ts : List Nat} (hv : ∀ n ∈ vs, s.VFree n.1)
    (ht : ∀ u ∈ t :: ts, s.TFree u) (entry : Option Trap) (reads : List (Nat × Nat)) (r : Try) :
    s.tneed vs (t :: ts) entry reads r = entry.elim r Try.trap := by
  have hrange : s.vRange (vs.map (·.1)) = none := by
    simpa [State.vRange] using fun n m hn => (hv (n, m) hn).legal
  have hlegal : (t :: ts).find? (fun t => !s.bk.tileOk t) = none :=
    List.find?_eq_none.2 fun u hu => by simp [(ht u hu).legal]
  have hvalid : (t :: ts).find? (fun t => !shValid (s.bk.tshape t)) = none :=
    List.find?_eq_none.2 fun u hu => by simp [(ht u hu).valid]
  have hframes : ((t :: ts).map fun t => shFrame (s.bk.tshape t)).any s.cr.frameBusy = false := by
    rw [List.any_map]
    exact List.any_eq_false.2 fun u hu => by simp [(ht u hu).idle]
  have hnamed : (t :: ts).any (s.cr.tileNamed s.bk.uid) = false :=
    List.any_eq_false.2 fun u hu => by simp [(ht u hu).named]
  have howned : ((t :: ts).map fun t => shFrame (s.bk.tshape t)).find? (fun f => !s.cr.mayUse f s.bk.ctx) = none := by
    rw [List.find?_map, List.find?_eq_none.2 fun u hu => by simp [(ht u hu).owned], Option.map_none]
  have hgood : reads.findSome? (fun x => s.cr.accumBad x.1 x.2) = none :=
    List.findSome?_eq_none_iff.2 fun x _ => (ht t List.mem_cons_self).good x.1 x.2
  simp only [State.tneed, hrange, hlegal, hvalid, hframes, hnamed, howned, hgood, Bool.or_self, Bool.false_eq_true, if_false]
  cases entry with
  | some trap => rfl
  | none => exact State.vneed_of_free hv r

/-! ### Slices (R169) -/

/-- The element that slice element e is. -/
def sliceCell (row : Bool) (idx e : Nat) : Nat × Nat := if row then (idx, e) else (e, idx)

/-- Registers in a row that hold a slice's values: one for each 64 elements. -/
def sliceHalves (w : Word) (row : Bool) : Nat := if 64 < sliceLen w row then 2 else 1

/-- What a slice write gives element e of the slice from the registers from v on. -/
def State.sliceValue (s : State) (w : Word) (row : Bool) (v e : Nat) : Nat :=
  s.lane (v + e / 64) (e % 64) + if shFmt w = 0xB then 2 ^ 32 * s.lane (v + sliceHalves w row + e / 64) (e % 64) else 0

/-- What a slice read leaves in lane l of the i-th register from v on. -/
def State.sliceGain (s : State) (g : Guard) (w : Word) (row : Bool) (idx v i l : Nat) : Nat :=
  let e := 64 * (i % sliceHalves w row) + l
  if sliceLen w row ≤ e then 0
  else if s.active g 32 l then
    s.cr.tileElem w (sliceCell row idx e).1 (sliceCell row idx e).2 / 2 ^ (if sliceHalves w row ≤ i then 32 else 0) % 2 ^ 32
  else s.lane (v + i) l

theorem State.sliceGain_lt (s : State) (g : Guard) (w : Word) (row : Bool) (idx v i l : Nat) : s.sliceGain g w row idx v i l < 2 ^ 32 := by
  simp only [State.sliceGain]
  split
  · exact Nat.two_pow_pos 32
  · split
    · exact Nat.mod_lt _ (Nat.two_pow_pos 32)
    · exact s.lane_lt _ _

theorem indexTrap_eq {t : Nat} (ht : t < 2 ^ 4) (w : Word) (idx : Nat) :
    indexTrap t w idx = { code := 0x08, info := w <<< 32 ||| BitVec.ofNat 64 (t + idx % 256 * 256) } := by
  rw [indexTrap, shapeInfo_eq w (by omega)]

section
variable {s : State} {ty : BitVec 4} {t v : Nat} {row : Bool} {idx : Nat}

theorem State.sliceCheck_type (h : ty.toNat ≠ shFmt (s.bk.tshape t)) : s.sliceCheck ty t v row idx = some (shapeTrap t (s.bk.tshape t)) :=
  if_pos h

variable (hty : ty.toNat = shFmt (s.bk.tshape t))
include hty

theorem State.sliceCheck_index (h : (if row then shRows (s.bk.tshape t) else shCols (s.bk.tshape t)) ≤ idx) :
    s.sliceCheck ty t v row idx = some (indexTrap t (s.bk.tshape t) idx) :=
  (if_neg (not_not_intro hty)).trans (if_pos h)

theorem State.sliceCheck_ok (h : idx < if row then shRows (s.bk.tshape t) else shCols (s.bk.tshape t))
    (hv : v % sliceRegs (s.bk.tshape t) row = 0) : s.sliceCheck ty t v row idx = none :=
  (if_neg (not_not_intro hty)).trans ((if_neg (Nat.not_le.2 h)).trans (if_neg (not_not_intro hv)))

end

section
variable {s : State} {g : Guard} {t : BitVec 4} {row : Bool} {v : BitVec 11}

theorem State.sliceActive_of_valid {w : Word} (h : shValid w = true) :
    s.sliceActive g w row = (List.range (min (sliceLen w row) 64)).any fun i => s.active g 32 i := by
  refine Bool.eq_iff_iff.2 ?_
  simp only [State.sliceActive, h, List.any_eq_true, List.mem_range, Bool.and_eq_true, Bool.not_true, Bool.false_or, decide_eq_true_eq]
  exact exists_congr fun i => by
    rw [Nat.lt_min, and_comm (a := i < sliceLen w row), and_assoc, and_comm (a := s.active g 32 i = true)]

theorem State.sliceNeed_free {w : Word} (h : shValid w = true) {v : Nat} (hv : ∀ i, i < sliceRegs w row → s.VFree (v + i)) (read : Bool) :
    ∀ n ∈ s.sliceNeed g w row read v, s.VFree n.1 := by
  simpa [State.sliceNeed, h] using hv

variable {ty : BitVec 4} {j : SliceIndex}

/-- TRW or TCW. -/
def sliceWriteOf (row : Bool) (g : Guard) (ty t : BitVec 4) (v : BitVec 11) (j : SliceIndex) : Instr :=
  if row then .trw g ty t v j else .tcw g ty t v j

/-- TRR or TCR. -/
def sliceReadOf (row : Bool) (g : Guard) (ty t : BitVec 4) (v : BitVec 11) (j : SliceIndex) : Instr :=
  if row then .trr g ty t v j else .tcr g ty t v j

theorem exec_sliceWriteOf : exec (sliceWriteOf row g ty t v j) s = s.sliceWrite g ty t v row j := by
  cases row <;> rfl

theorem exec_sliceReadOf : exec (sliceReadOf row g ty t v j) s = s.sliceRead g ty t v row j := by
  cases row <;> rfl

/-- A slice without an active element is a no-op (R124). -/
theorem exec_slice_inactive (h : s.sliceActive g (s.bk.tshape t.toNat) row = false) :
    exec (sliceWriteOf row g ty t v j) s = .next s ∧ exec (sliceReadOf row g ty t v j) s = .next s :=
  ⟨exec_sliceWriteOf.trans (if_neg (ne_true_of_eq_false h)), exec_sliceReadOf.trans (if_neg (ne_true_of_eq_false h))⟩

variable (ht : s.TFree t.toNat) (hv : ∀ i, i < sliceRegs (s.bk.tshape t.toNat) row → s.VFree (v.toNat + i))
include ht hv

/-- The checks of a slice whose tile and registers can be used (R169). -/
theorem State.tneed_slice (read : Bool) (entry : Option Trap) (reads : List (Nat × Nat)) (r : Try) :
    s.tneed (s.sliceNeed g (s.bk.tshape t.toNat) row read v.toNat) [t.toNat] entry reads r = entry.elim r Try.trap :=
  State.tneed_of_free (State.sliceNeed_free ht.valid hv read) (by simpa using ht) entry reads r

variable (hact : s.sliceActive g (s.bk.tshape t.toNat) row = true)
include hact

/-- A slice that fails its own checks traps, written or read. -/
theorem exec_slice_trapped {trap : Trap} (h : s.sliceCheck ty t.toNat v.toNat row (s.sliceIndex j) = some trap) :
    ∀ i, i = sliceWriteOf row g ty t v j ∨ i = sliceReadOf row g ty t v j → exec i s = s.settle (.trap trap) := by
  rintro i (rfl | rfl)
  · rw [exec_sliceWriteOf, State.sliceWrite, if_pos hact, State.tneed_slice ht hv, h, Option.elim_some]
  · rw [exec_sliceReadOf, State.sliceRead, if_pos hact, State.tneed_slice ht hv, h, Option.elim_some]

variable (h : s.sliceCheck ty t.toNat v.toNat row (s.sliceIndex j) = none)
include h

/-- The active elements of a slice take the lanes of the registers (R169). -/
theorem exec_sliceWrite_adds :
    let w := s.bk.tshape t.toNat
    let cell := sliceCell row (s.sliceIndex j)
    ∃ u, exec (sliceWriteOf row g ty t v j) s = .next u ∧
      s.Adds u (((List.range (sliceLen w row)).filter fun e => s.active g 32 (e % 64)).map fun e =>
        s.landing (.frame (tileAt w (cell e).1 (cell e).2) ((bytesOfNat (shSize w) (s.sliceValue w row v.toNat e)).map some)) 3) := by
  refine ⟨_, ?_, State.foldl_land_adds _ 3 _ s⟩
  rw [exec_sliceWriteOf, State.sliceWrite, if_pos hact, State.tneed_slice ht hv, h, Option.elim_none, List.foldl_filter]
  simp only [sliceLane, State.sliceValue, Nat.add_assoc]
  cases row <;> rfl

/-- A slice read leaves the slice's elements in its registers (R169). -/
theorem exec_sliceRead_adds :
    let w := s.bk.tshape t.toNat
    ∃ u, exec (sliceReadOf row g ty t v j) s = .next u ∧
      s.Adds u ((List.range (sliceRegs w row)).map fun i => s.landing (.v (s.bk.vphys (v.toNat + i))
        (packV 32 ((List.range 64).map (s.sliceGain g w row (s.sliceIndex j) v.toNat i))) (BitVec.allOnes 2048)) 3) := by
  refine ⟨_, ?_, State.foldl_land_adds _ 3 _ s⟩
  rw [exec_sliceReadOf, State.sliceRead, if_pos hact, State.tneed_slice ht hv, h, Option.elim_none]
  simp only [bitsOf_eq_mod]
  cases row <;> rfl

end

/-! ### Whole tiles (R170, R196) -/

section
variable {s : State} {g : Guard} {t ts : BitVec 4} (hg : s.guard g = true)
include hg

theorem exec_tzero_range (h : s.bk.tileOk t.toNat = false) : exec (.tzero g t) s = s.settle (.trap (rangeTrap 1 t.toNat)) := by
  refine (State.guarded_on hg _).trans (congrArg s.settle ?_)
  simp [State.tneed, State.vRange, h]

theorem exec_tzero_unconfigured (h : s.bk.tileOk t.toNat = true) (hv : shValid (s.bk.tshape t.toNat) = false) :
    exec (.tzero g t) s = s.settle (.trap (causeTrap 0x07 (BitVec.ofNat 64 t.toNat))) := by
  refine (State.guarded_on hg _).trans (congrArg s.settle ?_)
  simp [State.tneed, State.vRange, h, hv]

variable (ht : s.TFree t.toNat)
include ht

/-- A guarded instruction on tiles that can be used, whose own checks pass. -/
theorem State.guarded_tiles {ts : List Nat} (hts : ∀ u ∈ ts, s.TFree u) {entry : Option Trap} (h : entry = none) (reads : List (Nat × Nat))
    (u : State) : s.guarded g (s.tneed [] (t.toNat :: ts) entry reads (.ok u)) = .next u := by
  rw [State.guarded_on hg, State.tneed_of_free (by simp) (List.forall_mem_cons.2 ⟨ht, hts⟩), h]
  rfl

theorem exec_tzero :
    let w := s.bk.tshape t.toNat
    exec (.tzero g t) s = .next (s.land (.frame (65536 * shFrame w)
      (((List.replicate (shRows w * shCols w) (bytesOfNat (shSize w) (zeroElem (shFmt w)))).flatten).map some)) 2) :=
  State.guarded_tiles hg ht (List.forall_mem_nil _) rfl _ _

/-- TMOV between tiles of one shape. -/
theorem exec_tmov (hts : s.TFree ts.toNat) :
    let w := s.bk.tshape t.toNat
    let u := s.bk.tshape ts.toNat
    w.extractLsb' 0 20 = u.extractLsb' 0 20 → ∀ n, shRows u * shCols u * shSize u = n →
    exec (.tmov g t ts) s = .next (s.land (.frame (65536 * shFrame w) ((List.range n).map fun i =>
      some (mapGet (fun _ => 0) s.cr.accum (65536 * shFrame u + i)))) 4) := by
  intro w u hshape n hn
  have hsame : fieldOf w 0 20 = fieldOf u 0 20 := by
    rw [fieldOf_eq_extractLsb', fieldOf_eq_extractLsb', hshape]
  rw [← hn, ← Function.comp_def some, ← List.map_map, ← Core.accumBytes_eq]
  exact State.guarded_tiles hg ht (by simpa using hts) (if_pos hsame) _ _

theorem exec_scan (hfmt : shFmt (s.bk.tshape t.toNat) = 0xB) (k : BitVec 2) :
    let w := s.bk.tshape t.toNat
    let out := (List.range (shCols w)).map fun c =>
      scanColumn ((List.range (shRows w)).map fun r => s.cr.tileElem w r c) (carryPair (s.bk.kget k.toNat) c)
    let lat := 6 + 2 * ((shRows w + 15) / 16)
    exec (.scan g t k) s = .next ((s.land (.frame (65536 * shFrame w)
      (((List.range (shRows w)).flatMap fun r => out.flatMap fun o => bytesOfNat 8 (o.1.1.getD r 0)).map some)) lat
        (out.foldl (fun f o => f ||| o.2) 0)).land
      (.k k.toNat (BitVec.ofNat 4096 (packBits 64 (out.map fun o => o.1.2))) (BitVec.ofNat 4096 (2 ^ (64 * shCols w) - 1))) lat) :=
  State.guarded_tiles hg ht (List.forall_mem_nil _) (if_neg (not_not_intro hfmt)) _ _

end

/-- Shape words that agree below FRAME have elements of one size, in rows and columns of one number. -/
theorem shape_fields_of_low {w u : Word} (h : w.extractLsb' 0 20 = u.extractLsb' 0 20) :
    shRows w = shRows u ∧ shCols w = shCols u ∧ shSize w = shSize u := by
  have hfield {lo len : Nat} (hin : lo + len ≤ 20) : fieldOf w lo len = fieldOf u lo len := by
    rw [fieldOf_eq_extractLsb', fieldOf_eq_extractLsb', ← BitVec.extractLsb'_extractLsb'_of_le hin, h, BitVec.extractLsb'_extractLsb'_of_le hin]
  have hfmt : shFmt w = shFmt u := hfield (by decide)
  exact ⟨hfield (by decide), hfield (by decide), by rw [shSize, shSize, hfmt]⟩

/-! ### Affine rows (R195, R197) -/

section
variable {s : State} {g : Guard} {t : BitVec 4} {j : SliceIndex} (ht : s.TFree t.toNat) (hfmt : shFmt (s.bk.tshape t.toNat) = 0xB)
  (hidx : s.sliceIndex j < shRows (s.bk.tshape t.toNat)) (hact : s.sliceActive g (s.bk.tshape t.toNat) true = true)
include ht hfmt hidx hact

/-- An instruction on a row of affine pairs whose tile and registers can be used. -/
theorem State.settle_affine {vs : List (Nat × VReg)} (hv : ∀ n ∈ vs, s.VFree n.1) (reads : List (Nat × Nat)) (u : State) :
    (if s.sliceActive g (s.bk.tshape t.toNat) true then
      s.settle (s.tneed vs [t.toNat] (s.affCheck t.toNat (some (s.sliceIndex j))) reads (.ok u)) else .next s) = .next u := by
  have hcheck : s.affCheck t.toNat (some (s.sliceIndex j)) = none :=
    (if_neg (not_not_intro hfmt)).trans (if_neg (Nat.not_le.2 hidx))
  rw [if_pos hact, State.tneed_of_free hv (by simpa using ht), hcheck]
  rfl

theorem exec_affset {va vb : BitVec 11} (ha : s.VFree va.toNat) (hb : s.VFree vb.toNat) :
    let w := s.bk.tshape t.toNat
    ∃ u, exec (.affset g t va vb j) s = .next u ∧ s.Adds u (((List.range (shCols w)).filter fun c => s.active g 32 c).map fun c =>
      s.landing (.frame (tileAt w (s.sliceIndex j) c) ((bytesOfNat (shSize w) (s.lane va.toNat c + 2 ^ 32 * s.lane vb.toNat c)).map some)) 3) := by
  refine ⟨_, ?_, State.foldl_land_adds _ 3 _ s⟩
  rw [List.foldl_filter]
  exact State.settle_affine ht hfmt hidx hact (State.free_pair ha hb _ _) _ _

/-- The value that APPLY gives lane c (R197). -/
def State.applyValue (s : State) (src : ApplySrc) (c : Nat) : Nat :=
  match src with
  | .vec va => s.lane va.toNat c
  | .carry k => carryPair (s.bk.kget k.toNat) c / 2 ^ 32

theorem exec_apply {vd : BitVec 11} (hd : s.VFree vd.toNat) {src : ApplySrc} (ha : ∀ va, src = .vec va → s.VFree va.toNat) :
    let w := s.bk.tshape t.toNat
    let res := (List.range 64).map fun c => if shCols w ≤ c then ((0, 0) : Flagged Nat)
      else if s.active g 32 c then applyMap (s.cr.tileElem w (s.sliceIndex j) c) (s.applyValue src c)
      else (s.lane vd.toNat c, 0)
    exec (.apply g vd t j src) s = .next (s.landV vd (packV 32 (res.map (·.1))) 4 (res.foldl (fun f r => f ||| r.2) 0)) := by
  cases src with
  | vec va => exact State.settle_affine ht hfmt hidx hact (State.free_pair hd (ha va rfl) _ _) _ _
  | carry k => exact State.settle_affine ht hfmt hidx hact (by simp [hd]) _ _

end

/-! ### Carries (R171) -/

/-- What KST leaves in lane i of the r-th register of its pair. -/
def State.pairLane (s : State) (g : Guard) (v k r i : Nat) : Nat :=
  if s.active g 32 i then bitsOf (carryPair (s.bk.kget k) i) (32 * r) 32 else s.lane (v + r) i

theorem State.pairLane_lt (s : State) (g : Guard) (v k r i : Nat) : s.pairLane g v k r i < 2 ^ 32 := by
  rw [State.pairLane]
  split
  · exact bitsOf_lt _ _ _
  · exact s.lane_lt _ _

theorem State.pairLane_low (s : State) (g : Guard) (v k i : Nat) :
    s.pairLane g v k 0 i = if s.active g 32 i then carryPair (s.bk.kget k) i % 2 ^ 32 else s.lane v i := by
  rw [State.pairLane, bitsOf_eq_mod, Nat.mul_zero, Nat.pow_zero, Nat.div_one, Nat.add_zero]

theorem State.pairLane_high (s : State) (g : Guard) (v k i : Nat) :
    s.pairLane g v k 1 i = if s.active g 32 i then carryPair (s.bk.kget k) i / 2 ^ 32 else s.lane (v + 1) i := by
  have hlt : carryPair (s.bk.kget k) i / 2 ^ 32 < 2 ^ 32 := Nat.div_lt_of_lt_mul (carryPair_lt _ i)
  rw [State.pairLane, bitsOf_eq_mod, Nat.mul_one, Nat.mod_eq_of_lt hlt]

section
variable {s : State} {g : Guard} (hact : (List.range 64).any (fun i => s.active g 32 i) = true)
include hact

theorem State.vslot_active {ns : List (Nat × VReg)} (hn : ∀ n ∈ ns, s.VFree n.1) (u : State) : s.vslot g 32 (s.vneed ns (.ok u)) = .next u :=
  (State.vslot_of_free hn g 32 u).trans (congrArg _ (if_pos hact))

theorem exec_kld {va : BitVec 11} (ha : s.VFree va.toNat) (ha' : s.VFree (va.toNat + 1)) (k : BitVec 2) :
    exec (.kld g k va) s = .next (s.land (.k k.toNat
      (BitVec.ofNat 4096 (packBits 64 ((List.range 64).map fun i => s.lane va.toNat i + 2 ^ 32 * s.lane (va.toNat + 1) i)))
      (BitVec.ofNat 4096 (packBits 64 ((List.range 64).map fun i => if s.active g 32 i then 2 ^ 64 - 1 else 0)))) 3) :=
  State.vslot_active hact (State.free_pair ha ha' _ _) _

theorem exec_kst {vd : BitVec 11} (hd : s.VFree vd.toNat) (hd' : s.VFree (vd.toNat + 1)) (k : BitVec 2) :
    exec (.kst g vd k) s = .next ((s.landV vd (packV 32 ((List.range 64).map (s.pairLane g vd.toNat k.toNat 0))) 3).land
      (.v (s.bk.vphys (vd.toNat + 1)) (packV 32 ((List.range 64).map (s.pairLane g vd.toNat k.toNat 1))) (BitVec.allOnes 2048)) 3) :=
  State.vslot_active hact (State.free_pair hd hd' _ _) _

end

/-- Settles O52: the checks passed, each instruction comes to what its own lemma says; a check that fails is its trap. -/
theorem tileAndCarryInstructions : Obligations.TileAndCarryInstructions := by
  intro g t ts ty k v va vb j s w rows cols fmt size frame at_ elem idx lane on late adds put pair
  have hadds {i : Instr} {l : List Landing} (h : ∃ u, exec i s = .next u ∧ s.Adds u l) : adds i l := by
    obtain ⟨u, hu, h⟩ := h
    exact ⟨u, hu, h.flight, h.scalars, h.preds, h.csr, h.accum, h.vfile, h.mem⟩
  have hat : at_ = tileAt w := rfl
  have helem : elem = s.cr.tileElem w := funext fun r => funext fun c => (Core.tileElem_eq _ _ _ _).symm
  have hidx : idx = s.sliceIndex j := by cases j <;> rfl
  have hlane : lane = s.lane := funext fun r => funext fun l => (s.lane_eq r l).symm
  have hpair : pair = carryPair (s.bk.kget k.toNat) := funext fun i => (carryPair_eq _ i).symm
  have hrows : rows = shRows w := rfl
  have hcols : cols = shCols w := rfl
  have hfmt : fmt = shFmt w := rfl
  have hsize : size = shSize w := rfl
  have hframe : frame = 65536 * shFrame w := rfl
  clear_value elem at_ frame size fmt rows cols idx lane pair
  subst hat helem hidx hlane hpair hrows hcols hfmt hsize hframe
  have hrow (ht : s.TFree t.toNat) (hle : shCols w ≤ 64) (hact : (List.range (shCols w)).any on = true) : s.sliceActive g w true = true := by
    rw [State.sliceActive_of_valid ht.valid]
    exact (congrArg (fun m => (List.range m).any on) (Nat.min_eq_left hle)).trans hact
  refine ⟨fun ht _ _ => ⟨fun row => ?_, fun hg => ⟨?_, fun hts hshape => ?_, fun haff => ?_⟩, fun haff hle hlt hact => ⟨fun ha hb => ?_, ?_⟩⟩,
    fun hact => ⟨fun ha ha' => ?_, fun hd hd' => ?_⟩, fun hg h => exec_tzero_range hg h, fun hg h hv => ?_⟩
  · intro n hi regs cell write read hv
    have hlive : s.sliceActive g w row = (List.range (min n 64)).any on := State.sliceActive_of_valid ht.valid
    refine ⟨fun hact hty hlt hal => ?_, fun hact hty hle => ?_, fun hact hty => ?_, fun hnone => exec_slice_inactive (hlive.trans hnone)⟩
    · have hcheck : s.sliceCheck ty t.toNat v.toNat row (s.sliceIndex j) = none := State.sliceCheck_ok hty hlt hal
      exact ⟨hadds (exec_sliceWrite_adds ht hv (hlive.trans hact) hcheck), _, hadds (exec_sliceRead_adds ht hv (hlive.trans hact) hcheck),
        fun i l _ hl => packV_lane hl (s.sliceGain_lt g w row (s.sliceIndex j) v.toNat i l)⟩
    · rw [← indexTrap_eq t.isLt]
      exact exec_slice_trapped ht hv (hlive.trans hact) (State.sliceCheck_index hty hle)
    · rw [← shapeTrap_eq (Nat.lt_trans t.isLt (by decide))]
      exact exec_slice_trapped ht hv (hlive.trans hact) (State.sliceCheck_type hty)
  · exact hadds ⟨_, exec_tzero hg ht, s.land_adds _ _⟩
  · obtain ⟨hr, hc, hs⟩ := shape_fields_of_low hshape
    exact hadds ⟨_, exec_tmov hg ht hts hshape _ (by rw [← hr, ← hc, ← hs]), s.land_adds _ _⟩
  · exact hadds ⟨_, exec_scan hg ht haff k, s.land_land_adds _ _ _ _ _⟩
  · exact hadds (exec_affset ht haff hlt (hrow ht hle hact) ha hb)
  · intro hd ha src hsrc x res
    have hx : x = s.applyValue src := by
      rcases hsrc with rfl | rfl
      · exact funext fun c => if_neg nofun
      · exact funext fun c => if_pos rfl
    have hfree : ∀ va', src = .vec va' → s.VFree va'.toNat := by
      rcases hsrc with rfl | rfl
      · rintro _ ⟨⟩
        exact ha
      · exact nofun
    clear_value x
    subst hx
    exact exec_apply ht haff hlt (hrow ht hle hact) hd hfree
  · refine ⟨_, _, hadds ⟨_, exec_kld hact ha ha' k, s.land_adds _ _⟩, fun i hi => ⟨?_, ?_⟩⟩
    · exact packBits_map_range_extractLsb' (by decide) hi _
    · rw [packBits_map_range_extractLsb' (by decide) hi, apply_ite (BitVec.ofNat 64)]
      rfl
  · refine ⟨_, _, hadds ⟨_, exec_kst hact hd hd' k, s.land_land_adds _ _ _ _⟩, fun i hi => ⟨?_, ?_⟩⟩
    · exact (packV_lane hi (s.pairLane_lt g _ _ _ i)).trans (s.pairLane_low g _ _ i)
    · exact (packV_lane hi (s.pairLane_lt g _ _ _ i)).trans (s.pairLane_high g _ _ i)
  · rw [← BitVec.ofNat_toNat]
    exact exec_tzero_unconfigured hg h hv

end Sys2Proof.Machine
end
